-- ==== Sys2Proof/Word.lean ====
section
/-! DEFINITION. The word types of the ZORIND 7420 model and the index types of its records (1.5 of
00_scope.md, Table 9-4). Everything that may need mending (byte order, CRC) stands in Machine/Bytes.lean. -/
namespace Sys2Proof

/-- One byte of a port frame (R173). -/
abbrev Byte := BitVec 8

/-- A value of the millisecond count, which wraps after 4,294,967,295 (R189). -/
abbrev Time := BitVec 32

/-- One 16-bit sample word of a highway frame: validity flag, then fifteen value bits (R139). -/
abbrev SampleWord := BitVec 16

/-- A position index, 3 × station + slot: 0 is S0A and 11 is S3D (Table 9-4). -/
abbrev PosIx := Fin 12

/-- A tool entry index, 0 to 63 (R17). -/
abbrev EntryIx := Fin 64

/-- A store pocket, by its number less one: pocket 1 is 0 and pocket 48 is 47 (R26). -/
abbrev PocketIx := Fin 48

/-- A tool type, by its code less one: type 1 is 0 and type 16 is 15 (R1). -/
abbrev TypeIx := Fin 16

/-- A highway slot, 0 to 15 (R139). -/
abbrev HwSlot := Fin 16

/-- A station, 0 to 3 (R71). -/
abbrev Station := Fin 4

end Sys2Proof
end

