-- ==== Sys2Proof/Machine/Records.lean ====
section
/-! DEFINITION. The records the part holds, as the spec's tables list their fields: type records (Table 1-1),
tool entries (Table 2-1), pockets (R26), position records (Table 4-1), swap orders (Table 6-1), routes (R145),
channel records (R150), ports (R172); and the two halves of its state, retained and not retained (Table 2-5). -/
namespace Sys2Proof.Machine

/-! ## Names -/

/-- The three slots of a station: two wheel spindles A and B and the roll spindle D. -/
inductive Slot where
  | a | b | d
deriving DecidableEq, Repr

/-- The six ports (R172): P0 to P3 are `station 0` to `station 3`; PC and PS. -/
inductive Port where
  | station (n : Station)
  | pc
  | ps
deriving DecidableEq, Repr

/-- The levels of the strap pins NST0 and NST1; true is high (R71). -/
structure Strap where
  nst0 : Bool
  nst1 : Bool
deriving DecidableEq, Repr

/-- The two signals of a position on the highway (R145). -/
inductive Signal where
  | ae | power
deriving DecidableEq, Repr

/-- The kind of a tool type (R2). -/
inductive ToolKind where
  | wheel | dresser
deriving DecidableEq, Repr

/-- The sister policy of a type (R3, R100). -/
inductive Policy where
  | leastFirst | mostFirst
deriving DecidableEq, Repr

/-- The state of a live tool entry (R19, Table 2-2). -/
inductive ToolState where
  | stored | reserved | staged | mounted | offloaded | moving | quarantined
deriving DecidableEq, Repr

/-- The condition of a tool entry (R21). -/
inductive Condition where
  | sound | worn | broken | doubtful
deriving DecidableEq, Repr

/-- The place of a live tool entry (Table 2-2). -/
inductive Place where
  | pocket (k : PocketIx)
  | rack (x : PosIx)
  | spindle (x : PosIx)
  | gripper
  | unknown
deriving DecidableEq, Repr

/-- The state of a pocket of the store (R26). -/
inductive Pocket where
  | free
  | holds (i : EntryIx)
  | booked (order : Nat)
  | unknown
deriving DecidableEq, Repr

/-- What the mounted field or the rack field of a position names (R72, R73): `bare` is "none" of a spindle
and EMPTY of a rack. -/
inductive Holding where
  | bare
  | entry (i : EntryIx)
  | booked (order : Nat)
  | unknown
deriving DecidableEq, Repr

/-- The service states (Table 4-2). -/
inductive Service where
  | uncertain | vacant | serving | due | held | released | exchanging
deriving DecidableEq, Repr

/-- Why a position is DUE (R74). -/
inductive DueCause where
  | worn | doubt | broken
deriving DecidableEq, Repr

/-- Why a position is HELD (R74). -/
inductive HoldCause where
  | trip | retry
deriving DecidableEq, Repr

/-- The state a HELD position resumes (R74). -/
inductive Resume where
  | serving | due
deriving DecidableEq, Repr

/-- The progress of a need for a sister (R92); `noNeed` is the manual's NONE. -/
inductive Need where
  | noNeed | waiting | reserved | staging | staged
deriving DecidableEq, Repr

/-- The monitor mode of a position (R167). -/
inductive Mode where
  | off | report | hold | retry
deriving DecidableEq, Repr

/-- The kinds of a swap order (R115); `return_` is the manual's RETURN. -/
inductive OrderKind where
  | stage | exchange | direct | remove | return_
deriving DecidableEq, Repr

/-- The states of a swap order (Table 6-1). -/
inductive OrderState where
  | backlog | ready | taken | inDoubt
deriving DecidableEq, Repr

/-- The lock state of the highway receiver (R140). -/
inductive Lock where
  | hunt | locked
deriving DecidableEq, Repr

/-- The states of a monitor channel (Table 8-1). -/
inductive ChannelState where
  | idle | blanking | watching | spent
deriving DecidableEq, Repr

/-- The kind of a start (R41). -/
inductive StartKind where
  | cold | warm
deriving DecidableEq, Repr

/-- The reply statuses (Table 9-3). -/
inductive Status where
  | accepted | frame | unknown | role | range | state | full | duplicate | inUse | late | noOrder | busy
deriving DecidableEq, Repr

/-- The outcome field of a life result (R177). -/
inductive GaugeOutcome where
  | noGauge | blended | doubted
deriving DecidableEq, Repr

/-- The reasons a FAIL may give (R125). -/
inductive FailReason where
  | grip | blocked | empty
deriving DecidableEq, Repr

/-- The notices of Table 9-5; those of the first line belong to station ports, the next to PC, the rest to PS. -/
inductive Notice where
  | trip (sl : Slot) | held (sl : Slot) | due (sl : Slot) | staged (sl : Slot) | exchanged (sl : Slot) | blind
  | orderReady | expired
  | anyTrip | waiting | suspended | quarantine | uncertain | storeFull | learned | highway | restarted | retentionLost
deriving DecidableEq, Repr

/-! ## Records -/

/-- The fields of a DEFINED type record (Table 1-1). Diameters in µm, layers in LU, lives in parts. -/
structure TypeRec where
  kind : ToolKind
  dnew : Nat
  dscrap : Nat
  lnew : Nat
  dd : Nat
  wp : Nat
  ppd : Nat
  rchg : Nat
  stage : Nat
  pmin : Nat
  policy : Policy
  k : Nat
  z : Nat
  g : Nat
  aeLimit : Nat
  powerLimit : Nat
  blank : Nat
  deglitch : Nat
  factor : Nat
  learnCount : Nat
deriving DecidableEq, Repr

/-- The fields of a live tool entry (Table 2-1). -/
structure Tool where
  serial : Nat
  type : TypeIx
  state : ToolState
  condition : Condition
  place : Place
  promised : Option PosIx
  r : Nat
  rem : Nat
  nnom : Nat
  fullHistory : Bool
  parts : Nat
  dresses : Nat
  gauged : Option Nat
  doubts : Nat
  trips : Nat
  peakAE : Nat
  peakPower : Nat
deriving DecidableEq, Repr

/-- The fields of a position record (Table 4-1). `required` is absent for required type 0. -/
structure Position where
  service : Service
  required : Option TypeIx
  mounted : Holding
  rack : Holding
  dueCause : Option DueCause
  holdCause : Option HoldCause
  resume : Option Resume
  need : Need
  sister : Option EntryIx
  urgent : Bool
  returnWaiting : Bool
  failed : Nat
  suspended : Bool
  mode : Mode
  retryTime : Nat
  retryLimit : Nat
  retryCount : Nat
  window : Bool
deriving DecidableEq, Repr

/-- A swap order (Table 6-1). `pocket` is the one pocket the order concerns: the sister's pocket of a STAGE or
DIRECT, the destination of a RETURN to the store, absent otherwise. The from-place and to-place of each tool
follow from the kind, the position and that pocket as Table 6-2 gives (`Order.incomingFrom` and so on), and the
deadline of the one TAKEN or IN_DOUBT order, which is not retained, is `Volatile.swapDeadline`. -/
structure Order where
  number : Nat
  kind : OrderKind
  urgent : Bool
  pos : PosIx
  incoming : Option EntryIx
  outgoing : Option EntryIx
  pocket : Option PocketIx
  state : OrderState
deriving DecidableEq, Repr

/-- The target of a route: one signal of one position (R145). -/
structure Target where
  pos : PosIx
  signal : Signal
deriving DecidableEq, Repr

/-- A monitor channel record (R150). -/
structure Channel where
  state : ChannelState
  blankCount : Nat
  aeCount : Nat
  powerCount : Nat
  retryTimer : Option Time
deriving DecidableEq, Repr

/-- A reply as the mailbox of a port holds it (R176). -/
structure Reply where
  code : Nat
  status : Status
  result : List Byte
deriving DecidableEq, Repr

/-- What the highway receiver has of the frame in progress (R139): no frame, low bits being ignored until the next
strobe; the data bits of a frame, first bit first; or no frame, a well-formed one having been taken at the last bit. -/
inductive HwLine where
  | quiet
  | receiving (bits : List Bool)
  | complete
deriving DecidableEq, Repr

/-- One bit of the highway: the levels of HWSTB and HWDAT at a rising edge of HWCLK (R139). -/
structure LineBit where
  strobe : Bool
  data : Bool
deriving DecidableEq, Repr

/-- The reply mailbox of a port (R172): empty, a new reply, or a reply fetched before. -/
inductive Mailbox where
  | empty
  | fresh (r : Reply)
  | fetched (r : Reply)
deriving DecidableEq, Repr

/-- The transaction in progress at a port (R172, R173, R188): none, or none of whose bytes is complete; a REQUEST with
the bytes received after its kind byte; a fetch with the bytes of its copy that are still to be sent; or a transaction
that is ignored until its chip select is released, because its kind byte names no kind, because it began while the port
took none, or because RESET or a start has cut it. -/
inductive Reception where
  | idle
  | receiving (bytes : List Byte)
  | sending (rest : List Byte)
  | discarded
deriving DecidableEq, Repr

/-- The state of one port (R172). `notices` is the notice set, held as the two bytes of Table 9-4; `attn` is the
ATTN line, true when asserted (R180); `sent` holds the bytes of its copy that the part has sent in the port's last fetch
(Table 9-1): every other byte that the part sends is 0 (R173). -/
structure PortState where
  mailbox : Mailbox
  notices : BitVec 16
  reception : Reception
  attn : Bool
  sent : List Byte
deriving DecidableEq, Repr

/-! ## The two halves of the state (Table 2-5) -/

/-- Retained state: what VBAT keeps (Table 2-5, column "Retained"). -/
structure Retained where
  types : Vector (Option TypeRec) 16
  tools : Vector (Option Tool) 64
  pockets : Vector Pocket 48
  positions : Vector Position 12
  waiting : List PosIx
  queue : List Order
  backlog : List Order
  counter : Nat
  timeout : Nat
  expired : List Nat
  routes : Vector (Option Target) 16
deriving DecidableEq, Repr

/-- State that is not retained (Table 2-5, column "Not retained", and the millisecond count, R189). -/
structure Volatile where
  ms : Time
  swapDeadline : Option Time
  lock : Lock
  lockCount : Nat
  lossDeadline : Option Time
  errors : Nat
  lastSamples : Vector (Option Bool) 16
  line : HwLine
  channels : Vector Channel 12
  ports : Vector PortState 6
deriving DecidableEq, Repr

/-! ## Cold and start values -/

/-- The cold value of a position record (R96). -/
def Position.cold : Position where
  service := .uncertain
  required := none
  mounted := .bare
  rack := .bare
  dueCause := none
  holdCause := none
  resume := none
  need := .noNeed
  sister := none
  urgent := false
  returnWaiting := false
  failed := 0
  suspended := false
  mode := .hold
  retryTime := 1
  retryLimit := 3
  retryCount := 0
  window := false

/-- The value of a channel record after any start (R171). -/
def Channel.start : Channel where
  state := .idle
  blankCount := 0
  aeCount := 0
  powerCount := 0
  retryTimer := none

/-- A port with an empty mailbox and notice set (R187). -/
def PortState.start : PortState where
  mailbox := .empty
  notices := 0
  reception := .idle
  attn := false
  sent := []

/-- Retained state after a cold start (R16, R42, R96, R113, R138, R149). -/
def Retained.cold : Retained where
  types := Vector.replicate 16 none
  tools := Vector.replicate 64 none
  pockets := Vector.replicate 48 .free
  positions := Vector.replicate 12 Position.cold
  waiting := []
  queue := []
  backlog := []
  counter := 1
  timeout := 600
  expired := []
  routes := Vector.replicate 16 none

/-- State that is not retained as every start leaves it, before the start notices (R149, R171, R187, R189). -/
def Volatile.start : Volatile where
  ms := 0
  swapDeadline := none
  lock := .hunt
  lockCount := 0
  lossDeadline := none
  errors := 0
  lastSamples := Vector.replicate 16 none
  line := .quiet
  channels := Vector.replicate 12 Channel.start
  ports := Vector.replicate 6 PortState.start

end Sys2Proof.Machine
end

