-- ==== Sys2Proof/Machine/Bytes.lean ====
section
/-! DEFINITION. Byte order, the CRC-8 of the port frames (R173), and the encodings of Table 9-4 and Table 9-3 that
leave the part. -/
namespace Sys2Proof.Machine

/-! ## Byte order and CRC -/

/-- The low byte of a number. -/
def byte (v : Nat) : Byte := BitVec.ofNat 8 v

/-- A number as n bytes, most significant first (R173). -/
def be : Nat → Nat → List Byte
  | 0, _ => []
  | n + 1, v => byte (v / 256 ^ n) :: be n v

/-- The number that bytes spell, most significant first (R173). -/
def ofBytes (bs : List Byte) : Nat := bs.foldl (fun v b => v * 256 + b.toNat) 0

/-- One bit of the CRC register's shift for the polynomial x⁸ + x² + x + 1 (R173). -/
def crcShift (c : Byte) : Byte := if c.getLsbD 7 then (c <<< 1) ^^^ 0x07#8 else c <<< 1

/-- The CRC register after one more byte, most significant bit first (R173). -/
def crcByte (c b : Byte) : Byte :=
  crcShift (crcShift (crcShift (crcShift (crcShift (crcShift (crcShift (crcShift (c ^^^ b))))))))

/-- The CRC-8 of a list of bytes: register at 0, no final inversion (R173). -/
def crc8 (bs : List Byte) : Byte := bs.foldl crcByte 0

/-! ## Positions, slots and ports -/

/-- The slot's number (Table 9-4). -/
def Slot.num : Slot → Nat
  | .a => 0
  | .b => 1
  | .d => 2

/-- The position of a slot at a station: index 3 × station + slot (Table 9-4). -/
def posAt (n : Station) (sl : Slot) : PosIx :=
  ⟨3 * n.val + sl.num, by have := n.isLt; cases sl <;> simp [Slot.num] <;> omega⟩

/-- The station of a position. -/
def stationOf (x : PosIx) : Station := ⟨x.val / 3, by have := x.isLt; omega⟩

/-- The slot of a position. -/
def slotOf (x : PosIx) : Slot := if x.val % 3 = 0 then .a else if x.val % 3 = 1 then .b else .d

/-- The kind of tool a slot takes: a WHEEL at A or B, a DRESSER at D (R2). -/
def Slot.kind : Slot → ToolKind
  | .d => .dresser
  | _ => .wheel

/-- The positions in order, S0A, S0B, S0D, S1A and so on to S3D. -/
def allPositions : List PosIx := List.finRange 12

/-- The tool entries in order. -/
def allEntries : List EntryIx := List.finRange 64

/-- The pockets in order of number. -/
def allPockets : List PocketIx := List.finRange 48

/-- The highway slots in order. -/
def allHwSlots : List HwSlot := List.finRange 16

/-- The place of a port in the port records. -/
def Port.ix : Port → Fin 6
  | .station n => ⟨n.val, by omega⟩
  | .pc => 4
  | .ps => 5

/-- The station count a strap gives (R71). -/
def Strap.count (s : Strap) : Nat := 1 + (if s.nst0 then 1 else 0) + (if s.nst1 then 2 else 0)

/-! ## Encodings (Tables 9-3 and 9-4) -/

/-- 1 for set, open or available, 0 otherwise. -/
def flagNum (b : Bool) : Nat := if b then 1 else 0

/-- The status codes of Table 9-3. -/
def Status.num : Status → Nat
  | .accepted => 0
  | .frame => 1
  | .unknown => 2
  | .role => 3
  | .range => 4
  | .state => 5
  | .full => 6
  | .duplicate => 7
  | .inUse => 8
  | .late => 9
  | .noOrder => 10
  | .busy => 11

def ToolState.num : ToolState → Nat
  | .stored => 1
  | .reserved => 2
  | .staged => 3
  | .mounted => 4
  | .offloaded => 5
  | .moving => 6
  | .quarantined => 7

def Condition.num : Condition → Nat
  | .sound => 1
  | .worn => 2
  | .broken => 3
  | .doubtful => 4

def Service.num : Service → Nat
  | .uncertain => 1
  | .vacant => 2
  | .serving => 3
  | .due => 4
  | .held => 5
  | .released => 6
  | .exchanging => 7

/-- The due cause; 0 when absent. -/
def dueNum : Option DueCause → Nat
  | none => 0
  | some .worn => 1
  | some .doubt => 2
  | some .broken => 3

/-- The hold cause; 0 when absent. -/
def holdNum : Option HoldCause → Nat
  | none => 0
  | some .trip => 1
  | some .retry => 2

/-- The resume state; 0 when absent. -/
def resumeNum : Option Resume → Nat
  | none => 0
  | some .serving => 3
  | some .due => 4

def Need.num : Need → Nat
  | .noNeed => 0
  | .waiting => 1
  | .reserved => 2
  | .staging => 3
  | .staged => 4

def Mode.num : Mode → Nat
  | .off => 0
  | .report => 1
  | .hold => 2
  | .retry => 3

def ChannelState.num : ChannelState → Nat
  | .idle => 0
  | .blanking => 1
  | .watching => 2
  | .spent => 3

def OrderKind.num : OrderKind → Nat
  | .stage => 1
  | .exchange => 2
  | .direct => 3
  | .remove => 4
  | .return_ => 5

def OrderState.num : OrderState → Nat
  | .backlog => 1
  | .ready => 2
  | .taken => 3
  | .inDoubt => 4

def Lock.num : Lock → Nat
  | .hunt => 0
  | .locked => 1

def StartKind.num : StartKind → Nat
  | .cold => 0
  | .warm => 1

def ToolKind.num : ToolKind → Nat
  | .wheel => 0
  | .dresser => 1

def Policy.num : Policy → Nat
  | .leastFirst => 0
  | .mostFirst => 1

def Signal.num : Signal → Nat
  | .ae => 0
  | .power => 1

/-- A position index as a byte value, 255 when absent. -/
def posNum (x : Option PosIx) : Nat := x.elim 255 (·.val)

/-- An entry index as a byte value, 255 when absent. -/
def entryNum (i : Option EntryIx) : Nat := i.elim 255 (·.val)

/-- A type code as a byte value, 0 for no type. -/
def typeNum (t : Option TypeIx) : Nat := t.elim 0 (·.val + 1)

/-- A place as its kind byte and number byte. -/
def placeBytes : Place → List Byte
  | .pocket k => [1, byte (k.val + 1)]
  | .rack x => [2, byte x.val]
  | .spindle x => [3, byte x.val]
  | .gripper => [4, 0]
  | .unknown => [5, 0]

/-- A mounted or rack field as its kind byte and its two-byte entry index or order number. -/
def holdingBytes : Holding → List Byte
  | .bare => [0, 0, 0]
  | .entry i => 1 :: be 2 i.val
  | .booked n => 2 :: be 2 n
  | .unknown => [3, 0, 0]

/-- The state byte of a pocket and the number of the order that books it, 0 when none (R177). -/
def pocketBytes : Pocket → List Byte
  | .free => 0 :: be 2 0
  | .holds _ => 1 :: be 2 0
  | .booked n => 2 :: be 2 n
  | .unknown => 3 :: be 2 0

/-! ## Notices (Table 9-4) -/

/-- The bit of a notice in its port's two notice bytes, 15 the most significant bit of byte 1. -/
def Notice.bit : Notice → Nat
  | .trip sl => 15 - sl.num
  | .held sl => 12 - sl.num
  | .due sl => 9 - sl.num
  | .staged sl => 6 - sl.num
  | .exchanged sl => 3 - sl.num
  | .blind => 0
  | .orderReady => 15
  | .expired => 14
  | .anyTrip => 15
  | .waiting => 14
  | .suspended => 13
  | .quarantine => 12
  | .uncertain => 11
  | .storeFull => 10
  | .learned => 9
  | .highway => 8
  | .restarted => 7
  | .retentionLost => 6

/-- The flag of a notice in its port's notice set. -/
def Notice.mask (n : Notice) : BitVec 16 := 1#16 <<< n.bit

/-- The two bytes of a notice set as FETCH NOTICES sends them. -/
def noticeBytes (w : BitVec 16) : List Byte := be 2 w.toNat

/-! ## Sample words (R139) -/

/-- The validity flag of a sample word: its first, most significant bit. -/
def sampleValid (w : SampleWord) : Bool := w.getLsbD 15

/-- The value of a sample word: its other fifteen bits. -/
def sampleValue (w : SampleWord) : Nat := w.toNat % 32768

/-- The bits of a highway frame (R139). -/
def frameLength : Nat := 256

/-- A sample word from its bits, most significant first. -/
def wordOf (bits : List Bool) : SampleWord := BitVec.ofNat 16 (bits.foldl (fun n b => 2 * n + b.toNat) 0)

/-- The sixteen words of the bits of a frame, slot 0 first. -/
def wordsOf (bits : List Bool) : Vector SampleWord 16 := Vector.ofFn fun i => wordOf ((bits.drop (16 * i.val)).take 16)

/-- The bits of a frame that carries sixteen words. -/
def bitsOf (words : Vector SampleWord 16) : List Bool :=
  allHwSlots.flatMap fun h => (List.range 16).map fun j => words[h].getMsbD j

end Sys2Proof.Machine
end

