-- ==== Sys2Proof/Syntax.lean ====
section
/-! DEFINITION. The commands of the part: one constructor for each row of spec/opcode_table.json. A request carries
the port it comes in by and its operands as Table 9-2 lists them, each the number its bytes spell; the pad byte of a
request without operands carries nothing (R175). The other commands are the fetches, the highway events, the
expiries, the tick of the time base and the supply and RESET events. -/
namespace Sys2Proof

open Sys2Proof.Machine

/-- The operands of TYPE SET after the type code (Table 9-2), with the shared byte pairs already taken apart:
`ddiff` is Dnew − Dscrap, `flags` the type flags of Table 9-4. -/
structure TypeSetOperands where
  dnew : Nat
  ddiff : Nat
  dd : Nat
  wp : Nat
  ppd : Nat
  rchg : Nat
  stage : Nat
  pmin : Nat
  k : Nat
  z : Nat
  g : Nat
  flags : Nat
  aeLimit : Nat
  powerLimit : Nat
  blank : Nat
  deglitch : Nat
  factor : Nat
deriving DecidableEq, Repr

/-- What the master does in a transaction at a port, or in a part of one: the bytes that it sends, from the kind byte on
when the transaction begins here, and whether it releases the chip select after them (R173). The bytes are the complete ones:
a byte that the release of chip select leaves incomplete is dropped and does not count (DESIGN CHOICE, log 43). -/
structure Transfer where
  bytes : List Byte
  released : Bool
deriving DecidableEq, Repr

/-- The bits that bring a malformed highway frame (R139). -/
inductive Malformed where
  /-- a strobe before the 256th bit; `next` is the data bit it brings, the first of the next frame -/
  | short (next : Bool)
  /-- a bit with the strobe low after a well-formed frame -/
  | overrun
  /-- bits as the lines bring them, whatever they make (log 16) -/
  | sampled (bits : List LineBit)
deriving DecidableEq, Repr

/-- The commands: one constructor per row of the table of operations. -/
inductive Instr where
  -- station requests
  | check (p : Port)
  | openWindow (p : Port) (slot : Nat)
  | closeWindow (p : Port) (slot : Nat)
  | parts (p : Port) (slot n : Nat)
  | dress (p : Port) (slot n : Nat)
  | gauge (p : Port) (slot diameter : Nat)
  | release (p : Port) (slot : Nat)
  | reclaim (p : Port) (slot : Nat)
  | verdictOk (p : Port) (slot : Nat)
  | verdictBroken (p : Port) (slot : Nat)
  -- changer requests
  | takeOrder (p : Port)
  | doneOrder (p : Port) (number : Nat)
  | failOrder (p : Port) (number reason entry : Nat)
  -- supervisor requests
  | typeSet (p : Port) (code : Nat) (f : TypeSetOperands)
  | typeErase (p : Port) (code : Nat)
  | enrol (p : Port) (serial code placeKind placeNumber lifeMode r : Nat)
  | withdraw (p : Port) (entry : Nat)
  | reinstate (p : Port) (entry code placeKind placeNumber lifeMode r : Nat)
  | declarePocket (p : Port) (number : Nat)
  | declarePosition (p : Port) (position : Nat)
  | assign (p : Port) (position code : Nat)
  | monitorSet (p : Port) (position mode retryTime retryLimit : Nat)
  | clearRetries (p : Port) (position : Nat)
  | routeSet (p : Port) (slot position signal : Nat)
  | timeoutSet (p : Port) (seconds : Nat)
  | resume (p : Port) (position : Nat)
  | restart (p : Port)
  -- queries
  | queryType (p : Port) (code : Nat)
  | queryTool (p : Port) (entry : Nat)
  | queryPosition (p : Port) (operand : Nat)
  | queryOrder (p : Port) (number : Nat)
  | queryWaiting (p : Port)
  | queryCell (p : Port)
  -- transactions
  | undecodedRequest (p : Port) (sent : Transfer)
  | fetchReply (p : Port)
  | fetchNotices (p : Port)
  -- highway
  | wellFormedFrame (words : Vector SampleWord 16)
  | malformedFrame (how : Malformed)
  | lossDeadlineReached
  -- deadlines and time base
  | swapDeadlineExpiry
  | retryTimerExpiry (x : PosIx)
  | millisecondTick
  -- starts and supply
  | resetAssert
  | resetRelease (pins : Strap)
  | powerOnStart (pins : Strap)
  | mainSupplyFail
  | vbatLowLatch
deriving DecidableEq, Repr

/-- The port a request or a fetch comes in by; none for the other commands. -/
def Instr.port : Instr → Option Port
  | .check p | .openWindow p _ | .closeWindow p _ | .parts p _ _ | .dress p _ _ | .gauge p _ _ | .release p _
  | .reclaim p _ | .verdictOk p _ | .verdictBroken p _ | .takeOrder p | .doneOrder p _ | .failOrder p _ _ _
  | .typeSet p _ _ | .typeErase p _ | .enrol p _ _ _ _ _ _ | .withdraw p _ | .reinstate p _ _ _ _ _ _
  | .declarePocket p _ | .declarePosition p _ | .assign p _ _ | .monitorSet p _ _ _ _ | .clearRetries p _
  | .routeSet p _ _ _ | .timeoutSet p _ | .resume p _ | .restart p | .queryType p _ | .queryTool p _
  | .queryPosition p _ | .queryOrder p _ | .queryWaiting p | .queryCell p | .undecodedRequest p _ | .fetchReply p
  | .fetchNotices p => some p
  | .wellFormedFrame _ | .malformedFrame _ | .lossDeadlineReached | .swapDeadlineExpiry | .retryTimerExpiry _
  | .millisecondTick | .resetAssert | .resetRelease _ | .powerOnStart _ | .mainSupplyFail | .vbatLowLatch => none

end Sys2Proof
end

