-- ==== Sys2Proof/WellFormed.lean ====
section
/-! DEFINITION. Which commands can come in: every operand of a request fits the bytes Table 9-2 gives it. Whether a
value that fits is in its RANGE is the command's own check (R175), not this one. -/
namespace Sys2Proof

open Sys2Proof.Machine

/-- A value that fits n bytes. -/
def fitsBytes (n v : Nat) : Bool := v < 256 ^ n

/-- The TYPE SET operands fit their bytes (Table 9-2): Dd and Wp share two bytes (Dd × 128 + Wp), G and the type
flags share two (G + 8,192 × flags). -/
def TypeSetOperands.wf (f : TypeSetOperands) : Bool :=
  fitsBytes 3 f.dnew && fitsBytes 2 f.ddiff && decide (f.dd < 512) && decide (f.wp < 128) && fitsBytes 1 f.ppd &&
  fitsBytes 2 f.rchg && fitsBytes 2 f.stage && fitsBytes 2 f.pmin && fitsBytes 1 f.k && fitsBytes 2 f.z &&
  decide (f.g < 8192) && decide (f.flags < 8) && fitsBytes 2 f.aeLimit && fitsBytes 2 f.powerLimit &&
  fitsBytes 2 f.blank && fitsBytes 1 f.deglitch && fitsBytes 2 f.factor

/-- A command whose operands fit their bytes (Table 9-2). -/
def Instr.wf : Instr → Bool
  | .check _ | .takeOrder _ | .restart _ | .queryWaiting _ | .queryCell _ | .fetchReply _ | .fetchNotices _ => true
  | .openWindow _ s | .closeWindow _ s | .release _ s | .reclaim _ s | .verdictOk _ s | .verdictBroken _ s =>
    fitsBytes 1 s
  | .parts _ s n | .dress _ s n => fitsBytes 1 s && fitsBytes 1 n
  | .gauge _ s d => fitsBytes 1 s && fitsBytes 3 d
  | .doneOrder _ n => fitsBytes 2 n
  | .failOrder _ n r e => fitsBytes 2 n && fitsBytes 1 r && fitsBytes 1 e
  | .typeSet _ c f => fitsBytes 1 c && f.wf
  | .typeErase _ c | .queryType _ c => fitsBytes 1 c
  | .enrol _ s c k n m r => fitsBytes 4 s && fitsBytes 1 c && fitsBytes 1 k && fitsBytes 1 n && fitsBytes 1 m && fitsBytes 3 r
  | .withdraw _ e | .queryTool _ e => fitsBytes 1 e
  | .reinstate _ e c k n m r => fitsBytes 1 e && fitsBytes 1 c && fitsBytes 1 k && fitsBytes 1 n && fitsBytes 1 m && fitsBytes 3 r
  | .declarePocket _ n => fitsBytes 1 n
  | .declarePosition _ x | .clearRetries _ x | .resume _ x | .queryPosition _ x => fitsBytes 1 x
  | .assign _ x c => fitsBytes 1 x && fitsBytes 1 c
  | .monitorSet _ x m t l => fitsBytes 1 x && fitsBytes 1 m && fitsBytes 1 t && fitsBytes 1 l
  | .routeSet _ s x g => fitsBytes 1 s && fitsBytes 1 x && fitsBytes 1 g
  | .timeoutSet _ t => fitsBytes 2 t
  | .queryOrder _ n => fitsBytes 2 n
  | .undecodedRequest _ _ => true
  | .wellFormedFrame _ | .malformedFrame _ | .lossDeadlineReached | .swapDeadlineExpiry | .retryTimerExpiry _
  | .millisecondTick | .resetAssert | .resetRelease _ | .powerOnStart _ | .mainSupplyFail | .vbatLowLatch => true

end Sys2Proof
end

