-- ==== Sys2Proof/Decode.lean ====
section
/-! DEFINITION. From bytes to requests and back: the frame checks of R174, the decoding of R175, the encoder written from
the same Table 9-2, and the host's table words. -/
namespace Sys2Proof

open Sys2Proof.Machine

/-- The rows of the table of operations give no bits: no word spells a command. -/
def decodeTableWord (_nbits _w : Nat) : Option Instr := none

/-! ## The frame checks and the decoding (R174, R175) -/

/-- What the port makes of the bytes that follow the kind byte of a REQUEST transaction. -/
inductive Decoded where
  /-- a frame refused FRAME by R174 -/
  | frame
  /-- a request code that Table 9-2 does not list -/
  | unknown (code : Nat)
  /-- a length that does not fit the request code -/
  | misfit (code : Nat)
  /-- a VERDICT whose verdict, or a DECLARE whose target kind, names no encoding -/
  | noEncoding (code : Nat)
  /-- a request -/
  | request (i : Instr)
deriving DecidableEq, Repr

/-- The length L of a request record by its code (Table 9-2); none for a code that is not listed. -/
def recordLength (code : Nat) : Option Nat :=
  match code with
  | 1 | 2 | 3 | 7 | 8 | 16 | 33 | 35 | 40 | 43 | 44 | 48 | 49 | 50 | 52 | 53 => some 2
  | 4 | 5 | 9 | 17 | 37 | 38 | 42 | 51 => some 3
  | 41 => some 4
  | 6 | 18 | 39 => some 5
  | 36 => some 9
  | 34 => some 12
  | 32 => some 30
  | _ => none

/-- The number that `n` bytes of a record spell from byte `k` on, the code being byte 0. -/
def field (record : List Byte) (k n : Nat) : Nat := ofBytes ((record.drop k).take n)

/-- The operands of TYPE SET, the shared bytes taken apart (Table 9-2). -/
def typeSetOperandsOf (r : List Byte) : TypeSetOperands where
  dnew := field r 2 3
  ddiff := field r 5 2
  dd := field r 7 2 / 128
  wp := field r 7 2 % 128
  ppd := field r 9 1
  rchg := field r 10 2
  stage := field r 12 2
  pmin := field r 14 2
  k := field r 16 1
  z := field r 17 2
  g := field r 19 2 % 8192
  flags := field r 19 2 / 8192
  aeLimit := field r 21 2
  powerLimit := field r 23 2
  blank := field r 25 2
  deglitch := field r 27 1
  factor := field r 28 2

/-- The request a record of the right length spells (Table 9-2); none where it names no verdict or no DECLARE target. -/
def requestOf (p : Port) (code : Nat) (r : List Byte) : Option Instr :=
  match code with
  | 1 => some (.check p)
  | 2 => some (.openWindow p (field r 1 1))
  | 3 => some (.closeWindow p (field r 1 1))
  | 4 => some (.parts p (field r 1 1) (field r 2 1))
  | 5 => some (.dress p (field r 1 1) (field r 2 1))
  | 6 => some (.gauge p (field r 1 1) (field r 2 3))
  | 7 => some (.release p (field r 1 1))
  | 8 => some (.reclaim p (field r 1 1))
  | 9 =>
    match field r 2 1 with
    | 0 => some (.verdictOk p (field r 1 1))
    | 1 => some (.verdictBroken p (field r 1 1))
    | _ => none
  | 16 => some (.takeOrder p)
  | 17 => some (.doneOrder p (field r 1 2))
  | 18 => some (.failOrder p (field r 1 2) (field r 3 1) (field r 4 1))
  | 32 => some (.typeSet p (field r 1 1) (typeSetOperandsOf r))
  | 33 => some (.typeErase p (field r 1 1))
  | 34 => some (.enrol p (field r 1 4) (field r 5 1) (field r 6 1) (field r 7 1) (field r 8 1) (field r 9 3))
  | 35 => some (.withdraw p (field r 1 1))
  | 36 => some (.reinstate p (field r 1 1) (field r 2 1) (field r 3 1) (field r 4 1) (field r 5 1) (field r 6 3))
  | 37 =>
    match field r 1 1 with
    | 1 => some (.declarePocket p (field r 2 1))
    | 2 => some (.declarePosition p (field r 2 1))
    | _ => none
  | 38 => some (.assign p (field r 1 1) (field r 2 1))
  | 39 => some (.monitorSet p (field r 1 1) (field r 2 1) (field r 3 1) (field r 4 1))
  | 40 => some (.clearRetries p (field r 1 1))
  | 41 => some (.routeSet p (field r 1 1) (field r 2 1) (field r 3 1))
  | 42 => some (.timeoutSet p (field r 1 2))
  | 43 => some (.resume p (field r 1 1))
  | 44 => some (.restart p)
  | 48 => some (.queryType p (field r 1 1))
  | 49 => some (.queryTool p (field r 1 1))
  | 50 => some (.queryPosition p (field r 1 1))
  | 51 => some (.queryOrder p (field r 1 2))
  | 52 => some (.queryWaiting p)
  | 53 => some (.queryCell p)
  | _ => none

/-- The decoding of a record that passed the frame checks (R175, checks 1 and 2). -/
def decodeRecord (p : Port) (r : List Byte) : Decoded :=
  let code := field r 0 1
  match recordLength code with
  | none => .unknown code
  | some l =>
    if r.length ≠ l then .misfit code
    else
      match requestOf p code r with
      | some i => .request i
      | none => .noEncoding code

/-- The frame checks of R174 on the bytes after the kind byte, then the decoding. -/
def decodeFrame (p : Port) (bytes : List Byte) : Decoded :=
  match bytes with
  | [] => .frame
  | l :: rest =>
    if l.toNat < 2 ∨ 30 < l.toNat ∨ rest.length ≠ l.toNat + 1 then .frame
    else if rest.getLast? ≠ some (crc8 (l :: rest.dropLast)) then .frame
    else decodeRecord p rest.dropLast

/-! ## The encoder (Tables 9-1 and 9-2) -/

/-- The record of TYPE SET (Table 9-2). -/
def typeSetRecord (c : Nat) (f : TypeSetOperands) : List Byte :=
  [byte 32, byte c] ++ be 3 f.dnew ++ be 2 f.ddiff ++ be 2 (f.dd * 128 + f.wp) ++ [byte f.ppd] ++ be 2 f.rchg ++
  be 2 f.stage ++ be 2 f.pmin ++ [byte f.k] ++ be 2 f.z ++ be 2 (f.g + 8192 * f.flags) ++ be 2 f.aeLimit ++
  be 2 f.powerLimit ++ be 2 f.blank ++ [byte f.deglitch] ++ be 2 f.factor

/-- The request record of a command, a pad byte as 0; none for a command that is no request. -/
def recordOf : Instr → Option (List Byte)
  | .check _ => some [byte 1, 0]
  | .openWindow _ s => some [byte 2, byte s]
  | .closeWindow _ s => some [byte 3, byte s]
  | .parts _ s n => some [byte 4, byte s, byte n]
  | .dress _ s n => some [byte 5, byte s, byte n]
  | .gauge _ s d => some (byte 6 :: byte s :: be 3 d)
  | .release _ s => some [byte 7, byte s]
  | .reclaim _ s => some [byte 8, byte s]
  | .verdictOk _ s => some [byte 9, byte s, 0]
  | .verdictBroken _ s => some [byte 9, byte s, 1]
  | .takeOrder _ => some [byte 16, 0]
  | .doneOrder _ n => some (byte 17 :: be 2 n)
  | .failOrder _ n r e => some (byte 18 :: be 2 n ++ [byte r, byte e])
  | .typeSet _ c f => some (typeSetRecord c f)
  | .typeErase _ c => some [byte 33, byte c]
  | .enrol _ s c k n m r => some (byte 34 :: be 4 s ++ [byte c, byte k, byte n, byte m] ++ be 3 r)
  | .withdraw _ e => some [byte 35, byte e]
  | .reinstate _ e c k n m r => some ([byte 36, byte e, byte c, byte k, byte n, byte m] ++ be 3 r)
  | .declarePocket _ n => some [byte 37, 1, byte n]
  | .declarePosition _ x => some [byte 37, 2, byte x]
  | .assign _ x c => some [byte 38, byte x, byte c]
  | .monitorSet _ x m t l => some [byte 39, byte x, byte m, byte t, byte l]
  | .clearRetries _ x => some [byte 40, byte x]
  | .routeSet _ s x g => some [byte 41, byte s, byte x, byte g]
  | .timeoutSet _ t => some (byte 42 :: be 2 t)
  | .resume _ x => some [byte 43, byte x]
  | .restart _ => some [byte 44, 0]
  | .queryType _ c => some [byte 48, byte c]
  | .queryTool _ e => some [byte 49, byte e]
  | .queryPosition _ v => some [byte 50, byte v]
  | .queryOrder _ n => some (byte 51 :: be 2 n)
  | .queryWaiting _ => some [byte 52, 0]
  | .queryCell _ => some [byte 53, 0]
  | .undecodedRequest _ _ | .fetchReply _ | .fetchNotices _ | .wellFormedFrame _ | .malformedFrame _
  | .lossDeadlineReached | .swapDeadlineExpiry | .retryTimerExpiry _ | .millisecondTick | .resetAssert
  | .resetRelease _ | .powerOnStart _ | .mainSupplyFail | .vbatLowLatch => none

/-- The bytes that follow the kind byte of a REQUEST transaction: length, record, CRC (Table 9-1). -/
def frameOfRecord (r : List Byte) : List Byte := (byte r.length :: r) ++ [crc8 (byte r.length :: r)]

/-- The frame of a request; none for a command that is no request. -/
def frameOf (i : Instr) : Option (List Byte) := (recordOf i).map frameOfRecord

end Sys2Proof
end

