-- ==== Sys2Proof/Machine/Operands.lean ====
section
/-! DEFINITION. The operand forms of the requests: what a byte value of Table 9-4 stands for, none where it names no
encoding and the owning rule refuses it RANGE (R175). -/
namespace Sys2Proof.Machine

/-- A slot: 0 A, 1 B, 2 D. -/
def slotOperand : Nat → Option Slot
  | 0 => some .a
  | 1 => some .b
  | 2 => some .d
  | _ => none

/-- A wheel slot: 0 A, 1 B (R49, R51). -/
def wheelSlotOperand : Nat → Option Slot
  | 0 => some .a
  | 1 => some .b
  | _ => none

/-- A position index 0 to 11 (R71). -/
def positionOperand (v : Nat) : Option PosIx := if h : v < 12 then some ⟨v, h⟩ else none

/-- An entry index 0 to 63 (R17). -/
def entryOperand (v : Nat) : Option EntryIx := if h : v < 64 then some ⟨v, h⟩ else none

/-- A type code 1 to 16 (R1). -/
def typeOperand (v : Nat) : Option TypeIx := if h : 1 ≤ v ∧ v ≤ 16 then some ⟨v - 1, by omega⟩ else none

/-- A pocket number 1 to 48 (R26). -/
def pocketOperand (v : Nat) : Option PocketIx := if h : 1 ≤ v ∧ v ≤ 48 then some ⟨v - 1, by omega⟩ else none

/-- A highway slot 0 to 15 (R146). -/
def hwSlotOperand (v : Nat) : Option HwSlot := if h : v < 16 then some ⟨v, h⟩ else none

/-- A signal: 0 AE, 1 POWER. -/
def signalOperand : Nat → Option Signal
  | 0 => some .ae
  | 1 => some .power
  | _ => none

/-- A monitor mode. -/
def modeOperand : Nat → Option Mode
  | 0 => some .off
  | 1 => some .report
  | 2 => some .hold
  | 3 => some .retry
  | _ => none

/-- A reason of FAIL. -/
def reasonOperand : Nat → Option FailReason
  | 0 => some .grip
  | 1 => some .blocked
  | 2 => some .empty
  | _ => none

/-- A place at which ENROL and REINSTATE put a tool. -/
inductive PutPlace where
  | pocket (k : PocketIx)
  | rack (x : PosIx)
  | spindle (x : PosIx)
deriving DecidableEq, Repr

/-- A place kind and number that ENROL and REINSTATE accept: a pocket, a rack or a spindle (R30, R36). -/
def placeOperand (kind number : Nat) : Option PutPlace :=
  match kind with
  | 1 => (pocketOperand number).map .pocket
  | 2 => (positionOperand number).map .rack
  | 3 => (positionOperand number).map .spindle
  | _ => none

/-- A life mode: 0 NEW or KEEP gives none, 1 gives the R of the request. -/
def lifeOperand (mode r : Nat) : Option (Option Nat) :=
  match mode with
  | 0 => some none
  | 1 => some (some r)
  | _ => none

end Sys2Proof.Machine
end

