-- ==== Sys2Proof/Config.lean ====
section
/-! DEFINITION. What the spec leaves to the implementation and the model leaves free. Each constant is opaque and
has no body, so no proof can rest on its value (assumption log 1, 2, 3 and 37). -/
namespace Sys2Proof.Config

open Sys2Proof.Machine

/-- DESIGN CHOICE (log 1): the bytes in which the part keeps its retained state. R40 makes the check byte the
exclusive-or of them; the spec gives no layout. -/
opaque retainedBytes : Retained → List Byte

/-- DESIGN CHOICE (log 2): the byte that encodes the outcome field of a life result (none, BLENDED or DOUBTED). R177
names the three values; Table 9-4 gives them no encoding. -/
opaque outcomeByte : GaugeOutcome → Byte

/-- DESIGN CHOICE (log 3): the signal byte that ROUTE SET returns for a slot whose route is none. R177 gives the
position byte 255 and no value of the signal byte. -/
opaque unroutedSignalByte : Byte

/-- DESIGN CHOICE (log 37): the state byte of a DEFINED type in the result of TYPE SET and QUERY TYPE. R185 gives 0 for
UNDEFINED; Table 9-4 gives a DEFINED type no encoding. -/
opaque definedStateByte : Byte

end Sys2Proof.Config
end

