-- ==== Sys2Proof/Machine/Retention.lean ====
section
/-! DEFINITION. The check byte over retained state (R40). -/
namespace Sys2Proof.Machine

/-- The exclusive-or of a list of bytes. -/
def xorBytes (bs : List Byte) : Byte := bs.foldl (· ^^^ ·) 0

/-- The check byte that fits retained state `r`: the exclusive-or of every byte of it (R40). -/
def checkByteOf (r : Retained) : Byte := xorBytes (Config.retainedBytes r)

end Sys2Proof.Machine
end

