-- ==== Sys2Proof/Machine/State.lean ====
section
/-! DEFINITION. The whole state of the part, as plain data, and the reasons a step can stop. -/
namespace Sys2Proof.Machine

/-- The reasons a step stops with a fault: there are none. Every command of the part has an effect in every state,
and a request the part does not accept is answered with a refusal status, which is a next state. -/
inductive Fault where
deriving DecidableEq, Repr

/-- The reasons the model gives a command no meaning. -/
inductive Refusal where
  /-- Raised by `exec`'s arm of a command that has no meaning yet (safe: nothing is claimed of it). No arm of this
  model raises it. -/
  | notModelled (mnemonic : String)
deriving DecidableEq, Repr

/-- The state of the part.

* `ret`: what VBAT keeps (Table 2-5); `vol`: what a start sets afresh.
* `marker`: the retention marker holds its pattern; `checkByte`: the check byte; `vbatLatch`: the VBAT latch;
  `lastStart`: the kind of the last start (R40, R41).
* `supplyOn`: the main supply is valid; `started`: the power-on start has been taken since it came up; `resetHeld`:
  the RESET input is held (R41, R44).
* `pins`: the levels of NST0 and NST1; `strap`: the levels as read at the last start (R71).
* `inhibit`: the lines INHIBIT0 to INHIBIT3, true when asserted (R170). The ATTN lines stand with their ports.
* `pending`: the commands that wait, first in, first out (the model's own field). -/
structure State where
  ret : Retained
  vol : Volatile
  marker : Bool
  checkByte : Byte
  vbatLatch : Bool
  lastStart : StartKind
  supplyOn : Bool
  started : Bool
  resetHeld : Bool
  pins : Strap
  strap : Strap
  inhibit : Vector Bool 4
  pending : List Instr
deriving DecidableEq, Repr

/-- PS after a cold start: empty mailbox, RESTARTED and RETENTION_LOST set, ATTN asserted (R180, R187). -/
def PortState.coldSupervisor : PortState := { PortState.start with notices := 0x00C0, attn := true }

/-- The part right after a cold power-on start (R42, R187), with both strap pins high (4 stations, DESIGN CHOICE, log
4), the main supply on, the RESET input released and no command waiting. -/
def State.reset : State where
  ret := Retained.cold
  vol := { Volatile.start with ports := Volatile.start.ports.set 5 PortState.coldSupervisor }
  marker := true
  checkByte := checkByteOf Retained.cold
  vbatLatch := false
  lastStart := .cold
  supplyOn := true
  started := true
  resetHeld := false
  pins := ⟨true, true⟩
  strap := ⟨true, true⟩
  inhibit := Vector.replicate 4 false
  pending := []

end Sys2Proof.Machine
end

