-- ==== Sys2Proof/Machine/Ops.lean ====
section
/-! DEFINITION. Reading and writing the records, the working copy of an event, notices, replies and output lines. -/
namespace Sys2Proof.Machine

/-! ## Reading -/

/-- The record of a position. -/
def State.pos (s : State) (x : PosIx) : Position := s.ret.positions[x]

/-- A tool entry; none when it is free (R17). -/
def State.tool (s : State) (i : EntryIx) : Option Tool := s.ret.tools[i]

/-- A type record; none when it is UNDEFINED (R1). -/
def State.typ (s : State) (t : TypeIx) : Option TypeRec := s.ret.types[t]

/-- A pocket of the map (R26). -/
def State.pocket (s : State) (k : PocketIx) : Pocket := s.ret.pockets[k]

/-- A monitor channel (R150). -/
def State.chan (s : State) (x : PosIx) : Channel := s.vol.channels[x]

/-- The route of a highway slot (R145). -/
def State.route (s : State) (h : HwSlot) : Option Target := s.ret.routes[h]

/-- The state of a port (R172). -/
def State.port (s : State) (p : Port) : PortState := s.vol.ports[p.ix]

/-- Every field of an UNDEFINED type record reads as zero (R1). -/
def TypeRec.zero : TypeRec where
  kind := .wheel
  dnew := 0
  dscrap := 0
  lnew := 0
  dd := 0
  wp := 0
  ppd := 0
  rchg := 0
  stage := 0
  pmin := 0
  policy := .leastFirst
  k := 0
  z := 0
  g := 0
  aeLimit := 0
  powerLimit := 0
  blank := 0
  deglitch := 0
  factor := 0
  learnCount := 0

/-- The figures of a type: its record, or zeros when it is UNDEFINED. -/
def State.figures (s : State) (t : TypeIx) : TypeRec := (s.typ t).getD TypeRec.zero

/-- A position is present when its station is numbered below the strap count (R71). -/
def State.present (s : State) (x : PosIx) : Bool := decide ((stationOf x).val < s.strap.count)

/-- The tool in state MOUNTED that a position's mounted field names, with its entry index (R72). -/
def State.mountedTool (s : State) (x : PosIx) : Option (EntryIx × Tool) :=
  match (s.pos x).mounted with
  | .entry i =>
    match s.tool i with
    | some t => if t.state = .mounted then some (i, t) else none
    | none => none
  | _ => none

/-- The orders that stand, queue first, each in its order (R114). -/
def State.standing (s : State) : List Order := s.ret.queue ++ s.ret.backlog

/-- An order that is TAKEN or IN_DOUBT. -/
def Order.busy (o : Order) : Bool := o.state = .taken || o.state = .inDoubt

/-- The order names the tool entry. -/
def Order.names (i : EntryIx) (o : Order) : Bool := o.incoming = some i || o.outgoing = some i

/-- The order that is TAKEN or IN_DOUBT, if any (R120). -/
def State.busyOrder (s : State) : Option Order := s.ret.queue.find? Order.busy

/-- The part takes events: the main supply is on, the power-on start has been taken and the RESET input is released
(R41, R44). -/
def State.running (s : State) : Bool := s.supplyOn && s.started && !s.resetHeld

/-- A port is enabled: PC and PS always, a station port when its station is present (R172). -/
def State.enabled (s : State) : Port → Bool
  | .station n => decide (n.val < s.strap.count)
  | _ => true

/-! ## Writing one record -/

/-- Write a position record. -/
def State.setPos (s : State) (x : PosIx) (p : Position) : State :=
  { s with ret.positions := s.ret.positions.set x p }

/-- Write a tool entry. -/
def State.setTool (s : State) (i : EntryIx) (t : Option Tool) : State :=
  { s with ret.tools := s.ret.tools.set i t }

/-- Write a type record. -/
def State.setType (s : State) (t : TypeIx) (r : Option TypeRec) : State :=
  { s with ret.types := s.ret.types.set t r }

/-- Write a pocket of the map. -/
def State.setPocket (s : State) (k : PocketIx) (v : Pocket) : State :=
  { s with ret.pockets := s.ret.pockets.set k v }

/-- Write a monitor channel. -/
def State.setChan (s : State) (x : PosIx) (c : Channel) : State :=
  { s with vol.channels := s.vol.channels.set x c }

/-- Write the route of a highway slot. -/
def State.setRoute (s : State) (h : HwSlot) (t : Option Target) : State :=
  { s with ret.routes := s.ret.routes.set h t }

/-- Write the state of a port. -/
def State.setPort (s : State) (p : Port) (v : PortState) : State :=
  { s with vol.ports := s.vol.ports.set p.ix v }

/-- Set a notice in the notice set of a port; a station's only while its port is enabled (R178). -/
def State.notify (s : State) (p : Port) (n : Notice) : State :=
  if s.enabled p then s.setPort p { s.port p with notices := (s.port p).notices ||| n.mask } else s

/-- Set the notice that concerns a position's slot at the port of its station (R178). -/
def State.notifySlot (s : State) (x : PosIx) (n : Slot → Notice) : State :=
  s.notify (.station (stationOf x)) (n (slotOf x))

/-! ## The working copy of an event

An event changes the records one after another. `touched` lists the positions whose service state, mounted field,
rack, required type, need, urgent flag or suspended flag it has changed, in the order of their latest changes: the
positions that R95 hands to the Swap Queue at the end of the event (log 5). -/

/-- The state as an event has left it so far, and the positions it will hand over (R95). -/
structure Ev where
  st : State
  touched : List PosIx
deriving DecidableEq, Repr

/-- An event begins. -/
def Ev.start (s : State) : Ev := ⟨s, []⟩

/-- Change the state, no position record among the changes. -/
def Ev.upd (f : State → State) (e : Ev) : Ev := { e with st := f e.st }

/-- The two records agree in the fields whose change R95 answers with a posting hand-off. -/
def Position.sameForHandOff (p q : Position) : Bool :=
  decide (p.service = q.service) && decide (p.mounted = q.mounted) && decide (p.rack = q.rack) &&
  decide (p.required = q.required) && decide (p.need = q.need) && decide (p.urgent = q.urgent) &&
  decide (p.suspended = q.suspended)

/-- Change a position record, and note the position for the hand-off of R95 when a field of that rule changed. A position of
which no such field changes is not handed over, after a repeated VERDICT BROKEN either (R86; DEDUCED, log 41). -/
def Ev.updPos (x : PosIx) (f : Position → Position) (e : Ev) : Ev :=
  { st := e.st.setPos x (f (e.st.pos x))
    touched :=
      if (e.st.pos x).sameForHandOff (f (e.st.pos x)) then e.touched else e.touched.filter (· ≠ x) ++ [x] }

/-- Change a live tool entry. -/
def Ev.updTool (i : EntryIx) (f : Tool → Tool) (e : Ev) : Ev := e.upd fun s => s.setTool i ((s.tool i).map f)

/-- Change a pocket of the map. -/
def Ev.setPocket (k : PocketIx) (v : Pocket) (e : Ev) : Ev := e.upd fun s => s.setPocket k v

/-- Set a notice. -/
def Ev.notify (p : Port) (n : Notice) (e : Ev) : Ev := e.upd fun s => s.notify p n

/-- Set a slot notice of a position's station. -/
def Ev.notifySlot (x : PosIx) (n : Slot → Notice) (e : Ev) : Ev := e.upd fun s => s.notifySlot x n

/-! ## Changes of a tool entry -/

/-- The tool is put at a place in a state. -/
def Tool.put (st : ToolState) (pl : Place) (t : Tool) : Tool := { t with state := st, place := pl }

/-- The tool's promise is removed (R20). -/
def Tool.unpromise (t : Tool) : Tool := { t with promised := none }

/-- The tool becomes QUARANTINED at UNKNOWN, without a promise (R131, R133). -/
def Tool.lose (t : Tool) : Tool := { t with state := .quarantined, place := .unknown, promised := none }

/-- The tool becomes MOUNTED at a spindle: no promise, both peaks 0 (R25, R127). -/
def Tool.mount (x : PosIx) (t : Tool) : Tool :=
  { t with state := .mounted, place := .spindle x, promised := none, peakAE := 0, peakPower := 0 }

/-! ## Changes of a position record -/

/-- A finding about the mounted tool reaches the position (tables of R57 and R64, R75, R86). -/
def Position.finding (c : DueCause) (p : Position) : Position :=
  match p.service with
  | .serving | .due => { p with service := .due, dueCause := some c }
  | .held => { p with resume := some .due, dueCause := some c }
  | .released => { p with dueCause := some c }
  | _ => p

/-- A finding concerns a position in SERVING, DUE, HELD or RELEASED, where it sets the notice DUE (R57, R75). -/
def Position.hasFinding (p : Position) : Bool :=
  decide (p.service = .serving) || decide (p.service = .due) || decide (p.service = .held) ||
  decide (p.service = .released)

/-- A hold: HELD with a cause, resuming the state the position had (R76). -/
def Position.hold (c : HoldCause) (p : Position) : Position :=
  match p.service with
  | .serving => { p with service := .held, holdCause := some c, resume := some .serving }
  | .due => { p with service := .held, holdCause := some c, resume := some .due }
  | _ => p

/-- A hold ends: the position takes its resume state (R77, R87). -/
def Position.endHold (p : Position) : Position :=
  { p with
    service := if p.resume = some .due then .due else .serving
    dueCause := if p.resume = some .due then p.dueCause else none
    holdCause := none
    resume := none }

/-- The mounted tool is BROKEN: DUE with cause BROKEN, any hold ended (R86). -/
def Position.broken (p : Position) : Position :=
  { p with service := .due, dueCause := some .broken, holdCause := none, resume := none }

/-- The spindle is given to the changer (R84). -/
def Position.release (p : Position) : Position := { p with service := .released }

/-- The spindle is taken back: DUE if the due cause is present, SERVING otherwise (R85). -/
def Position.reclaim (p : Position) : Position :=
  { p with service := if p.dueCause.isSome then .due else .serving }

/-- The position becomes VACANT: the due cause, hold cause and resume state are absent (R74, R79, R80). -/
def Position.vacate (p : Position) : Position :=
  { p with service := .vacant, mounted := .bare, dueCause := none, holdCause := none, resume := none }

/-- The position becomes SERVING with a tool on its spindle; nothing is due or held (R74, R79). -/
def Position.serve (i : EntryIx) (p : Position) : Position :=
  { p with service := .serving, mounted := .entry i, dueCause := none, holdCause := none, resume := none }

/-- A tool on the spindle of a position that stays or becomes RELEASED (R80). -/
def Position.giveBack (i : EntryIx) (p : Position) : Position :=
  { p with service := .released, mounted := .entry i, holdCause := none, resume := none }

/-- The position becomes EXCHANGING under an order (R79). -/
def Position.exchange (p : Position) : Position :=
  { p with service := .exchanging, holdCause := none, resume := none }

/-- The position becomes UNCERTAIN: the causes and the resume state are absent (R81). -/
def Position.lose (p : Position) : Position :=
  { p with service := .uncertain, dueCause := none, holdCause := none, resume := none }

/-- The rack field is written. -/
def Position.setRack (h : Holding) (p : Position) : Position := { p with rack := h }

/-- The mounted field is written. -/
def Position.setMounted (h : Holding) (p : Position) : Position := { p with mounted := h }

/-- The retry count and the failed-order count become 0 (R79). -/
def Position.clearCounts (p : Position) : Position := { p with retryCount := 0, failed := 0 }

/-- The need becomes NONE, the sister absent and the urgent flag clear (R92, R94). -/
def Position.noNeed (p : Position) : Position := { p with need := .noNeed, sister := none, urgent := false }

/-- The need becomes RESERVED with a sister (R102). -/
def Position.reserve (i : EntryIx) (p : Position) : Position := { p with need := .reserved, sister := some i }

/-- The need becomes WAITING (R101). -/
def Position.wait (p : Position) : Position := { p with need := .waiting, sister := none }

/-- The need of a position with a sister becomes RESERVED, STAGING or STAGED. -/
def Position.progress (n : Need) (p : Position) : Position := { p with need := n }

/-- A need is raised: its urgent flag (R93). -/
def Position.setUrgent (u : Bool) (p : Position) : Position := { p with urgent := u }

/-! ## The waiting list: leaving it -/

/-- A position leaves the waiting list; those behind it keep their order (R103). -/
def Ev.leaveWaiting (x : PosIx) (e : Ev) : Ev :=
  e.upd fun s => { s with ret.waiting := s.ret.waiting.filter (· ≠ x) }

/-- The need of a position takes a value other than WAITING, which takes the position off the waiting list in the
same event (R103). -/
def Ev.setNeed (x : PosIx) (f : Position → Position) (e : Ev) : Ev := (e.updPos x f).leaveWaiting x

/-! ## Output lines and the commit -/

/-- The level of a station's INHIBIT line: asserted when one of its positions is HELD, or while RESET is held (R170). -/
def State.inhibitLevel (s : State) (n : Station) : Bool :=
  s.resetHeld || decide ((s.pos (posAt n .a)).service = .held) || decide ((s.pos (posAt n .b)).service = .held) ||
  decide ((s.pos (posAt n .d)).service = .held)

/-- A mailbox holds a new reply. -/
def Mailbox.isFresh : Mailbox → Bool
  | .fresh _ => true
  | _ => false

/-- The port at a place of the port records is enabled (R172). -/
def State.enabledAt (s : State) (i : Fin 6) : Bool := decide (4 ≤ i.val) || decide (i.val < s.strap.count)

/-- The level of a port's ATTN line: asserted while its mailbox holds a new reply or its notice set a flag, released
otherwise, on a disabled port and while RESET is held (R180, R172, R44). -/
def State.attnLevel (s : State) (i : Fin 6) : Bool :=
  !s.resetHeld && s.enabledAt i && (s.vol.ports[i].mailbox.isFresh || decide (s.vol.ports[i].notices ≠ 0))

/-- Every INHIBIT line and every ATTN line takes its level (R170, R180). -/
def State.drive (s : State) : State :=
  { s with
    inhibit := Vector.ofFn s.inhibitLevel
    vol.ports := Vector.ofFn fun i => { s.vol.ports[i] with attn := s.attnLevel i } }

/-- The changes of an event to retained state are committed together with the check byte that fits them (R40). -/
def State.commit (s : State) : State := { s with checkByte := checkByteOf s.ret }

/-! ## Requests and replies -/

/-- The transaction at a port is over (R173). -/
def State.endReception (s : State) (p : Port) : State := s.setPort p { s.port p with reception := .idle }

/-- The port takes a request: the part is running, the port is enabled, and the transaction is not one that is ignored
to its end (R172, R173, R188). -/
def State.listening (s : State) (p : Port) : Bool :=
  s.running && s.enabled p && decide ((s.port p).reception ≠ .discarded)

/-- A reply is placed in the mailbox of a port, as new, and the lines follow (R176, R180). -/
def State.answer (s : State) (p : Port) (r : Reply) : State :=
  (s.setPort p { s.port p with mailbox := .fresh r, reception := .idle }).drive

/-- What the block that owns a request makes of it: a refusal status, or the state it leaves and the result record
(R175, R176). -/
abbrev Answer := Except Status (State × List Byte)

/-- A request is taken at a port as one event, its reply placed last; a port that does not listen ignores it (R175,
R172, R44). -/
def serve (p : Port) (code : Nat) (body : Answer) (s : State) : Host.Outcome State Fault Refusal :=
  .next <|
    if s.listening p then
      match body with
      | .error st => s.answer p ⟨code, st, []⟩
      | .ok (s', result) => s'.answer p ⟨code, .accepted, result⟩
    else s.endReception p

/-- A request of the station ports: the part of its rule after the role check (R175). -/
def asStation (p : Port) (body : Station → Answer) : Answer :=
  match p with
  | .station n => body n
  | _ => .error .role

/-- A request of the changer port (R175). -/
def asChanger (p : Port) (body : Answer) : Answer := if p = .pc then body else .error .role

/-- A request of the supervisor port (R175). -/
def asSupervisor (p : Port) (body : Answer) : Answer := if p = .ps then body else .error .role

end Sys2Proof.Machine
end

