-- ==== Sys2Proof/Machine/Life.lean ====
section
/-! DEFINITION. The Life Estimator's arithmetic (Chapter 3): charges, parts-left, gauged layers, doubt, learning. -/
namespace Sys2Proof.Machine

/-- The largest value of Nnom and of the part and dress counts (R22, R23). -/
def count24Max : Nat := 16777215

/-! ## Charging (R47, R48) -/

/-- A charge of nominal amount `a` LU to a tool whose type has life factor `f`: the true amount in thousandths is
a × f plus the remainder; whole LU come off R and the rest is carried. An R that would fall below 0 becomes 0 with
remainder 0; Nnom takes the whole of `a`, saturating. -/
def Tool.charge (a f : Nat) (t : Tool) : Tool :=
  let q := a * f + t.rem
  { t with
    r := t.r - q / 1000
    rem := if t.r < q / 1000 then 0 else q % 1000
    nnom := min count24Max (t.nnom + a) }

/-- `n` parts are added to the part count (R23, R50). -/
def Tool.countParts (n : Nat) (t : Tool) : Tool := { t with parts := min count24Max (t.parts + n) }

/-- `n` dresses are added to the dress count (R23, R52). -/
def Tool.countDresses (n : Nat) (t : Tool) : Tool := { t with dresses := min count24Max (t.dresses + n) }

/-! ## Parts-left (R53, R54) -/

/-- The ceiling of a / b. -/
def ceilDiv (a b : Nat) : Nat := (a + b - 1) / b

/-- The per-part consumption c of a tool of these figures, in thousandths of an LU (R53). -/
def TypeRec.perPart (f : TypeRec) : Nat := ceilDiv ((f.wp * f.ppd + f.dd) * f.factor) f.ppd

/-- The parts-left P of a tool with remaining life `r` under these figures (R54). -/
def TypeRec.partsLeft (f : TypeRec) (r : Nat) : Nat :=
  if r ≤ f.rchg then 0
  else if f.perPart = 0 then 65535
  else min 65535 ((r - f.rchg) * 1000 / f.perPart)

/-- The parts-left of a tool entry, computed afresh from its R and its type's figures (R55). -/
def State.partsLeft (s : State) (t : Tool) : Nat := (s.figures t.type).partsLeft t.r

/-- The parts-left of the tool mounted at a position, 0 when no tool is in state MOUNTED there (R82, R183). -/
def State.mountedPartsLeft (s : State) (x : PosIx) : Nat :=
  match s.mountedTool x with
  | some (_, t) => s.partsLeft t
  | none => 0

/-! ## Gauged diameters (R61 to R64) -/

/-- The layer M that a gauged diameter `d` implies (R61). -/
def TypeRec.layerOf (f : TypeRec) (d : Nat) : Nat :=
  if d ≤ f.dscrap then 0 else if f.dnew ≤ d then f.lnew else 5 * (d - f.dscrap)

/-- A gauge is doubted when its layer exceeds the prior R by more than the grow tolerance (R62). -/
def TypeRec.doubts (f : TypeRec) (m r : Nat) : Bool := decide (r + f.g < m)

/-- The weight of a gauged value, in sixteenths: 16 at or below the converge zone, k above it (R63). -/
def TypeRec.weight (f : TypeRec) (r : Nat) : Nat := if r ≤ f.z then 16 else f.k

/-- The remaining life after a blend: R plus (M − R) × w / 16, truncated toward zero (R63). -/
def TypeRec.blend (f : TypeRec) (m r : Nat) : Nat :=
  ((r : Int) + (((m : Int) - (r : Int)) * (f.weight r : Int)).tdiv 16).toNat

/-- A blended gauge: R moves, the doubt count is cleared, the diameter is recorded (R63). -/
def Tool.blendGauge (f : TypeRec) (d : Nat) (t : Tool) : Tool :=
  { t with r := f.blend (f.layerOf d) t.r, doubts := 0, gauged := some d }

/-- A doubted gauge: the doubt count increases, to 3 at most (R62). -/
def Tool.doubtGauge (t : Tool) : Tool := { t with doubts := min 3 (t.doubts + 1) }

/-- A doubted gauge makes the doubt count reach 3 and finds the tool SOUND: the DOUBTFUL condition is applied (R64). -/
def Tool.becomesDoubtful (t : Tool) : Bool := decide (t.doubts = 2) && decide (t.condition = .sound)

/-! ## Learning (R65, R66) -/

/-- The outgoing tool teaches its type: WORN, full history, and Nnom at least Lnew div 2 (R65). -/
def TypeRec.teaches (f : TypeRec) (t : Tool) : Bool :=
  decide (t.condition = .worn) && t.fullHistory && decide (f.lnew / 2 ≤ t.nnom)

/-- The observed factor of a teaching tool, clamped to 500 to 1,500 (R66). -/
def TypeRec.observed (f : TypeRec) (t : Tool) : Nat := max 500 (min 1500 ((f.lnew - t.r) * 1000 / t.nnom))

/-- The learning update: F moves a quarter of the way toward the observed factor, truncated toward zero, and the
learn count increases, saturating (R66). -/
def TypeRec.learn (f : TypeRec) (t : Tool) : TypeRec :=
  { f with
    factor := ((f.factor : Int) + ((f.observed t : Int) - (f.factor : Int)).tdiv 4).toNat
    learnCount := min 255 (f.learnCount + 1) }

end Sys2Proof.Machine
end

