-- ==== Sys2Proof/Machine/Flags.lean ====
section
/-! DEFINITION. What is judged afresh and not stored: availability and watching (R147), cycle codes (R83), the use of a
type (R7), the eligibility of a sister (R99), the need conditions (R93) and the ORDER_READY test (R123). -/
namespace Sys2Proof.Machine

/-! ## Availability (R147) -/

/-- The highway slot routed to a signal of a position (R145). -/
def State.slotFor (s : State) (x : PosIx) (g : Signal) : Option HwSlot :=
  allHwSlots.find? fun h => decide (s.route h = some ⟨x, g⟩)

/-- A signal of a position is available: routed, the receiver LOCKED, and the last sample of its slot valid (R147). -/
def State.available (s : State) (x : PosIx) (g : Signal) : Bool :=
  s.present x && decide (s.vol.lock = .locked) &&
    match s.slotFor x g with
    | some h => s.vol.lastSamples[h] == some true
    | none => false

/-- A position is watched when one of its signals is available (R147). -/
def State.watched (s : State) (x : PosIx) : Bool := s.available x .ae || s.available x .power

/-! ## The cycle check (R83, Table 4-5) -/

/-- The mode asks for watching: HOLD or RETRY. -/
def Mode.guards (m : Mode) : Bool := decide (m = .hold) || decide (m = .retry)

/-- A tool is MOUNTED at the spindle and its type differs from the required type (Table 4-5, code 5). -/
def State.mismatched (s : State) (x : PosIx) : Bool :=
  match s.mountedTool x with
  | some (_, t) => decide ((s.pos x).required ≠ some t.type)
  | none => false

/-- The cycle code of a position: the first code of Table 4-5 whose condition holds. -/
def State.cycleCode (s : State) (x : PosIx) : Nat :=
  let p := s.pos x
  if p.service = .uncertain then 1
  else if p.service = .vacant then 2
  else if p.service = .held then 3
  else if p.mode.guards && !s.watched x then 4
  else if s.mismatched x then 5
  else if p.service = .due || p.service = .released || p.service = .exchanging then 6
  else if s.mountedPartsLeft x = 1 then 7
  else 8

/-! ## Types in use (R7) -/

/-- The live entries of a type, in ascending order (R185). -/
def State.entriesOf (s : State) (t : TypeIx) : List EntryIx :=
  allEntries.filter fun i => (s.tool i).any fun u => decide (u.type = t)

/-- The positions that require a type, present or absent, in ascending order (R185). -/
def State.positionsOf (s : State) (t : TypeIx) : List PosIx :=
  allPositions.filter fun x => decide ((s.pos x).required = some t)

/-- A type is in use while a live entry is of it or a position requires it (R7). -/
def State.inUse (s : State) (t : TypeIx) : Bool := !(s.entriesOf t).isEmpty || !(s.positionsOf t).isEmpty

/-! ## Sisters (R99, R100) -/

/-- A tool entry is eligible as a sister for a need of type `t` (R99). -/
def State.eligible (s : State) (t : TypeIx) (i : EntryIx) : Bool :=
  match s.tool i with
  | some u =>
    decide (u.type = t) && decide (u.state = .stored) && decide (u.condition = .sound) &&
      decide ((s.figures t).pmin ≤ s.partsLeft u)
  | none => false

/-- The pocket number of a tool in the store; 0 for a tool elsewhere. -/
def Tool.pocketNumber (u : Tool) : Nat :=
  match u.place with
  | .pocket k => k.val + 1
  | _ => 0

/-- Under a policy, a tool with parts-left `p` in pocket `k` is chosen before one with `p'` in pocket `k'` (R100). -/
def Policy.prefers (y : Policy) (p k p' k' : Nat) : Bool :=
  match y with
  | .leastFirst => decide (p < p') || (decide (p = p') && decide (k < k'))
  | .mostFirst => decide (p' < p) || (decide (p = p') && decide (k < k'))

/-- The parts-left of an entry; 0 for a free one. -/
def State.entryPartsLeft (s : State) (i : EntryIx) : Nat := (s.tool i).elim 0 s.partsLeft

/-- The pocket number of an entry; 0 for a free one. -/
def State.entryPocket (s : State) (i : EntryIx) : Nat := (s.tool i).elim 0 Tool.pocketNumber

/-- Of two entries of type `t`, the one the type's policy chooses (R100). -/
def State.better (s : State) (t : TypeIx) (i j : EntryIx) : EntryIx :=
  if (s.figures t).policy.prefers (s.entryPartsLeft j) (s.entryPocket j) (s.entryPartsLeft i) (s.entryPocket i) then j
  else i

/-- The choice for a need of type `t` over the eligible entries (R100); none when no entry is eligible. -/
def State.choose (s : State) (t : TypeIx) : Option EntryIx :=
  match allEntries.filter (s.eligible t) with
  | [] => none
  | i :: rest => some (rest.foldl (s.better t) i)

/-! ## The need conditions (R93) -/

/-- The service states in which a need may be raised. -/
def Service.mayNeed (v : Service) : Bool :=
  decide (v = .vacant) || decide (v = .serving) || decide (v = .due) || decide (v = .held) || decide (v = .released)

/-- The mounted tool of a position calls for a sister of type `t`: another type, a condition other than SOUND, or
parts-left at or below the stage threshold of `t` (R93). -/
def State.mountedCalls (s : State) (x : PosIx) (t : TypeIx) : Bool :=
  match s.mountedTool x with
  | some (_, u) =>
    decide (u.type ≠ t) || decide (u.condition ≠ .sound) || decide (s.partsLeft u ≤ (s.figures t).stage)
  | none => false

/-- The type for which the need test raises a need at a position, if all its conditions hold (R93). -/
def State.needFor (s : State) (x : PosIx) : Option TypeIx :=
  let p := s.pos x
  match p.required with
  | none => none
  | some t =>
    if s.present x && decide (p.need = .noNeed) && !p.suspended && p.service.mayNeed &&
        (decide (p.service = .vacant) || s.mountedCalls x t) then some t
    else none

/-- The mounted tool of a position is BROKEN, which makes a need raised for it urgent (R93). -/
def State.mountedBroken (s : State) (x : PosIx) : Bool :=
  match s.mountedTool x with
  | some (_, u) => decide (u.condition = .broken)
  | none => false

/-! ## ORDER_READY (R123) -/

/-- A READY order of a present position. -/
def State.takeable (s : State) (o : Order) : Bool := decide (o.state = .ready) && s.present o.pos

/-- No order is TAKEN or IN_DOUBT and the queue holds a READY order of a present position (R123). -/
def State.orderReady (s : State) : Bool := s.busyOrder.isNone && s.ret.queue.any s.takeable

/-- ORDER_READY is set at PC at the end of an event that changed the queue, when the test of R123 holds. -/
def State.raiseOrderReady (before : List Order) (s : State) : State :=
  if s.ret.queue ≠ before ∧ s.orderReady = true then s.notify .pc .orderReady else s

end Sys2Proof.Machine
end

