-- ==== Sys2Proof/Machine/Queue.lean ====
section
/-! DEFINITION. The two collections of swap orders: numbers, order of standing, the move from the backlog, withdrawal
and retirement (6.1, 6.3, 6.7 of Chapter 6). -/
namespace Sys2Proof.Machine

/-! ## Places of an order (Table 6-2) -/

/-- A from-place or to-place of an order as its kind byte and number byte (Table 9-4): none is absent. -/
def optPlaceBytes (p : Option Place) : List Byte := p.elim [0, 0] placeBytes

/-- The from-place of the incoming tool. -/
def Order.incomingFrom (o : Order) : Option Place :=
  match o.kind with
  | .stage | .direct => o.pocket.map .pocket
  | .exchange => some (.rack o.pos)
  | .remove | .return_ => none

/-- The to-place of the incoming tool. -/
def Order.incomingTo (o : Order) : Option Place :=
  match o.kind with
  | .stage => some (.rack o.pos)
  | .exchange | .direct => some (.spindle o.pos)
  | .remove | .return_ => none

/-- The from-place of the outgoing tool; absent with the tool. -/
def Order.outgoingFrom (o : Order) : Option Place :=
  if o.outgoing.isNone then none
  else
    match o.kind with
    | .stage => none
    | .exchange | .direct | .remove => some (.spindle o.pos)
    | .return_ => some (.rack o.pos)

/-- The to-place of the outgoing tool as its two bytes: the rack, the destination pocket, or the chute, which is no
place of the tool table (R115); absent with the tool. -/
def Order.outgoingToBytes (o : Order) : List Byte :=
  if o.outgoing.isNone then [0, 0]
  else
    match o.kind with
    | .stage => [0, 0]
    | .exchange | .direct | .remove => placeBytes (.rack o.pos)
    | .return_ => o.pocket.elim [6, 0] fun k => placeBytes (.pocket k)

/-- The order works on the spindle of its position (R79). -/
def OrderKind.spindle : OrderKind → Bool
  | .exchange | .direct | .remove => true
  | .stage | .return_ => false

/-- The order books the rack at its posting (Table 6-2). -/
def OrderKind.booksRackAtPosting : OrderKind → Bool
  | .stage | .direct | .remove => true
  | .exchange | .return_ => false

/-! ## Numbers (R114) -/

/-- The order counter after a number: after 65,535 it wraps to 1. -/
def succNumber (n : Nat) : Nat := if 65535 ≤ n then 1 else n + 1

/-- The first number from `c` on that is not in use; `fuel` bounds the numbers passed over. -/
def nextFree : Nat → Nat → List Nat → Nat
  | 0, c, _ => c
  | fuel + 1, c, used => if c ∈ used then nextFree fuel (succNumber c) used else c

/-- The numbers passed over: those of standing orders and those in the expired-number memory. -/
def State.usedNumbers (s : State) : List Nat := s.standing.map (·.number) ++ s.ret.expired

/-- The number the next posted order takes. -/
def State.nextNumber (s : State) : Nat := nextFree s.usedNumbers.length s.ret.counter s.usedNumbers

/-! ## Standing in a collection (R120, R121) -/

/-- An order stands ahead of every READY or BACKLOG order that is not urgent. -/
def Order.ahead (o : Order) : Bool := o.busy || o.urgent

/-- An order enters a collection at the tail of its class. -/
def insertOrder (o : Order) (q : List Order) : List Order :=
  if o.urgent then q.takeWhile Order.ahead ++ o :: q.dropWhile Order.ahead else q ++ [o]

/-- The capacity of the queue and of the backlog (R120). -/
def queueSize : Nat := 16

def backlogSize : Nat := 24

/-- A posted order finds room in the queue or in the backlog (R121). -/
def State.hasRoom (s : State) : Bool :=
  decide (s.ret.queue.length < queueSize) || decide (s.ret.backlog.length < backlogSize)

/-- A posted order enters the queue as READY, or the backlog as BACKLOG when the queue is full; the order counter
advances past its number (R114, R120). -/
def State.enqueue (s : State) (o : Order) : State :=
  if s.ret.queue.length < queueSize then
    { s with
      ret.queue := insertOrder { o with state := .ready } s.ret.queue
      ret.counter := succNumber o.number }
  else
    { s with
      ret.backlog := insertOrder { o with state := .backlog } s.ret.backlog
      ret.counter := succNumber o.number }

/-- A place in the queue has freed: the first order of the backlog moves in, as READY, at the tail of its class (R121), one of
an absent position like any other (R137; DEDUCED, log 42). -/
def State.promote (s : State) : State :=
  match s.ret.backlog with
  | [] => s
  | o :: rest =>
    if s.ret.queue.length < queueSize then
      { s with ret.queue := insertOrder { o with state := .ready } s.ret.queue, ret.backlog := rest }
    else s

/-- The orders of a list without the one of a number. -/
def dropNumber (n : Nat) (q : List Order) : List Order := q.filter fun o => decide (o.number ≠ n)

/-- An order leaves its collection, and a queue place it frees is filled from the backlog (R121). -/
def State.dropOrder (s : State) (n : Nat) : State :=
  if s.ret.queue.any fun o => decide (o.number = n) then
    State.promote { s with ret.queue := dropNumber n s.ret.queue }
  else { s with ret.backlog := dropNumber n s.ret.backlog }

/-- A READY or BACKLOG order is withdrawn: it leaves its collection, and the rack it booked at its posting becomes
EMPTY (R132). -/
def Ev.withdraw (o : Order) (e : Ev) : Ev :=
  let e := e.upd fun s => s.dropOrder o.number
  if o.kind.booksRackAtPosting then e.updPos o.pos (·.setRack .bare) else e

/-- The TAKEN or IN_DOUBT order is retired: it leaves the queue, which frees a place, and its deadline ends (R125,
R133). -/
def State.retire (s : State) (n : Nat) : State :=
  let s := s.dropOrder n
  { s with vol.swapDeadline := none }

/-! ## Finding orders -/

/-- The standing order that names a tool entry, if any (R116). -/
def State.orderNaming (s : State) (i : EntryIx) : Option Order := s.standing.find? (Order.names i)

/-- The STAGE or DIRECT that carries a sister (R109). -/
def State.carrierOf (s : State) (i : EntryIx) : Option Order :=
  s.standing.find? fun o => decide (o.incoming = some i) && (decide (o.kind = .stage) || decide (o.kind = .direct))

/-- The EXCHANGE that stands for a position (R110, R116). -/
def State.exchangeFor (s : State) (x : PosIx) : Option Order :=
  s.standing.find? fun o => decide (o.kind = .exchange) && decide (o.pos = x)

/-- The READY or BACKLOG EXCHANGE, DIRECT or REMOVE that names a position's spindle (R85). -/
def State.waitingSpindleOrder (s : State) (x : PosIx) : Option Order :=
  s.standing.find? fun o => o.kind.spindle && decide (o.pos = x) && !o.busy

/-- The READY or BACKLOG REMOVE of a position (R132). -/
def State.waitingRemove (s : State) (x : PosIx) : Option Order :=
  s.standing.find? fun o => decide (o.kind = .remove) && decide (o.pos = x) && !o.busy

/-- The READY or BACKLOG STAGE for a sister that books the rack of a position (R116, condition 2). -/
def State.waitingStage (s : State) (x : PosIx) (i : EntryIx) : Option Order :=
  match (s.pos x).rack with
  | .booked n =>
    s.standing.find? fun o =>
      decide (o.number = n) && decide (o.kind = .stage) && decide (o.incoming = some i) && !o.busy
  | _ => none

/-- Orders of a collection change class: each order the test picks becomes urgent and moves to the tail of the
urgent class (R122). -/
def makeUrgent (pick : Order → Bool) (q : List Order) : List Order :=
  match q.find? pick with
  | some o => insertOrder { o with urgent := true } (dropNumber o.number q)
  | none => q

end Sys2Proof.Machine
end

