-- ==== Sys2Proof/Machine/Allocation.lean ====
section
/-! DEFINITION. The Sister Allocator and the needs of positions: reservation, the waiting list, arbitration, the need
test and its evaluation, cancellation, urgency (Chapter 5; R92 to R94), and the triggers that raise needs (R56 to R58). -/
namespace Sys2Proof.Machine

/-! ## Reservation and waiting -/

/-- A reservation of an entry for a position (R102). -/
def Ev.reserve (x : PosIx) (i : EntryIx) (e : Ev) : Ev :=
  (e.updTool i fun t => { t with state := .reserved, promised := some x }).setNeed x (·.reserve i)

/-- A position enters the waiting list at the tail of its class: urgent positions ahead of normal ones (R103). -/
def State.joinWaiting (s : State) (x : PosIx) : State :=
  let ahead := fun y => (s.pos y).urgent
  let others := s.ret.waiting.filter (· ≠ x)
  if (s.pos x).urgent then
    { s with ret.waiting := others.takeWhile ahead ++ x :: others.dropWhile ahead }
  else { s with ret.waiting := others ++ [x] }

/-- A need for which no tool is eligible becomes WAITING (R101). -/
def Ev.wait (x : PosIx) (e : Ev) : Ev :=
  ((e.updPos x Position.wait).upd fun s => s.joinWaiting x).notify .ps .waiting

/-! ## Arbitration (R105) -/

/-- The first candidate for a type: present, unsuspended, on the waiting list, requiring it. -/
def State.candidate (s : State) (t : TypeIx) : Option PosIx :=
  s.ret.waiting.find? fun x => s.present x && !(s.pos x).suspended && decide ((s.pos x).required = some t)

/-- The loop of R105, at most `fuel` passes. -/
def Ev.arbitrateLoop (t : TypeIx) : Nat → Ev → Ev
  | 0, e => e
  | fuel + 1, e =>
    match e.st.candidate t, e.st.choose t with
    | some x, some i => Ev.arbitrateLoop t fuel (e.reserve x i)
    | _, _ => e

/-- Arbitration for a type: each pass serves one position of the waiting list, so the list's length bounds them. -/
def Ev.arbitrate (t : TypeIx) (e : Ev) : Ev := e.arbitrateLoop t e.st.ret.waiting.length

/-- A tool that has become STORED is offered to the allocator: arbitration for its type if it is eligible (R32, R105). -/
def Ev.offerTool (i : EntryIx) (e : Ev) : Ev :=
  match e.st.tool i with
  | some t => if e.st.eligible t.type i then e.arbitrate t.type else e
  | none => e

/-- The waiting list holds a position that requires the type (R12, R67). -/
def State.waitedFor (s : State) (t : TypeIx) : Bool :=
  s.ret.waiting.any fun x => decide ((s.pos x).required = some t)

/-! ## The need test (R93) and the evaluation of a raised need (R101) -/

/-- A need for a type is raised at a position and evaluated at once. -/
def Ev.raiseNeed (x : PosIx) (t : TypeIx) (e : Ev) : Ev :=
  let e := e.updPos x (·.setUrgent (e.st.mountedBroken x))
  match e.st.choose t with
  | some i => e.reserve x i
  | none => e.wait x

/-- The need test of a position. -/
def Ev.needTest (x : PosIx) (e : Ev) : Ev :=
  match e.st.needFor x with
  | some t => e.raiseNeed x t
  | none => e

/-! ## Cancellation (R94, R108 to R110) -/

/-- The need of a position becomes NONE; a waiting position leaves the list. -/
def Ev.clearNeed (x : PosIx) (e : Ev) : Ev := e.setNeed x Position.noNeed

/-- A RESERVED sister goes back to STORED in its pocket, without a promise, and is offered to arbitration (R108). -/
def Ev.releaseSister (i : EntryIx) (e : Ev) : Ev :=
  (e.updTool i fun t => { t with state := .stored, promised := none }).offerTool i

/-- A STAGED sister becomes OFFLOADED on the rack, without a promise (R110). -/
def Ev.offloadSister (i : EntryIx) (e : Ev) : Ev := e.updTool i fun t => { t with state := .offloaded, promised := none }

/-- The cancellation of a STAGING need with sister `i`, the need already NONE (R109). -/
def Ev.cancelStaging (i : EntryIx) (e : Ev) : Ev :=
  match e.st.carrierOf i with
  | some o => if o.busy then e.updTool i Tool.unpromise else (e.withdraw o).releaseSister i
  | none => e.releaseSister i

/-- The cancellation of a STAGED need with sister `i`, the need already NONE (R110). -/
def Ev.cancelStaged (x : PosIx) (i : EntryIx) (e : Ev) : Ev :=
  match e.st.exchangeFor x with
  | some o => if o.busy then e.updTool i Tool.unpromise else (e.withdraw o).offloadSister i
  | none => e.offloadSister i

/-- The cancellation of a need by an ASSIGN or a DECLARE (R94, R108 to R110). -/
def Ev.cancelNeed (x : PosIx) (e : Ev) : Ev :=
  let p := e.st.pos x
  match p.need, p.sister with
  | .noNeed, _ => e
  | .waiting, _ => e.clearNeed x
  | .reserved, some i => (e.clearNeed x).releaseSister i
  | .staging, some i => (e.clearNeed x).cancelStaging i
  | .staged, some i => (e.clearNeed x).cancelStaged x i
  | _, none => e.clearNeed x

/-- The cancellation of a need by the loss of its sister, the entry `i` having become QUARANTINED; nothing happens at a
position whose sister is another tool or absent (R94, R108). -/
def Ev.loseSister (x : PosIx) (i : EntryIx) (e : Ev) : Ev :=
  if (e.st.pos x).sister = some i then (e.clearNeed x).needTest x else e

/-! ## Urgency (R104, R111, R122) -/

/-- The orders R122 makes urgent: a READY or BACKLOG STAGE or DIRECT for the sister. -/
def Order.hastens (i : EntryIx) (o : Order) : Bool :=
  decide (o.incoming = some i) && (decide (o.kind = .stage) || decide (o.kind = .direct)) && !o.busy && !o.urgent

/-- A STAGE or DIRECT for the sister that has not been taken becomes urgent (R122). -/
def State.hasten (s : State) (i : EntryIx) : State :=
  { s with
    ret.queue := makeUrgent (Order.hastens i) s.ret.queue
    ret.backlog := makeUrgent (Order.hastens i) s.ret.backlog }

/-- A standing need that is not urgent becomes urgent by VERDICT BROKEN (table of R111). -/
def Ev.makeNeedUrgent (x : PosIx) (e : Ev) : Ev :=
  let p := e.st.pos x
  if p.need = .noNeed ∨ p.urgent = true then e
  else
    let e := e.updPos x (·.setUrgent true)
    match p.need, p.sister with
    | .waiting, _ => e.upd fun s => s.joinWaiting x
    | .staging, some i => e.upd fun s => s.hasten i
    | _, _ => e

/-! ## The triggers (R56 to R58) -/

/-- A finding about the mounted tool `i` of a position: its new condition, the position's change and the notice DUE
(R57, R64, R75). -/
def Ev.finding (x : PosIx) (i : EntryIx) (c : Condition) (d : DueCause) (e : Ev) : Ev :=
  let concerned := (e.st.pos x).hasFinding
  let e := (e.updTool i fun t => { t with condition := c }).updPos x (·.finding d)
  if concerned then e.notifySlot x .due else e

/-- The evaluation of the triggers of the tool mounted at a position: the wear trigger, then the stage trigger, both with
the P of the evaluation (R56). The need test that a fired stage trigger asks for runs at once. -/
def Ev.evalTriggers (x : PosIx) (e : Ev) : Ev :=
  match e.st.mountedTool x with
  | none => e
  | some (i, t) =>
    let p := e.st.partsLeft t
    let e := if p = 0 ∧ t.condition = .sound then e.finding x i .worn .worn else e
    if p ≤ (e.st.figures t.type).stage then e.needTest x else e

/-- The triggers of the tools of a type that an edit or a learning update re-evaluates: mounted at a present position in
SERVING, DUE, HELD or RELEASED, other than `but` (R11, R67). -/
def State.reevaluated (s : State) (t : TypeIx) (but : Option EntryIx) (x : PosIx) : Bool :=
  s.present x && (s.pos x).hasFinding &&
    match s.mountedTool x with
    | some (i, u) => decide (u.type = t) && decide (but ≠ some i)
    | none => false

/-- The re-evaluation of the mounted tools of a type, in position order (R11, R67). -/
def Ev.reevaluate (t : TypeIx) (but : Option EntryIx) (e : Ev) : Ev :=
  allPositions.foldl (fun e x => if e.st.reevaluated t but x then e.evalTriggers x else e) e

/-- The arbitration that follows an edit or a learning update when a position waits for the type (R12, R67). -/
def Ev.arbitrateIfWaited (t : TypeIx) (e : Ev) : Ev := if e.st.waitedFor t then e.arbitrate t else e

end Sys2Proof.Machine
end

