-- ==== Sys2Proof/Machine/Posting.lean ====
section
/-! DEFINITION. The posting hand-off and the orders it posts (R95, R116, R117, R119), the pocket arbiter (R118), and the
end of an event (R28, R40, R123). -/
namespace Sys2Proof.Machine

/-! ## What a position's record calls for (R116) -/

/-- The order a position's record calls for. -/
inductive Call where
  /-- A RETURN of the OFFLOADED tool `i` on the rack. -/
  | return_ (i : EntryIx)
  /-- A DIRECT for the sister `i`, in place of the STAGE `replaced` if one books the rack. -/
  | direct (i : EntryIx) (replaced : Option Order)
  /-- A STAGE for the sister `i`. -/
  | stage (i : EntryIx)
  /-- An EXCHANGE for the STAGED sister `i`. -/
  | exchange (i : EntryIx)
  /-- A REMOVE of the mounted tool `j`. -/
  | remove (j : EntryIx)
deriving DecidableEq, Repr

/-- Condition 1: the OFFLOADED tool on the rack that no standing order names. -/
def State.callsReturn (s : State) (x : PosIx) : Option EntryIx :=
  match (s.pos x).rack with
  | .entry i =>
    if (s.tool i).any (fun t => decide (t.state = .offloaded)) && (s.orderNaming i).isNone then some i else none
  | _ => none

/-- The sister of a position is RESERVED in its pocket. -/
def State.sisterReserved (s : State) (i : EntryIx) : Bool := (s.tool i).any fun t => decide (t.state = .reserved)

/-- Condition 2: urgent need, RELEASED, the sister RESERVED in its pocket, the rack EMPTY or booked by its READY or
BACKLOG STAGE. -/
def State.callsDirect (s : State) (x : PosIx) : Option (EntryIx × Option Order) :=
  let p := s.pos x
  match p.sister with
  | some i =>
    if p.urgent && decide (p.service = .released) && s.sisterReserved i then
      if p.need = .reserved ∧ p.rack = .bare then some (i, none)
      else if p.need = .staging then (s.waitingStage x i).map fun o => (i, some o)
      else none
    else none
  | none => none

/-- Condition 3: need RESERVED and rack EMPTY. -/
def State.callsStage (s : State) (x : PosIx) : Option EntryIx :=
  let p := s.pos x
  if p.need = .reserved ∧ p.rack = .bare then p.sister else none

/-- Condition 4: need STAGED, no EXCHANGE stands, RELEASED or VACANT. -/
def State.callsExchange (s : State) (x : PosIx) : Option EntryIx :=
  let p := s.pos x
  if p.need = .staged ∧ (s.exchangeFor x).isNone = true ∧ (p.service = .released ∨ p.service = .vacant) then p.sister
  else none

/-- Condition 5: required type 0, a MOUNTED tool, RELEASED, rack EMPTY. -/
def State.callsRemove (s : State) (x : PosIx) : Option EntryIx :=
  let p := s.pos x
  if p.required = none ∧ p.service = .released ∧ p.rack = .bare then (s.mountedTool x).map (·.1) else none

/-- The first order whose conditions hold, in the order of R116; nothing for an absent or a suspended position. -/
def State.callFor (s : State) (x : PosIx) : Option Call :=
  if !s.present x || (s.pos x).suspended then none
  else
    match s.callsReturn x with
    | some i => some (.return_ i)
    | none =>
      match s.callsDirect x with
      | some (i, o) => some (.direct i o)
      | none =>
        match s.callsStage x with
        | some i => some (.stage i)
        | none =>
          match s.callsExchange x with
          | some i => some (.exchange i)
          | none => (s.callsRemove x).map .remove

/-! ## Posting -/

/-- The pocket in which a tool lies. -/
def State.pocketOf (s : State) (i : EntryIx) : Option PocketIx :=
  match s.tool i with
  | some t =>
    match t.place with
    | .pocket k => some k
    | _ => none
  | none => none

/-- The lowest-numbered FREE pocket (R117). -/
def State.freePocket (s : State) : Option PocketIx := allPockets.find? fun k => decide (s.pocket k = .free)

/-- The tool goes to the chute: WORN or BROKEN (R117). -/
def State.toChute (s : State) (i : EntryIx) : Bool :=
  (s.tool i).any fun t => decide (t.condition = .worn) || decide (t.condition = .broken)

/-- A RETURN of tool `i` from the rack of `x` is posted to pocket `k`, or to the chute, and the return-waiting flag is
cleared; without room it is not created (R117, R121). -/
def Ev.postReturn (x : PosIx) (i : EntryIx) (k : Option PocketIx) (e : Ev) : Ev :=
  if e.st.hasRoom then
    let n := e.st.nextNumber
    let o : Order :=
      { number := n, kind := .return_, urgent := false, pos := x, incoming := none, outgoing := some i, pocket := k,
        state := .ready }
    let e := (e.upd fun s => s.enqueue o).updPos x fun p => { p with returnWaiting := false }
    match k with
    | some k => e.setPocket k (.booked n)
    | none => e
  else e

/-- The return-waiting flag is set, with STORE_FULL if it was clear (R117). -/
def Ev.awaitPocket (x : PosIx) (e : Ev) : Ev :=
  if (e.st.pos x).returnWaiting then e
  else (e.updPos x fun p => { p with returnWaiting := true }).notify .ps .storeFull

/-- The RETURN of the OFFLOADED tool on a rack: to the chute, to the lowest FREE pocket, or held for want of one (R117). -/
def Ev.callReturn (x : PosIx) (i : EntryIx) (e : Ev) : Ev :=
  if e.st.toChute i then e.postReturn x i none
  else
    match e.st.freePocket with
    | some k => e.postReturn x i (some k)
    | none => e.awaitPocket x

/-- A new order for position `x` is posted. A STAGE or DIRECT makes the need STAGING; a STAGE, DIRECT or REMOVE books
the rack (R116, Table 6-2). Without room it is not created (R121). -/
def Ev.postOrder (x : PosIx) (kind : OrderKind) (urgent : Bool) (incoming outgoing : Option EntryIx)
    (pocket : Option PocketIx) (e : Ev) : Ev :=
  if e.st.hasRoom then
    let n := e.st.nextNumber
    let o : Order :=
      { number := n, kind := kind, urgent := urgent, pos := x, incoming := incoming, outgoing := outgoing,
        pocket := pocket, state := .ready }
    let e := e.upd fun s => s.enqueue o
    let e := if kind.booksRackAtPosting then e.updPos x (·.setRack (.booked n)) else e
    if kind = .stage ∨ kind = .direct then e.setNeed x (·.progress .staging) else e
  else e

/-- A READY or BACKLOG STAGE is replaced by a DIRECT for the same sister, in the collection where the STAGE stood (R119). -/
def Ev.replaceStage (x : PosIx) (i : EntryIx) (stage : Order) (outgoing : Option EntryIx) (e : Ev) : Ev :=
  let inQueue := e.st.ret.queue.any fun o => decide (o.number = stage.number)
  let n := e.st.nextNumber
  let o : Order :=
    { number := n, kind := .direct, urgent := true, pos := x, incoming := some i, outgoing := outgoing,
      pocket := e.st.pocketOf i, state := if inQueue then .ready else .backlog }
  let e := e.upd fun s =>
    if inQueue then
      { s with ret.queue := insertOrder o (dropNumber stage.number s.ret.queue), ret.counter := succNumber n }
    else { s with ret.backlog := insertOrder o (dropNumber stage.number s.ret.backlog), ret.counter := succNumber n }
  e.updPos x (·.setRack (.booked n))

/-- The posting hand-off of a position (R95, R116). -/
def Ev.handOff (e : Ev) (x : PosIx) : Ev :=
  let s := e.st
  let outgoing := (s.mountedTool x).map (·.1)
  match s.callFor x with
  | some (.return_ i) => e.callReturn x i
  | some (.direct i none) => e.postOrder x .direct true (some i) outgoing (s.pocketOf i)
  | some (.direct i (some o)) => e.replaceStage x i o outgoing
  | some (.stage i) => e.postOrder x .stage (s.pos x).urgent (some i) none (s.pocketOf i)
  | some (.exchange i) => e.postOrder x .exchange (s.pos x).urgent (some i) outgoing none
  | some (.remove j) => e.postOrder x .remove (s.mountedBroken x) none (some j) none
  | none => e

/-- The posting hand-offs at the end of an event, in the order of the changes (R95, R106). -/
def Ev.handOffs (e : Ev) : Ev := e.touched.foldl Ev.handOff e

/-! ## The pocket arbiter (R28, R118) -/

/-- The lowest-numbered present, unsuspended position whose return-waiting flag is set. -/
def State.flagged (s : State) : Option PosIx :=
  allPositions.find? fun x => s.present x && !(s.pos x).suspended && (s.pos x).returnWaiting

/-- A pocket is offered to the arbiter, which posts the RETURN of the flagged position into it. -/
def Ev.offerPocket (e : Ev) (k : PocketIx) : Ev :=
  if e.st.pocket k = .free then
    match e.st.flagged with
    | some x =>
      match e.st.callsReturn x with
      | some i => e.postReturn x i (some k)
      | none => e
    | none => e
  else e

/-- The pockets the event has freed: FREE now, and not when the event began. -/
def State.freedSince (before s : State) : List PocketIx :=
  allPockets.filter fun k => decide (s.pocket k = .free) && decide (before.pocket k ≠ .free)

/-- The pockets the event has freed are offered in order of number (R28). -/
def Ev.offerPockets (before : State) (e : Ev) : Ev := (before.freedSince e.st).foldl Ev.offerPocket e

/-- The end of an event that began in state `before`: the hand-offs, the offers of pockets, ORDER_READY, the commit, the
output lines (R28, R40, R95, R123). -/
def finish (before : State) (e : Ev) : State :=
  ((e.handOffs.offerPockets before).st.raiseOrderReady before.ret.queue).commit.drive

end Sys2Proof.Machine
end

