-- ==== Sys2Proof/Machine/Results.lean ====
section
/-! DEFINITION. The result records of the requests and the queries, byte by byte (R177, R182 to R186). -/
namespace Sys2Proof.Machine

/-! ## Tool record (R182, Table 9-6) -/

/-- The number of the standing order that names an entry; 0 when none. -/
def State.namingNumber (s : State) (i : EntryIx) : Nat := (s.orderNaming i).elim 0 (·.number)

/-- The 40 bytes of a tool record. A free entry has live flag 0 and every other field 0 (log 6). -/
def State.toolRecord (s : State) (i : EntryIx) : List Byte :=
  match s.tool i with
  | none => List.replicate 40 0
  | some t =>
    [byte i.val, 1] ++ be 4 t.serial ++ [byte (t.type.val + 1), byte t.state.num, byte t.condition.num] ++
    placeBytes t.place ++ [byte (posNum t.promised)] ++ be 3 t.r ++ be 2 t.rem ++ be 2 (s.partsLeft t) ++
    be 3 t.nnom ++ [byte (flagNum t.fullHistory)] ++ be 3 t.parts ++ be 3 t.dresses ++
    be 3 (t.gauged.getD 16777215) ++ [byte t.doubts, byte t.trips] ++ be 2 t.peakAE ++ be 2 t.peakPower ++
    be 2 (s.namingNumber i)

/-! ## Position record (R183, Table 9-7) -/

/-- The milliseconds from the present count to a deadline, modulo 4,294,967,296 (R190). -/
def State.timeLeft (s : State) (d : Time) : Nat := (d - s.vol.ms).toNat

/-- The 34 bytes of a position record. -/
def State.positionRecord (s : State) (x : PosIx) : List Byte :=
  let p := s.pos x
  let c := s.chan x
  [byte x.val, byte p.service.num, byte (typeNum p.required)] ++ holdingBytes p.mounted ++ holdingBytes p.rack ++
  [byte (dueNum p.dueCause), byte (holdNum p.holdCause), byte (resumeNum p.resume), byte p.need.num,
   byte (entryNum p.sister), byte (flagNum p.urgent), byte (flagNum p.returnWaiting), byte p.failed,
   byte (flagNum p.suspended), byte p.mode.num, byte p.retryTime, byte p.retryLimit, byte p.retryCount,
   byte (flagNum p.window), byte c.state.num] ++ be 2 c.blankCount ++ [byte c.aeCount, byte c.powerCount,
   byte (flagNum (s.available x .ae)), byte (flagNum (s.available x .power))] ++
  be 2 (c.retryTimer.elim 0 s.timeLeft) ++ be 2 (s.mountedPartsLeft x)

/-! ## Order record (R184, Table 9-8) -/

/-- The milliseconds left to the deadline of an order: 0 for an order that is not TAKEN or IN_DOUBT, and where no
deadline runs. -/
def State.orderTimeLeft (s : State) (o : Order) : Nat := if o.busy then s.vol.swapDeadline.elim 0 s.timeLeft else 0

/-- The collection of an order and its place in it, counted from 1. -/
def State.standingPlace (s : State) (o : Order) : Nat × Nat :=
  match s.ret.queue.findIdx? fun q => decide (q.number = o.number) with
  | some k => (1, k + 1)
  | none => (2, (s.ret.backlog.findIdx fun q => decide (q.number = o.number)) + 1)

/-- The 21 bytes of an order record. -/
def State.orderRecord (s : State) (o : Order) : List Byte :=
  be 2 o.number ++ [byte o.kind.num, byte (flagNum o.urgent), byte o.state.num, byte o.pos.val,
   byte (entryNum o.incoming), byte (entryNum o.outgoing)] ++ optPlaceBytes o.incomingFrom ++
  optPlaceBytes o.incomingTo ++ optPlaceBytes o.outgoingFrom ++ o.outgoingToBytes ++ be 3 (s.orderTimeLeft o) ++
  [byte (s.standingPlace o).1, byte (s.standingPlace o).2]

/-! ## Type result (R185) -/

/-- The fixed part of a type result, 38 bytes; zeros for an UNDEFINED type (log 6). The state byte of a DEFINED one is
free (log 37). -/
def typeFixed (t : TypeIx) : Option TypeRec → List Byte
  | none => List.replicate 38 0
  | some f =>
    [byte (t.val + 1), Config.definedStateByte, byte f.kind.num] ++ be 3 f.dnew ++ be 3 f.dscrap ++ be 3 f.lnew ++ be 2 f.dd ++
    [byte f.wp, byte f.ppd] ++ be 2 f.rchg ++ be 2 f.stage ++ be 2 f.pmin ++ [byte f.policy.num, byte f.k] ++
    be 2 f.z ++ be 2 f.g ++ be 2 f.aeLimit ++ be 2 f.powerLimit ++ be 2 f.blank ++ [byte f.deglitch] ++
    be 2 f.factor ++ [byte f.learnCount]

/-- The type result: the fixed part, the live entries of the type, the positions that require it. -/
def State.typeResult (s : State) (t : TypeIx) : List Byte :=
  typeFixed t (s.typ t) ++ byte (s.entriesOf t).length :: (s.entriesOf t).map (fun i => byte i.val) ++
  byte (s.positionsOf t).length :: (s.positionsOf t).map (fun x => byte x.val)

/-! ## Life result (R177) -/

/-- The 15 bytes of a life result of an entry at a position, after the event; `o` is the outcome and `m` the layer of
a GAUGE. -/
def State.lifeResult (s : State) (x : PosIx) (i : EntryIx) (o : GaugeOutcome) (m : Nat) : List Byte :=
  match s.tool i with
  | none => List.replicate 15 0
  | some t =>
    byte i.val :: be 3 t.r ++ be 2 t.rem ++ be 2 (s.partsLeft t) ++
    [byte t.condition.num, byte (s.pos x).service.num, Config.outcomeByte o] ++ be 3 m ++ [byte t.doubts]

/-! ## CHECK, routes, waiting list, cell -/

/-- The answer of CHECK for one position: cycle code, service state, need, parts-left (R82). -/
def State.checkAnswer (s : State) (x : PosIx) : List Byte :=
  [byte (s.cycleCode x), byte (s.pos x).service.num, byte (s.pos x).need.num] ++ be 2 (s.mountedPartsLeft x)

/-- The result of CHECK: positions A, B and D of a station, in that order (R82). -/
def State.checkResult (s : State) (n : Station) : List Byte :=
  s.checkAnswer (posAt n .a) ++ s.checkAnswer (posAt n .b) ++ s.checkAnswer (posAt n .d)

/-- A route as ROUTE SET returns it: position, 255 for none, and signal (R177). -/
def routeBytes : Option Target → List Byte
  | none => [255, Config.unroutedSignalByte]
  | some g => [byte g.pos.val, byte g.signal.num]

/-- The whole routing table (R146). -/
def State.routeTable (s : State) : List Byte := allHwSlots.flatMap fun h => routeBytes (s.route h)

/-- The waiting list in its order: a count, then position, required type and urgent flag of each (R185). -/
def State.waitingResult (s : State) : List Byte :=
  byte s.ret.waiting.length ::
    s.ret.waiting.flatMap fun x =>
      [byte x.val, byte (typeNum (s.pos x).required), byte (flagNum (s.pos x).urgent)]

/-- The number of live entries. -/
def State.liveEntries (s : State) : Nat := (allEntries.filter fun i => (s.tool i).isSome).length

/-- The 16 bytes of QUERY CELL (R186). -/
def State.cellResult (s : State) : List Byte :=
  be 2 7420 ++ [1, byte s.strap.count, byte s.vol.lock.num, byte s.vol.errors, byte s.lastStart.num,
   byte s.liveEntries, byte s.ret.queue.length, byte s.ret.backlog.length, byte s.ret.waiting.length] ++
  be 2 s.ret.timeout ++ be 2 s.ret.counter ++ [byte s.ret.expired.length]

end Sys2Proof.Machine
end

