-- ==== Sys2Proof/Machine/Catalogue.lean ====
section
/-! DEFINITION. TYPE SET and TYPE ERASE (Chapter 1). -/
namespace Sys2Proof.Machine

/-! ## The operands of TYPE SET (Table 9-4, type flags) -/

/-- The kind of the request: bit 0 of the type flags. -/
def kindOf (f : TypeSetOperands) : ToolKind := if f.flags % 2 = 1 then .dresser else .wheel

/-- The sister policy of the request: bit 1 of the type flags. -/
def policyOf (f : TypeSetOperands) : Policy := if f.flags / 2 % 2 = 1 then .mostFirst else .leastFirst

/-- The request carries F: bit 2 of the type flags. -/
def givesFactor (f : TypeSetOperands) : Bool := decide (f.flags / 4 % 2 = 1)

/-- The new layer a geometry derives, 5 × (Dnew − Dscrap) (R2). -/
def layerOfGeometry (f : TypeSetOperands) : Nat := 5 * f.ddiff

/-- Every field is in its range and the cross-checks of R2 and R3 hold (R8, check 2). -/
def typeSetInRange (f : TypeSetOperands) : Bool :=
  decide (20000 ≤ f.dnew) && decide (f.dnew ≤ 1000000) && decide (1 ≤ f.ddiff) && decide (f.ddiff ≤ 40000) &&
  decide (f.ddiff + 10000 ≤ f.dnew) && decide (f.dd ≤ 500) && decide (f.wp ≤ 100) &&
  (decide (kindOf f = .wheel) || decide (f.wp = 0)) && decide (1 ≤ f.ppd) && decide (f.ppd ≤ 255) &&
  decide (f.rchg ≤ 50000) && decide (f.rchg < layerOfGeometry f) && decide (f.stage ≤ 65535) &&
  decide (f.pmin ≤ 65535) && decide (f.k ≤ 255) && decide (f.z ≤ 50000) && decide (f.g ≤ 5000) &&
  decide (f.aeLimit ≤ 32767) && decide (f.powerLimit ≤ 32767) && decide (f.blank ≤ 4095) &&
  decide (f.deglitch ≤ 255) && (!givesFactor f || (decide (500 ≤ f.factor) && decide (f.factor ≤ 1500)))

/-- The stored mix weight: a value above 16 is stored as 16 (R4). -/
def clampK (k : Nat) : Nat := min 16 k

/-- The stored deglitch frames: 0 is stored as 1, a value above 64 as 64 (R5). -/
def clampDeglitch (d : Nat) : Nat := max 1 (min 64 d)

/-- The record of a definition (R9). -/
def definedRecord (f : TypeSetOperands) : TypeRec where
  kind := kindOf f
  dnew := f.dnew
  dscrap := f.dnew - f.ddiff
  lnew := layerOfGeometry f
  dd := f.dd
  wp := f.wp
  ppd := f.ppd
  rchg := f.rchg
  stage := f.stage
  pmin := f.pmin
  policy := policyOf f
  k := clampK f.k
  z := f.z
  g := f.g
  aeLimit := f.aeLimit
  powerLimit := f.powerLimit
  blank := f.blank
  deglitch := clampDeglitch f.deglitch
  factor := if givesFactor f then f.factor else 1000
  learnCount := 0

/-- The record of an edit: the geometry and Lnew are kept, and F and the learn count unless the request carries F (R10). -/
def editedRecord (f : TypeSetOperands) (old : TypeRec) : TypeRec :=
  { definedRecord f with
    kind := old.kind
    dnew := old.dnew
    dscrap := old.dscrap
    lnew := old.lnew
    factor := if givesFactor f then f.factor else old.factor
    learnCount := if givesFactor f then 0 else old.learnCount }

/-- The request's kind, Dnew and Dscrap equal the stored values. -/
def sameGeometry (f : TypeSetOperands) (old : TypeRec) : Bool :=
  decide (kindOf f = old.kind) && decide (f.dnew = old.dnew) && decide (f.dnew - f.ddiff = old.dscrap)

/-! ## TYPE SET (R8 to R12) -/

/-- A TYPE SET of a type is an edit: the type is DEFINED and the geometry is the stored one (R10). -/
def State.edits (s : State) (t : TypeIx) (f : TypeSetOperands) : Bool := (s.typ t).any (sameGeometry f)

/-- The effect of an accepted TYPE SET: a definition (R9), or an edit with its re-evaluation and arbitration (R10 to
R12). -/
def typeSetEvent (t : TypeIx) (f : TypeSetOperands) (s : State) : State :=
  finish s <|
    if s.edits t f then
      (((Ev.start s).upd fun s => s.setType t ((s.typ t).map (editedRecord f))).reevaluate t none).arbitrateIfWaited t
    else (Ev.start s).upd fun s => s.setType t (some (definedRecord f))

/-- TYPE SET at PS (R8). -/
def typeSetBody (code : Nat) (f : TypeSetOperands) (s : State) : Answer :=
  match typeOperand code with
  | none => .error .range
  | some t =>
    if typeSetInRange f = false then .error .range
    else if s.inUse t = true ∧ s.edits t f = false then .error .inUse
    else
      let s' := typeSetEvent t f s
      .ok (s', s'.typeResult t)

/-- TYPE SET (R8 to R12). -/
def execTypeSet (p : Port) (code : Nat) (f : TypeSetOperands) (s : State) : Host.Outcome State Fault Refusal :=
  serve p 32 (asSupervisor p (typeSetBody code f s)) s

/-! ## TYPE ERASE (R13) -/

/-- The effect of an accepted TYPE ERASE (R13). -/
def typeEraseEvent (t : TypeIx) (s : State) : State := finish s ((Ev.start s).upd fun s => s.setType t none)

/-- TYPE ERASE at PS (R13). -/
def typeEraseBody (code : Nat) (s : State) : Answer :=
  match typeOperand code with
  | none => .error .range
  | some t =>
    if (s.typ t).isNone then .error .state
    else if s.inUse t then .error .inUse
    else .ok (typeEraseEvent t s, [])

/-- TYPE ERASE (R13). -/
def execTypeErase (p : Port) (code : Nat) (s : State) : Host.Outcome State Fault Refusal :=
  serve p 33 (asSupervisor p (typeEraseBody code s)) s

end Sys2Proof.Machine
end

