-- ==== Sys2Proof/Machine/Monitor.lean ====
section
/-! DEFINITION. The Breakage Monitor (Chapter 8): windows, channels, the evaluation of a delivery, trips and holds,
restarts, and OPEN, CLOSE, MONITOR SET and CLEAR RETRIES. -/
namespace Sys2Proof.Machine

/-! ## Channels -/

/-- The figures of the type of the tool mounted at a position: its limits, blank frames and deglitch frames (R5). -/
def State.mountedFigures (s : State) (x : PosIx) : TypeRec :=
  match s.mountedTool x with
  | some (_, t) => s.figures t.type
  | none => TypeRec.zero

/-- A channel begins to watch: BLANKING with its counts at 0, or WATCHING at once when the blank frames are 0 (R151,
R162). -/
def Channel.watch (blank : Nat) (c : Channel) : Channel :=
  { c with state := if blank = 0 then .watching else .blanking, blankCount := 0, aeCount := 0, powerCount := 0 }

/-- A channel becomes IDLE; its blank count becomes 0 (R153). -/
def Channel.idle (c : Channel) : Channel := { c with state := .idle, blankCount := 0 }

/-- The channel of a position is restarted (R162). -/
def State.restartChannel (s : State) (x : PosIx) : State :=
  if (s.pos x).window then
    if (s.pos x).mode = .off then s.setChan x (s.chan x).idle
    else s.setChan x ((s.chan x).watch (s.mountedFigures x).blank)
  else s

/-- The retry timer of a channel is cancelled or has expired. -/
def State.stopTimer (s : State) (x : PosIx) : State := s.setChan x { s.chan x with retryTimer := none }

/-! ## OPEN and CLOSE (R151, R152) -/

/-- The effect of an accepted OPEN (R151). -/
def openEvent (x : PosIx) (s : State) : State :=
  finish s <|
    ((Ev.start s).updPos x fun p => { p with window := true }).upd fun s' =>
      s'.setChan x <|
        if (s.pos x).mode = .off then { s.chan x with aeCount := 0, powerCount := 0 }
        else (s.chan x).watch (s.mountedFigures x).blank

/-- OPEN at a station port (R151). -/
def openBody (st : Station) (slot : Nat) (s : State) : Answer :=
  match slotOperand slot with
  | none => .error .range
  | some sl =>
    let x := posAt st sl
    let p := s.pos x
    if p.window then .error .state
    else if p.service ≠ .serving ∧ p.service ≠ .due then .error .state
    else
      let s' := openEvent x s
      .ok (s', s'.positionRecord x)

/-- OPEN (R151). -/
def execOpen (p : Port) (slot : Nat) (s : State) : Host.Outcome State Fault Refusal :=
  serve p 2 (asStation p fun st => openBody st slot s) s

/-- The effect of an accepted CLOSE: with the window open it closes and the channel becomes IDLE with its counts at 0; a
retry timer goes on (R152). -/
def closeEvent (x : PosIx) (s : State) : State :=
  if (s.pos x).window then
    finish s <|
      ((Ev.start s).updPos x fun p => { p with window := false }).upd fun s' =>
        s'.setChan x { s.chan x with state := .idle, blankCount := 0, aeCount := 0, powerCount := 0 }
  else s

/-- CLOSE at a station port (R152). -/
def closeBody (st : Station) (slot : Nat) (s : State) : Answer :=
  match slotOperand slot with
  | none => .error .range
  | some sl =>
    let s' := closeEvent (posAt st sl) s
    .ok (s', s'.positionRecord (posAt st sl))

/-- CLOSE (R152). -/
def execClose (p : Port) (slot : Nat) (s : State) : Host.Outcome State Fault Refusal :=
  serve p 3 (asStation p fun st => closeBody st slot s) s

/-! ## A delivery (R153 to R160) -/

/-- The sample a delivery carries for a signal of a position: validity and value; none when no slot is routed to it
(R144). -/
def State.sampleFor (s : State) (words : Vector SampleWord 16) (x : PosIx) (g : Signal) : Option (Bool × Nat) :=
  (s.slotFor x g).map fun h => (sampleValid words[h], sampleValue words[h])

/-- The deglitch count of a signal after a delivery (R154). -/
def deglitchCount (limit : Nat) (sample : Option (Bool × Nat)) (n : Nat) : Nat :=
  match sample with
  | none => n
  | some (valid, v) => if valid && decide (limit < v) then n + 1 else 0

/-- The peak of a signal after a delivery (R155). -/
def peakAfter (sample : Option (Bool × Nat)) (peak : Nat) : Nat :=
  match sample with
  | none => peak
  | some (valid, v) => if valid && decide (peak < v) then v else peak

/-- A hold asked for by the monitor: HELD with its cause, the notice HELD, then the need test (R76, R93). -/
def Ev.hold (x : PosIx) (c : HoldCause) (e : Ev) : Ev :=
  ((e.updPos x (·.hold c)).notifySlot x .held).needTest x

/-- What the mode of a position makes of a trip (R158 to R160). -/
def Ev.tripByMode (x : PosIx) (e : Ev) : Ev :=
  let p := e.st.pos x
  match p.mode with
  | .off | .report => e
  | .hold => e.hold x .trip
  | .retry =>
    if p.retryCount < p.retryLimit then
      (((e.updPos x fun p => { p with retryCount := p.retryCount + 1 }).upd fun s =>
        s.setChan x { s.chan x with retryTimer := some (s.vol.ms + BitVec.ofNat 32 (p.retryTime * 1000)) }).hold x .retry)
    else e.hold x .trip

/-- A trip of the channel of a position, with tool `i` mounted (R157). -/
def Ev.trip (x : PosIx) (i : EntryIx) (e : Ev) : Ev :=
  (((((e.upd fun s => s.setChan x { s.chan x with state := .spent, aeCount := 0, powerCount := 0 }).updTool i
    fun t => { t with trips := min 255 (t.trips + 1) }).notifySlot x .trip).notify .ps .anyTrip).tripByMode x)

/-- A WATCHING channel takes a delivery: peaks, counts, and a trip when a count reaches the deglitch frames of a watched
position (R154, R155). -/
def Ev.evaluate (words : Vector SampleWord 16) (x : PosIx) (e : Ev) : Ev :=
  match e.st.mountedTool x with
  | none => e
  | some (i, t) =>
    let f := e.st.figures t.type
    let ae := e.st.sampleFor words x .ae
    let pw := e.st.sampleFor words x .power
    let c := e.st.chan x
    let a := deglitchCount f.aeLimit ae c.aeCount
    let b := deglitchCount f.powerLimit pw c.powerCount
    let e := (e.updTool i fun t => { t with peakAE := peakAfter ae t.peakAE, peakPower := peakAfter pw t.peakPower }).upd
      fun s => s.setChan x { c with aeCount := a, powerCount := b }
    if e.st.watched x = true ∧ (f.deglitch ≤ a ∨ f.deglitch ≤ b) then e.trip x i else e

/-- A BLANKING channel counts a delivery (R153). -/
def Channel.countBlank (blank : Nat) (c : Channel) : Channel :=
  { c with
    blankCount := c.blankCount + 1
    state := if blank ≤ c.blankCount + 1 then .watching else c.state }

/-- The channel of a position takes a delivery (Table 8-1). -/
def Ev.deliverTo (words : Vector SampleWord 16) (e : Ev) (x : PosIx) : Ev :=
  if e.st.present x then
    match (e.st.chan x).state with
    | .idle | .spent => e
    | .blanking => e.upd fun s => s.setChan x ((s.chan x).countBlank (s.mountedFigures x).blank)
    | .watching => e.evaluate words x
  else e

/-- The delivery of a frame to every present channel, in position order (R144, R157). -/
def Ev.deliver (words : Vector SampleWord 16) (e : Ev) : Ev := allPositions.foldl (Ev.deliverTo words) e

/-! ## MONITOR SET and CLEAR RETRIES (R167 to R169) -/

/-- The channel after a change of mode (R168). -/
def State.changeMode (s : State) (x : PosIx) : State :=
  if (s.pos x).service = .held then s else s.restartChannel x

/-- The effect of an accepted MONITOR SET (R167, R168). -/
def monitorEvent (x : PosIx) (m : Mode) (t l : Nat) (s : State) : State :=
  finish s <|
    ((Ev.start s).updPos x fun p =>
      { p with mode := m, retryTime := t, retryLimit := l, retryCount := min l p.retryCount }).upd fun s' =>
      if (s.pos x).mode = m then s' else s'.changeMode x

/-- A retry time the monitor takes, in seconds (R167). -/
def goodRetryTime (t : Nat) : Bool := decide (t = 1) || decide (t = 2) || decide (t = 4) || decide (t = 8)

/-- A supervisor request's position: in range and present (R71). -/
def State.presentOperand (s : State) (v : Nat) : Option PosIx :=
  match positionOperand v with
  | some x => if s.present x then some x else none
  | none => none

/-- MONITOR SET at PS (R167). -/
def monitorBody (v m t l : Nat) (s : State) : Answer :=
  match s.presentOperand v, modeOperand m with
  | some x, some m =>
    if goodRetryTime t = false ∨ l = 0 ∨ 7 < l then .error .range
    else
      let s' := monitorEvent x m t l s
      .ok (s', s'.positionRecord x)
  | _, _ => .error .range

/-- MONITOR SET (R167, R168). -/
def execMonitorSet (p : Port) (v m t l : Nat) (s : State) : Host.Outcome State Fault Refusal :=
  serve p 39 (asSupervisor p (monitorBody v m t l s)) s

/-- The effect of CLEAR RETRIES (R169). -/
def clearRetriesEvent (x : PosIx) (s : State) : State :=
  finish s ((Ev.start s).updPos x fun p => { p with retryCount := 0 })

/-- CLEAR RETRIES at PS (R169). -/
def clearRetriesBody (v : Nat) (s : State) : Answer :=
  match s.presentOperand v with
  | none => .error .range
  | some x =>
    let s' := clearRetriesEvent x s
    .ok (s', s'.positionRecord x)

/-- CLEAR RETRIES (R169). -/
def execClearRetries (p : Port) (v : Nat) (s : State) : Host.Outcome State Fault Refusal :=
  serve p 40 (asSupervisor p (clearRetriesBody v s)) s

end Sys2Proof.Machine
end

