-- ==== Sys2Proof/Machine/Cell.lean ====
section
/-! DEFINITION. ASSIGN, DECLARE of a position, RESUME, TIMEOUT SET and ROUTE SET (Chapters 4, 6 and 7). -/
namespace Sys2Proof.Machine

/-! ## ASSIGN (R89, R90) -/

/-- A required type as ASSIGN gives it: 0 for none, no reading above 16 (R89). -/
def requiredOperand (code : Nat) : Option (Option TypeIx) :=
  if code = 0 then some none else (typeOperand code).map some

/-- The position's REMOVE that the changer has not taken is withdrawn (R132). -/
def Ev.withdrawRemove (x : PosIx) (e : Ev) : Ev :=
  match e.st.waitingRemove x with
  | some o => e.withdraw o
  | none => e

/-- The effect of an ASSIGN of a type other than the one required (R89, R132). -/
def assignEvent (x : PosIx) (req : Option TypeIx) (s : State) : State :=
  let e := (Ev.start s).updPos x fun p => { p with required := req }
  let e := if req.isSome then e.withdrawRemove x else e
  finish s ((e.cancelNeed x).needTest x)

/-- A required type other than 0 is UNDEFINED. -/
def State.undefinedType (s : State) (req : Option TypeIx) : Bool := req.any fun t => (s.typ t).isNone

/-- A required type other than 0 is of a kind the slot does not take (R2). -/
def State.kindMismatch (s : State) (x : PosIx) (req : Option TypeIx) : Bool :=
  req.any fun t => decide ((s.figures t).kind ≠ (slotOf x).kind)

/-- ASSIGN at PS (R89). -/
def assignBody (v code : Nat) (s : State) : Answer :=
  match s.presentOperand v, requiredOperand code with
  | some x, some req =>
    if s.undefinedType req then .error .state
    else if s.kindMismatch x req then .error .range
    else
      let s' := if (s.pos x).required = req then s else assignEvent x req s
      .ok (s', s'.positionRecord x)
  | _, _ => .error .range

/-- ASSIGN (R89, R90). -/
def execAssign (p : Port) (v code : Nat) (s : State) : Host.Outcome State Fault Refusal :=
  serve p 38 (asSupervisor p (assignBody v code s)) s

/-! ## DECLARE of a position (R91) -/

/-- An UNKNOWN rack becomes EMPTY, an UNKNOWN mounted field none (R91, step 2). -/
def Position.clearUnknown (p : Position) : Position :=
  { p with
    rack := if p.rack = .unknown then .bare else p.rack
    mounted := if p.mounted = .unknown then .bare else p.mounted }

/-- The due cause that follows a condition; absent for SOUND (R74). -/
def Condition.cause : Condition → Option DueCause
  | .sound => none
  | .worn => some .worn
  | .doubtful => some .doubt
  | .broken => some .broken

/-- The judgement of an UNCERTAIN position by the condition of its mounted tool, if any (table of R91). -/
def Position.judge (c : Option Condition) (p : Position) : Position :=
  match c with
  | none => { p with service := .vacant, dueCause := none, holdCause := none, resume := none }
  | some .sound => { p with service := .serving, dueCause := none, holdCause := none, resume := none }
  | some c => { p with service := .due, dueCause := c.cause, holdCause := none, resume := none }

/-- The tool an UNCERTAIN position is judged from. -/
def State.judgedCondition (s : State) (x : PosIx) : Option Condition := (s.mountedTool x).map fun m => m.2.condition

/-- Steps 3 and 4 of R91 for a position that was UNCERTAIN: the judgement, the notice DUE when it is DUE, the triggers. -/
def Ev.judge (x : PosIx) (e : Ev) : Ev :=
  let c := e.st.judgedCondition x
  let e := e.updPos x (·.judge c)
  match c with
  | none => e
  | some .sound => e.evalTriggers x
  | some _ => (e.notifySlot x .due).evalTriggers x

/-- The effect of an accepted DECLARE of a position (R91). A position that was not UNCERTAIN keeps its service state; one
that is HELD keeps its hold cause and resume state with it (R74; DEDUCED, log 38). -/
def declarePositionEvent (x : PosIx) (s : State) : State :=
  let e := ((Ev.start s).cancelNeed x).updPos x Position.clearUnknown
  let e := if (s.pos x).service = .uncertain then e.judge x else e
  finish s (e.needTest x)

/-- DECLARE of a position at PS (R91). -/
def declarePositionBody (v : Nat) (s : State) : Answer :=
  match s.presentOperand v with
  | none => .error .range
  | some x =>
    if (s.pos x).service = .uncertain ∨ (s.pos x).rack = .unknown then
      let s' := declarePositionEvent x s
      .ok (s', s'.positionRecord x)
    else .error .state

/-- DECLARE of a position (R91). -/
def execDeclarePosition (p : Port) (v : Nat) (s : State) : Host.Outcome State Fault Refusal :=
  serve p 37 (asSupervisor p (declarePositionBody v s)) s

/-! ## RESUME (R136) -/

/-- Arbitration for the required type of a position that stands on the waiting list (R112). -/
def Ev.arbitrateFor (x : PosIx) (e : Ev) : Ev :=
  if x ∈ e.st.ret.waiting then
    match (e.st.pos x).required with
    | some t => e.arbitrate t
    | none => e
  else e

/-- The effect of an accepted RESUME (R136). -/
def resumeEvent (x : PosIx) (s : State) : State :=
  finish s <|
    ((((Ev.start s).updPos x fun p => { p with suspended := false, failed := 0 }).arbitrateFor x).needTest x)

/-- RESUME at PS (R136). -/
def resumeBody (v : Nat) (s : State) : Answer :=
  match s.presentOperand v with
  | none => .error .range
  | some x =>
    if (s.pos x).suspended then
      let s' := resumeEvent x s
      .ok (s', s'.positionRecord x)
    else .error .state

/-- RESUME (R136). -/
def execResume (p : Port) (v : Nat) (s : State) : Host.Outcome State Fault Refusal :=
  serve p 43 (asSupervisor p (resumeBody v s)) s

/-! ## TIMEOUT SET (R135) -/

/-- The effect of an accepted TIMEOUT SET (R135). -/
def timeoutEvent (t : Nat) (s : State) : State := finish s ((Ev.start s).upd fun s => { s with ret.timeout := t })

/-- TIMEOUT SET at PS (R135). -/
def timeoutBody (t : Nat) (s : State) : Answer :=
  if t < 30 ∨ 1800 < t then .error .range else .ok (timeoutEvent t s, be 2 t)

/-- TIMEOUT SET (R135). -/
def execTimeoutSet (p : Port) (t : Nat) (s : State) : Host.Outcome State Fault Refusal :=
  serve p 42 (asSupervisor p (timeoutBody t s)) s

/-! ## ROUTE SET (R146) -/

/-- A route as ROUTE SET gives it: a signal of AE or POWER, which position 255 for none carries too (log 7), and else a
target that is in range and present; no reading otherwise (R146, check 2). -/
def State.routeOperand (s : State) (v signal : Nat) : Option (Option Target) :=
  match signalOperand signal with
  | none => none
  | some g => if v = 255 then some none else (s.presentOperand v).map fun x => some ⟨x, g⟩

/-- Another slot's route already names the target (R146, check 3). -/
def State.routedElsewhere (s : State) (h : HwSlot) (t : Option Target) : Bool :=
  t.isSome && allHwSlots.any fun k => decide (k ≠ h) && decide (s.route k = t)

/-- The deglitch count of a target's signal becomes 0 (R156). -/
def State.clearDeglitch (s : State) : Option Target → State
  | none => s
  | some g =>
    match g.signal with
    | .ae => s.setChan g.pos { s.chan g.pos with aeCount := 0 }
    | .power => s.setChan g.pos { s.chan g.pos with powerCount := 0 }

/-- The effect of a ROUTE SET of a route other than the slot's: the route is replaced, and the deglitch counts of the
signals whose route is set, cleared or moved become 0 (R146, R156). -/
def routeEvent (h : HwSlot) (t : Option Target) (s : State) : State :=
  finish s ((Ev.start s).upd fun s => ((s.setRoute h t).clearDeglitch (s.route h)).clearDeglitch t)

/-- ROUTE SET at PS (R146). -/
def routeBody (slot v signal : Nat) (s : State) : Answer :=
  match hwSlotOperand slot, s.routeOperand v signal with
  | some h, some t =>
    if s.routedElsewhere h t then .error .duplicate
    else
      let s' := if s.route h = t then s else routeEvent h t s
      .ok (s', s'.routeTable)
  | _, _ => .error .range

/-- ROUTE SET (R146). -/
def execRouteSet (p : Port) (slot v signal : Nat) (s : State) : Host.Outcome State Fault Refusal :=
  serve p 41 (asSupervisor p (routeBody slot v signal s)) s

end Sys2Proof.Machine
end

