-- ==== Sys2Proof/Machine/Queries.lean ====
section
/-! DEFINITION. The queries (9.5 of Chapter 9): each answers from the state as it stands and changes only the mailbox. -/
namespace Sys2Proof.Machine

/-! ## QUERY TYPE (R185) -/

/-- QUERY TYPE at PS. -/
def queryTypeBody (code : Nat) (s : State) : Answer :=
  match typeOperand code with
  | none => .error .range
  | some t => .ok (s, s.typeResult t)

/-- QUERY TYPE (R185). -/
def execQueryType (p : Port) (code : Nat) (s : State) : Host.Outcome State Fault Refusal :=
  serve p 48 (asSupervisor p (queryTypeBody code s)) s

/-! ## QUERY TOOL (R182) -/

/-- The tool is MOUNTED on a spindle or STAGED on a rack of the station (R182). -/
def Tool.atStation (n : Station) (t : Tool) : Bool :=
  match t.place with
  | .spindle x => decide (t.state = .mounted) && decide (stationOf x = n)
  | .rack x => decide (t.state = .staged) && decide (stationOf x = n)
  | _ => false

/-- A port may ask for an entry: PC and PS for any, a station for the tools at its own positions (R182). -/
def State.mayAsk (s : State) (p : Port) (i : EntryIx) : Bool :=
  match p with
  | .station n => (s.tool i).any (Tool.atStation n)
  | _ => true

/-- QUERY TOOL. -/
def queryToolBody (p : Port) (entry : Nat) (s : State) : Answer :=
  match entryOperand entry with
  | none => .error .range
  | some i => if s.mayAsk p i then .ok (s, s.toolRecord i) else .error .role

/-- QUERY TOOL (R182). -/
def execQueryTool (p : Port) (entry : Nat) (s : State) : Host.Outcome State Fault Refusal :=
  serve p 49 (queryToolBody p entry s) s

/-! ## QUERY POSITION (R183) -/

/-- QUERY POSITION: a slot from a station, a present position from PS; not a request of PC. -/
def queryPositionBody (p : Port) (v : Nat) (s : State) : Answer :=
  match p with
  | .pc => .error .role
  | .station n =>
    match slotOperand v with
    | none => .error .range
    | some sl => .ok (s, s.positionRecord (posAt n sl))
  | .ps =>
    match s.presentOperand v with
    | none => .error .range
    | some x => .ok (s, s.positionRecord x)

/-- QUERY POSITION (R183). -/
def execQueryPosition (p : Port) (v : Nat) (s : State) : Host.Outcome State Fault Refusal :=
  serve p 50 (queryPositionBody p v s) s

/-! ## QUERY ORDER (R184) -/

/-- The order a number names: the head of the queue for 0, else the standing order that holds it. -/
def State.askedOrder (s : State) (n : Nat) : Option Order :=
  if n = 0 then s.ret.queue.head? else s.standing.find? fun o => decide (o.number = n)

/-- QUERY ORDER at PC and PS. -/
def queryOrderBody (p : Port) (n : Nat) (s : State) : Answer :=
  match p with
  | .station _ => .error .role
  | _ =>
    match s.askedOrder n with
    | none => .error .noOrder
    | some o => .ok (s, s.orderRecord o)

/-- QUERY ORDER (R184). -/
def execQueryOrder (p : Port) (n : Nat) (s : State) : Host.Outcome State Fault Refusal :=
  serve p 51 (queryOrderBody p n s) s

/-! ## QUERY WAITING and QUERY CELL (R185, R186) -/

/-- QUERY WAITING (R185). -/
def execQueryWaiting (p : Port) (s : State) : Host.Outcome State Fault Refusal :=
  serve p 52 (asSupervisor p (.ok (s, s.waitingResult))) s

/-- QUERY CELL (R186). -/
def execQueryCell (p : Port) (s : State) : Host.Outcome State Fault Refusal :=
  serve p 53 (asSupervisor p (.ok (s, s.cellResult))) s

end Sys2Proof.Machine
end

