-- ==== Sys2Proof/Machine/Changer.lean ====
section
/-! DEFINITION. TAKE, DONE and FAIL (Chapter 6), the learning update (R66, R67), and the expiry of the swap deadline
(R133). -/
namespace Sys2Proof.Machine

/-! ## TAKE (R124) -/

/-- The first READY order of a present position (R124). -/
def State.nextOrder (s : State) : Option Order := s.ret.queue.find? s.takeable

/-- A deadline the swap timeout ahead of the present count (R124, R135, R189). -/
def State.swapDeadlineFrom (s : State) (now : Time) : Time := now + BitVec.ofNat 32 (s.ret.timeout * 1000)

/-- The order becomes TAKEN at the head of the queue, with its deadline (R124, step 1). -/
def State.headTaken (s : State) (o : Order) : State :=
  { s with
    ret.queue := { o with state := .taken } :: dropNumber o.number s.ret.queue
    vol.swapDeadline := some (s.swapDeadlineFrom s.vol.ms) }

/-- A tool of the order becomes MOVING at GRIPPER and keeps its promise (R124, step 2). -/
def Ev.grip (i : Option EntryIx) (e : Ev) : Ev :=
  match i with
  | some i => e.updTool i (·.put .moving .gripper)
  | none => e

/-- The sister's pocket is booked at the TAKE of a STAGE or DIRECT (Table 6-2). -/
def Ev.bookPocket (o : Order) (e : Ev) : Ev :=
  match o.kind, o.pocket with
  | .stage, some k | .direct, some k => e.setPocket k (.booked o.number)
  | _, _ => e

/-- The rack is booked at the TAKE of an EXCHANGE or RETURN (Table 6-2). -/
def Ev.bookRack (o : Order) (e : Ev) : Ev :=
  match o.kind with
  | .exchange | .return_ => e.updPos o.pos (·.setRack (.booked o.number))
  | _ => e

/-- The spindle is booked and the position becomes EXCHANGING at the TAKE of an EXCHANGE, DIRECT or REMOVE (R79). -/
def Ev.bookSpindle (o : Order) (e : Ev) : Ev :=
  if o.kind.spindle then e.updPos o.pos fun p => (p.setMounted (.booked o.number)).exchange else e

/-- The effect of an accepted TAKE of an order (R124). -/
def takeEvent (o : Order) (s : State) : State :=
  finish s <|
    (((((Ev.start s).upd (·.headTaken o)).grip o.incoming).grip o.outgoing).bookPocket o).bookRack o |>.bookSpindle o

/-- TAKE at PC (R124). -/
def takeBody (s : State) : Answer :=
  if s.busyOrder.isSome then .error .busy
  else
    match s.nextOrder with
    | none => .error .noOrder
    | some o =>
      let s' := takeEvent o s
      .ok (s', s'.orderRecord { o with state := .taken })

/-- TAKE (R124). -/
def execTake (p : Port) (s : State) : Host.Outcome State Fault Refusal := serve p 16 (asChanger p (takeBody s)) s

/-! ## The learning update (R65 to R67) -/

/-- The outgoing tool `j` teaches its type if it may; the type's other mounted tools, but `but`, are re-evaluated, the
type is arbitrated and LEARNED is set. -/
def Ev.learn (j : EntryIx) (but : Option EntryIx) (e : Ev) : Ev :=
  match e.st.tool j with
  | none => e
  | some t =>
    match e.st.typ t.type with
    | none => e
    | some f =>
      if f.teaches t then
        (((e.upd fun s => s.setType t.type (some (f.learn t))).reevaluate t.type but).arbitrateIfWaited t.type).notify .ps
          .learned
      else e

/-- The learning update for the outgoing tool of an order, if it has one. -/
def Ev.learnFrom (j but : Option EntryIx) (e : Ev) : Ev :=
  match j with
  | some j => e.learn j but
  | none => e

/-! ## DONE (R126 to R128, R79) -/

/-- The pocket of the order becomes FREE (Table 2-4). -/
def Ev.freePocket (k : Option PocketIx) (e : Ev) : Ev :=
  match k with
  | some k => e.setPocket k .free
  | none => e

/-- The failed-order count of a position becomes 0 (R130). -/
def Ev.clearFailed (x : PosIx) (e : Ev) : Ev := e.updPos x fun p => { p with failed := 0 }

/-- The tool is promised to the position. -/
def State.promisedTo (s : State) (i : EntryIx) (x : PosIx) : Bool := (s.tool i).any fun t => decide (t.promised = some x)

/-- The sister arrives on the rack: STAGED when it is still promised, OFFLOADED otherwise (R126). -/
def Ev.arriveStaged (x : PosIx) (i : EntryIx) (e : Ev) : Ev :=
  if e.st.promisedTo i x then
    (((e.updTool i (·.put .staged (.rack x))).updPos x (·.setRack (.entry i))).setNeed x (·.progress .staged)).notifySlot x
      .staged
  else (e.updTool i (·.put .offloaded (.rack x))).updPos x (·.setRack (.entry i))

/-- DONE of a STAGE (R126). -/
def Ev.doneStage (o : Order) (e : Ev) : Ev :=
  let e := e.freePocket o.pocket
  let e :=
    match o.incoming with
    | some i => e.arriveStaged o.pos i
    | none => e.updPos o.pos (·.setRack .bare)
  e.clearFailed o.pos

/-- The outgoing tool becomes OFFLOADED on the rack, which names it; with none the rack becomes EMPTY (R127). -/
def Ev.offloadOutgoing (o : Order) (e : Ev) : Ev :=
  match o.outgoing with
  | some j => (e.updTool j (·.put .offloaded (.rack o.pos))).updPos o.pos (·.setRack (.entry j))
  | none => e.updPos o.pos (·.setRack .bare)

/-- DONE of an EXCHANGE or DIRECT that brings tool `i` (R79, R127). -/
def Ev.doneExchange (o : Order) (i : EntryIx) (e : Ev) : Ev :=
  let x := o.pos
  let e := ((e.updTool i (·.mount x)).offloadOutgoing o).freePocket o.pocket
  let e := ((e.updPos x fun p => (p.serve i).clearCounts).clearNeed x).notifySlot x .exchanged
  ((e.learnFrom o.outgoing (some i)).evalTriggers x).needTest x

/-- DONE of a REMOVE (R79, R127). -/
def Ev.doneRemove (o : Order) (e : Ev) : Ev :=
  let x := o.pos
  let e := (e.offloadOutgoing o).updPos x fun p => p.vacate.clearCounts
  (e.learnFrom o.outgoing none).needTest x

/-- The returned tool arrives in its pocket: STORED, or QUARANTINED when it is DOUBTFUL (R128). -/
def Ev.storeReturned (j : EntryIx) (k : PocketIx) (e : Ev) : Ev :=
  let doubtful := (e.st.tool j).any fun t => decide (t.condition = .doubtful)
  let e := e.setPocket k (.holds j)
  if doubtful then (e.updTool j (·.put .quarantined (.pocket k))).notify .ps .quarantine
  else (e.updTool j (·.put .stored (.pocket k))).offerTool j

/-- DONE of a RETURN: to its pocket, or to the chute, where the entry is freed (R128). -/
def Ev.doneReturn (o : Order) (e : Ev) : Ev :=
  let e := e.updPos o.pos (·.setRack .bare)
  let e :=
    match o.outgoing, o.pocket with
    | some j, some k => e.storeReturned j k
    | some j, none => e.upd fun s => s.setTool j none
    | none, k => e.freePocket k
  e.clearFailed o.pos

/-- The changes of a DONE by the kind of the order. -/
def Ev.done (o : Order) (e : Ev) : Ev :=
  match o.kind, o.incoming with
  | .stage, _ => e.doneStage o
  | .exchange, some i | .direct, some i => e.doneExchange o i
  | .exchange, none | .direct, none | .remove, _ => e.doneRemove o
  | .return_, _ => e.doneReturn o

/-- The effect of an accepted DONE: the order is retired, then the changes of its kind (R125). -/
def doneEvent (o : Order) (s : State) : State := finish s (((Ev.start s).upd (·.retire o.number)).done o)

/-- The order that DONE and FAIL name by number: TAKEN or IN_DOUBT, of a present position (R125, check 3). -/
def State.reported (s : State) (n : Nat) : Option Order :=
  match s.busyOrder with
  | some o => if o.number = n ∧ s.present o.pos = true then some o else none
  | none => none

/-- The refusal of a number that is not the taken order's: LATE for an expired one, STATE otherwise (R125). -/
def State.notReported (s : State) (n : Nat) : Status := if n ∈ s.ret.expired then .late else .state

/-- The result of DONE and FAIL: number and kind of the retired order (R177). -/
def retiredResult (o : Order) : List Byte := be 2 o.number ++ [byte o.kind.num]

/-- DONE at PC (R125). -/
def doneBody (n : Nat) (s : State) : Answer :=
  if n = 0 then .error .range
  else
    match s.reported n with
    | some o => .ok (doneEvent o s, retiredResult o)
    | none => .error (s.notReported n)

/-- DONE (R125 to R128). -/
def execDone (p : Port) (n : Nat) (s : State) : Host.Outcome State Fault Refusal := serve p 17 (asChanger p (doneBody n s)) s

/-! ## FAIL (R129 to R131, R80)

`missing` is the tool that a FAIL with EMPTY names; it is none for GRIP and BLOCKED. -/

/-- A sister goes back to its pocket: RESERVED with its need RESERVED when still promised, STORED otherwise (R129). -/
def Ev.backToPocket (x : PosIx) (i : EntryIx) (k : PocketIx) (e : Ev) : Ev :=
  let e := e.setPocket k (.holds i)
  if e.st.promisedTo i x then (e.updTool i (·.put .reserved (.pocket k))).setNeed x (·.progress .reserved)
  else e.updTool i (·.put .stored (.pocket k))

/-- A sister goes back to the rack: STAGED when still promised, OFFLOADED otherwise (R129). -/
def Ev.backToRack (x : PosIx) (i : EntryIx) (e : Ev) : Ev :=
  let e := e.updPos x (·.setRack (.entry i))
  if e.st.promisedTo i x then e.updTool i (·.put .staged (.rack x)) else e.updTool i (·.put .offloaded (.rack x))

/-- The incoming tool at a FAIL: back to its from-place, or QUARANTINED at UNKNOWN and its from-place without it (R129,
R131). -/
def Ev.failIncoming (o : Order) (missing : Option EntryIx) (e : Ev) : Ev :=
  match o.incoming with
  | none => e
  | some i =>
    match o.kind, o.pocket with
    | .exchange, _ =>
      if missing = some i then (e.updTool i Tool.lose).updPos o.pos (·.setRack .bare) else e.backToRack o.pos i
    | _, some k => if missing = some i then (e.updTool i Tool.lose).setPocket k .free else e.backToPocket o.pos i k
    | _, none => e

/-- The outgoing tool of an EXCHANGE, DIRECT or REMOVE at a FAIL: MOUNTED again, the position RELEASED; or QUARANTINED
at UNKNOWN, the position VACANT. With no outgoing tool the position is VACANT again (R80, R129, R131). -/
def Ev.failSpindle (o : Order) (missing : Option EntryIx) (e : Ev) : Ev :=
  match o.outgoing with
  | none => e.updPos o.pos Position.vacate
  | some j =>
    if missing = some j then (e.updTool j Tool.lose).updPos o.pos Position.vacate
    else (e.updTool j (·.put .mounted (.spindle o.pos))).updPos o.pos (·.giveBack j)

/-- The tool of a RETURN at a FAIL: OFFLOADED on the rack again, or QUARANTINED at UNKNOWN and the rack EMPTY; the
destination pocket becomes FREE (R129, R131). -/
def Ev.failReturn (o : Order) (missing : Option EntryIx) (e : Ev) : Ev :=
  let e :=
    match o.outgoing with
    | none => e
    | some j =>
      if missing = some j then (e.updTool j Tool.lose).updPos o.pos (·.setRack .bare)
      else (e.updTool j (·.put .offloaded (.rack o.pos))).updPos o.pos (·.setRack (.entry j))
  e.freePocket o.pocket

/-- Every tool and place of the order at a FAIL (R129, R131). -/
def Ev.failMoves (o : Order) (missing : Option EntryIx) (e : Ev) : Ev :=
  match o.kind with
  | .return_ => e.failReturn o missing
  | _ =>
    let e := if o.kind.booksRackAtPosting then e.updPos o.pos (·.setRack .bare) else e
    let e := if o.kind.spindle then e.failSpindle o missing else e
    e.failIncoming o missing

/-- The sister after a FAIL: lost, its need is cancelled by the loss (R94); back unpromised in its pocket, it is arbitrated
(R109, R129). -/
def Ev.failSister (o : Order) (missing : Option EntryIx) (e : Ev) : Ev :=
  match o.incoming with
  | none => e
  | some i => if missing = some i then e.loseSister o.pos i else e.offerTool i

/-- A FAIL with GRIP or BLOCKED counts; the count that becomes 2 suspends the position (R130). -/
def Ev.countFailure (x : PosIx) (e : Ev) : Ev :=
  let old := (e.st.pos x).failed
  if old = 1 then (e.updPos x fun p => { p with failed := 2, suspended := true }).notify .ps .suspended
  else e.updPos x fun p => { p with failed := min 2 (p.failed + 1) }

/-- What a FAIL does beside the tools and places: the count for GRIP and BLOCKED, the notice QUARANTINE for EMPTY (R130,
R131). -/
def Ev.failReport (o : Order) (missing : Option EntryIx) (e : Ev) : Ev :=
  if missing.isSome then e.notify .ps .quarantine else e.countFailure o.pos

/-- The need test of a FAIL that changed the service state (R80, R93). -/
def Ev.failNeed (o : Order) (e : Ev) : Ev := if o.kind.spindle then e.needTest o.pos else e

/-- The effect of an accepted FAIL (R125, R129 to R131). -/
def failEvent (o : Order) (missing : Option EntryIx) (s : State) : State :=
  finish s <|
    (((((Ev.start s).upd (·.retire o.number)).failMoves o missing).failSister o missing).failReport o missing).failNeed o

/-- The tool a FAIL names: none for GRIP and BLOCKED; for EMPTY a tool of the order, no reading otherwise (6.6). -/
def missingOperand (o : Order) (reason : FailReason) (entry : Nat) : Option (Option EntryIx) :=
  match reason with
  | .grip | .blocked => some none
  | .empty =>
    match entryOperand entry with
    | some i => if o.names i then some (some i) else none
    | none => none

/-- FAIL at PC (R125). -/
def failBody (n reason entry : Nat) (s : State) : Answer :=
  match reasonOperand reason with
  | none => .error .range
  | some r =>
    if n = 0 then .error .range
    else
      match s.reported n with
      | none => .error (s.notReported n)
      | some o =>
        match missingOperand o r entry with
        | none => .error .range
        | some missing => .ok (failEvent o missing s, retiredResult o)

/-- FAIL (R125, R129 to R131). -/
def execFail (p : Port) (n reason entry : Nat) (s : State) : Host.Outcome State Fault Refusal :=
  serve p 18 (asChanger p (failBody n reason entry s)) s

/-! ## The swap deadline (R133, R81) -/

/-- A tool of the expired order becomes QUARANTINED at UNKNOWN (R133, step 1). -/
def Ev.loseTool (i : Option EntryIx) (e : Ev) : Ev :=
  match i with
  | some i => e.updTool i Tool.lose
  | none => e

/-- A pocket the order booked becomes UNKNOWN (R133, step 2). -/
def Ev.losePocket (n : Nat) (k : Option PocketIx) (e : Ev) : Ev :=
  match k with
  | some k => if e.st.pocket k = .booked n then e.setPocket k .unknown else e
  | none => e

/-- A place of the position that the order booked becomes UNKNOWN (R78, R133). -/
def Holding.lose (n : Nat) (h : Holding) : Holding := if h = .booked n then .unknown else h

/-- The rack and the spindle that the order booked become UNKNOWN; an order that had booked the spindle leaves the
position UNCERTAIN (R81, R133). -/
def Position.expire (o : Order) (p : Position) : Position :=
  let q := { p with rack := p.rack.lose o.number, mounted := p.mounted.lose o.number }
  if o.kind.spindle then q.lose else q

/-- The expired-number memory after one more number: the last 4 (R133). -/
def rememberExpired (n : Nat) (m : List Nat) : List Nat := (m ++ [n]).drop (m.length + 1 - 4)

/-- The need of the position when the order carried its sister (R81, R94). -/
def Ev.expireSister (o : Order) (e : Ev) : Ev :=
  match o.incoming with
  | some i => e.loseSister o.pos i
  | none => e

/-- The notices of an expiry (R133, step 5). -/
def Ev.expireNotices (o : Order) (e : Ev) : Ev :=
  let e := (e.notify .pc .expired).notify .ps .quarantine
  if o.kind.spindle then e.notify .ps .uncertain else e

/-- The expiry of an order (R133). Nothing but its own position reads the need that step 3 cancels, so the need test of
that loss comes last. -/
def expiryEvent (o : Order) (s : State) : State :=
  let e := ((((Ev.start s).upd (·.retire o.number)).loseTool o.incoming).loseTool o.outgoing).losePocket o.number o.pocket
  let e := e.updPos o.pos (·.expire o)
  let e := e.upd fun s => { s with ret.expired := rememberExpired o.number s.ret.expired }
  finish s ((e.expireNotices o).expireSister o)

/-- The order whose deadline the present count has reached (R133, R189). -/
def State.expiring (s : State) : Option Order :=
  match s.vol.swapDeadline, s.busyOrder with
  | some d, some o => if d = s.vol.ms then some o else none
  | _, _ => none

/-- The expiry of the swap deadline, if the count has reached it (R133). -/
def swapExpiry (s : State) : State :=
  match s.expiring with
  | some o => expiryEvent o s
  | none => s

/-- SWAP_DEADLINE_EXPIRY (R133): no event where no deadline has been reached or the part takes no events (R44, log 8). -/
def execSwapDeadlineExpiry (s : State) : Host.Outcome State Fault Refusal := .next (if s.running then swapExpiry s else s)

end Sys2Proof.Machine
end

