-- ==== Sys2Proof/Machine/Highway.lean ====
section
/-! DEFINITION. The Highway Receiver (Chapter 7): well-formed and malformed frames, the lock, and the loss deadline. -/
namespace Sys2Proof.Machine

/-! ## Delivery (R144) -/

/-- Every slot's last sample becomes the validity flag of its sample in the frame (R144, step 1). -/
def State.keepSamples (s : State) (words : Vector SampleWord 16) : State :=
  { s with vol.lastSamples := Vector.ofFn fun i => some (sampleValid words[i]) }

/-- A frame is delivered: the last samples, then the Breakage Monitor (R144). -/
def deliverEvent (words : Vector SampleWord 16) (s : State) : State :=
  finish s (((Ev.start s).upd fun s => s.keepSamples words).deliver words)

/-! ## Well-formed frames (R140) -/

/-- How far ahead of a well-formed frame the loss deadline stands, in counts (R140). -/
def lossInterval : Time := 3

/-- The frame is taken: the loss deadline is set (R140). -/
def State.frameTaken (s : State) : State := { s with vol.lossDeadline := some (s.vol.ms + lossInterval) }

/-- The lock count and lock state after a frame that completes the lock (R140). -/
def State.lockOn (s : State) : State := { s with vol.lock := .locked, vol.lockCount := 0 }

/-- The frame counts toward the lock (R140). -/
def State.countLock (s : State) : State := { s with vol.lockCount := s.vol.lockCount + 1 }

/-- The effect of a well-formed frame (R140). -/
def wellFormedEvent (words : Vector SampleWord 16) (s : State) : State :=
  let s := s.frameTaken
  match s.vol.lock with
  | .locked => deliverEvent words s
  | .hunt => if s.vol.lockCount < 3 then s.countLock else deliverEvent words s.lockOn

/-- WELL_FORMED_FRAME (R140): the 256th bit of a frame, which leaves no frame in progress; ignored while the part takes no
events (R44). -/
def execWellFormedFrame (words : Vector SampleWord 16) (s : State) : Host.Outcome State Fault Refusal :=
  .next (if s.running then wellFormedEvent words { s with vol.line := .complete } else s)

/-! ## Leaving LOCKED (R141, R142) -/

/-- The positions of a station. -/
def positionsAt (n : Station) : List PosIx := [posAt n .a, posAt n .b, posAt n .d]

/-- A present station has a position whose window is open (R142). -/
def State.stationOpen (s : State) (n : Station) : Bool :=
  decide (n.val < s.strap.count) && (positionsAt n).any fun x => (s.pos x).window

/-- The lock-drop notices: HIGHWAY at PS, BLIND at the port of every present station with an open window (R142). -/
def State.lockDropNotices (s : State) : State :=
  (List.finRange 4).foldl (fun s' n => if s.stationOpen n then s'.notify (.station n) .blind else s')
    (s.notify .ps .highway)

/-- The lock count becomes 0 and the loss deadline absent; a LOCKED receiver becomes HUNT and sets the lock-drop notices
(R141, R142). -/
def State.dropLock (s : State) : State :=
  let t := { s with vol.lock := .hunt, vol.lockCount := 0, vol.lossDeadline := none }
  match s.vol.lock with
  | .locked => t.lockDropNotices
  | .hunt => t

/-- The effect of a malformed frame (R141). -/
def malformedEvent (s : State) : State := (State.dropLock { s with vol.errors := min 255 (s.vol.errors + 1) }).drive

/-! ## The bits of the lines (R139) -/

/-- How a frame ends. -/
inductive Ending where
  | wellFormed (words : Vector SampleWord 16)
  | malformed

/-- One bit as the receiver samples it: what it has of a frame afterwards, and the frame that the bit ends, if it ends one
(R139). A strobe begins a frame whatever the receiver was doing, and a frame so cut is short. A bit with the strobe low
adds to a frame in progress, is an overrun after a well-formed frame, and is ignored otherwise. -/
def HwLine.sample (b : LineBit) (l : HwLine) : HwLine × Option Ending :=
  match b.strobe, l with
  | true, .receiving _ => (.receiving [b.data], some .malformed)
  | true, _ => (.receiving [b.data], none)
  | false, .quiet => (.quiet, none)
  | false, .complete => (.quiet, some .malformed)
  | false, .receiving bits =>
    let bits := bits ++ [b.data]
    if bits.length < frameLength then (.receiving bits, none) else (.complete, some (.wellFormed (wordsOf bits)))

/-- One bit is sampled; the frame that it ends is taken as its own event (R139). -/
def State.sampleBit (s : State) (b : LineBit) : State :=
  let t := { s with vol.line := (s.vol.line.sample b).1 }
  match (s.vol.line.sample b).2 with
  | none => t
  | some .malformed => malformedEvent t
  | some (.wellFormed words) => wellFormedEvent words t

/-- What the bits of a malformed frame do: a short frame ends with a strobe, which begins the next one; an overrun is one
only after a well-formed frame, and a low bit without a frame in progress is ignored (R139). -/
def malformedFrame (how : Malformed) (s : State) : State :=
  match how with
  | .short next => malformedEvent { s with vol.line := .receiving [next] }
  | .overrun => if s.vol.line = .complete then malformedEvent { s with vol.line := .quiet } else s
  | .sampled bits => bits.foldl State.sampleBit s

/-- MALFORMED_FRAME (R139, R141): ignored while the part takes no events (R44). -/
def execMalformedFrame (how : Malformed) (s : State) : Host.Outcome State Fault Refusal :=
  .next (if s.running then malformedFrame how s else s)

/-- The reaching of the loss deadline, if the count has reached it (R142). -/
def lossExpiry (s : State) : State := if s.vol.lossDeadline = some s.vol.ms then s.dropLock.drive else s

/-- LOSS_DEADLINE_REACHED (R142): no event where the deadline is not reached (log 8). -/
def execLossDeadlineReached (s : State) : Host.Outcome State Fault Refusal :=
  .next (if s.running then lossExpiry s else s)

end Sys2Proof.Machine
end

