-- ==== Sys2Proof/Machine/Timers.lean ====
section
/-! DEFINITION. The retry timers (R161) and the millisecond count (R189). -/
namespace Sys2Proof.Machine

/-! ## Retry timers (R161, R77) -/

/-- The retry timer of a present position, HELD with cause RETRY, has been reached by the count (R161). -/
def State.retryDue (s : State) (x : PosIx) : Bool :=
  s.present x && decide ((s.chan x).retryTimer = some s.vol.ms) && decide ((s.pos x).service = .held) &&
  decide ((s.pos x).holdCause = some .retry)

/-- The expiry of a retry timer: the timer becomes none, the position takes its resume state, the channel is restarted,
and the need test runs (R77, R93, R161). -/
def retryEvent (x : PosIx) (s : State) : State :=
  finish s <|
    ((((Ev.start s).upd (·.stopTimer x)).updPos x Position.endHold).upd (·.restartChannel x)).needTest x

/-- The expiry of the retry timer of a position, if the count has reached it (R161). -/
def retryExpiry (x : PosIx) (s : State) : State := if s.retryDue x then retryEvent x s else s

/-- RETRY_TIMER_EXPIRY (R161): no event where the timer is not reached (log 8). -/
def execRetryTimerExpiry (x : PosIx) (s : State) : Host.Outcome State Fault Refusal :=
  .next (if s.running then retryExpiry x s else s)

/-! ## The millisecond count (R189) -/

/-- Every expiry that the present count has reached and that no command has taken yet, each as its own event: the loss
deadline, the swap deadline, the retry timers in position order (log 9). -/
def takeExpiries (s : State) : State := allPositions.foldl (fun s x => retryExpiry x s) (swapExpiry (lossExpiry s))

/-- The count advances by 1; after 4,294,967,295 it wraps to 0 (R189). -/
def State.advance (s : State) : State := { s with vol.ms := s.vol.ms + 1 }

/-- MILLISECOND_TICK (R189): the count does not advance while RESET is held (R44) or before the power-on start. The
expiries of the count that ends are taken before it (log 9). -/
def execMillisecondTick (s : State) : Host.Outcome State Fault Refusal :=
  .next (if s.running then (takeExpiries s).advance else s)

end Sys2Proof.Machine
end

