-- ==== Sys2Proof/Machine/Starts.lean ====
section
/-! DEFINITION. Starts, the RESET input and the supplies (2.7 of Chapter 2, and the start values of every chapter). -/
namespace Sys2Proof.Machine

/-! ## What every start does (R149, R171, R187, R189) -/

/-- The transaction at a port when RESET is asserted: one in progress is cut, a REQUEST discarded and a fetch stopped,
after which the part sends bytes of value 0 (R188). A transaction whose kind byte is not complete is neither, and stays as it
is (DESIGN CHOICE, log 40). -/
def Reception.cut : Reception → Reception
  | .idle => .idle
  | .receiving _ | .sending _ | .discarded => .discarded

/-- The transaction at a port across a start: a REQUEST in reception is discarded, a fetch sends its copy to its end
(R188). One whose kind byte is not complete is idle, and its kind byte is taken afterwards as usual (DESIGN CHOICE, log 40). -/
def Reception.restart : Reception → Reception
  | .receiving _ => .discarded
  | r => r

/-- A port as a start leaves it: mailbox and notice set empty, a request in reception discarded; what the part has sent
and has still to send in a fetch stands (R187, R188). -/
def PortState.restart (p : PortState) : PortState :=
  { PortState.start with reception := p.reception.restart, sent := p.sent }

/-- State that is not retained, as a start leaves it: the strap is read, every unretained item takes its start value and
every port is restarted (R71, R149, R171, R187, R189). -/
def State.restartVolatile (pins : Strap) (s : State) : State :=
  { s with
    strap := pins
    vol := { Volatile.start with ports := s.vol.ports.map PortState.restart } }

/-! ## The cold start (R42) -/

/-- A cold start: cold retained state, the marker, the check byte, COLD, and the notices RESTARTED and RETENTION_LOST
(R42, R187). -/
def coldStart (pins : Strap) (s : State) : State :=
  let t := { s.restartVolatile pins with ret := Retained.cold, marker := true, lastStart := .cold }
  ((t.notify .ps .restarted).notify .ps .retentionLost).commit.drive

/-! ## The warm start (R43) -/

/-- The warm adjustments of a position record: the window closes, a hold with cause RETRY takes cause TRIP (R97). -/
def Position.warm (p : Position) : Position :=
  { p with
    window := false
    holdCause := if p.service = .held ∧ p.holdCause = some .retry then some .trip else p.holdCause }

/-- The warm adjustment of an order: TAKEN becomes IN_DOUBT (R138). -/
def Order.warm (o : Order) : Order := { o with state := if o.state = .taken then .inDoubt else o.state }

/-- The warm adjustments of retained state (R97, R138). -/
def Retained.warm (r : Retained) : Retained :=
  { r with positions := r.positions.map Position.warm, queue := r.queue.map Order.warm }

/-- The deadline of an IN_DOUBT order at a warm start: a full one when its position is present, none otherwise (R137,
R138). -/
def State.doubtDeadline (s : State) : Option Time :=
  match s.busyOrder with
  | some o => if s.present o.pos then some (s.swapDeadlineFrom s.vol.ms) else none
  | none => none

/-- The types required by the present, unsuspended positions of the waiting list, in list order (R113). -/
def State.waitingTypes (s : State) : List TypeIx :=
  (s.ret.waiting.filter fun x => s.present x && !(s.pos x).suspended).filterMap fun x => (s.pos x).required

/-- The arbitration of a warm start (R113). A type that comes again finds no candidate or no eligible tool. -/
def Ev.arbitrateStart (e : Ev) : Ev := e.st.waitingTypes.foldl (fun e t => e.arbitrate t) e

/-- The HELD notices of a start, for every position that is HELD (R97). -/
def State.heldNotices (s : State) : State :=
  allPositions.foldl (fun s' x => if (s.pos x).service = .held then s'.notifySlot x .held else s') s

/-- The start notices of a warm start (R187). -/
def State.warmNotices (s : State) : State :=
  let t := (s.notify .ps .restarted).heldNotices
  if t.orderReady then t.notify .pc .orderReady else t

/-- A warm start: the blocks' adjustments, the new deadline, the arbitration with its posting hand-offs, WARM, the start
notices (R43, R97, R113, R138, R187). -/
def warmStart (pins : Strap) (s : State) : State :=
  let t := { s.restartVolatile pins with ret := s.ret.warm, lastStart := .warm }
  let t := { t with vol.swapDeadline := t.doubtDeadline }
  ((Ev.start t).arbitrateStart.handOffs.st.warmNotices).commit.drive

/-! ## The power-on start (R41) -/

/-- The power-on start is cold: the VBAT latch is set, the marker does not hold, or the check byte does not match (R41). -/
def State.startsCold (s : State) : Bool := s.vbatLatch || !s.marker || decide (s.checkByte ≠ checkByteOf s.ret)

/-- The power-on start reads the latch, which clears it, and starts cold or warm (R41). -/
def powerOnStart (pins : Strap) (s : State) : State :=
  let t := { s with vbatLatch := false, started := true }
  if s.startsCold then coldStart pins t else warmStart pins t

/-- POWER_ON_START: the main supply is up and REFCLK runs. While RESET is held the part waits and takes the start at the
release (R41, R44). A part that has taken its power-on start takes no other. -/
def execPowerOnStart (pins : Strap) (s : State) : Host.Outcome State Fault Refusal :=
  .next <|
    if s.started then s
    else
      let t := { s with supplyOn := true, pins := pins }
      if s.resetHeld then t.drive else powerOnStart pins t

/-! ## RESTART (R45) -/

/-- RESTART at PS: a warm start, whose reply is the one that survives it (R45). -/
def execRestart (p : Port) (s : State) : Host.Outcome State Fault Refusal :=
  serve p 44 (asSupervisor p (.ok (warmStart s.pins s, []))) s

/-! ## The RESET input (R44) -/

/-- The assertion of RESET cuts the transactions and the highway frame in progress (R44, R149, R188). -/
def State.cutReceptions (s : State) : State :=
  { s with
    vol.line := .quiet
    vol.ports := s.vol.ports.map fun p => { p with reception := p.reception.cut } }

/-- RESET_ASSERT: every INHIBIT line is asserted and every ATTN line released while the input is held (R44, R171, R180). -/
def execResetAssert (s : State) : Host.Outcome State Fault Refusal :=
  .next (if s.resetHeld then s else State.drive { s.cutReceptions with resetHeld := true })

/-- The start that the release of RESET takes: the power-on start if none has been taken since the main supply came up,
otherwise a warm start without the retention check; none while the main supply is off (R44). -/
def releaseStart (pins : Strap) (s : State) : State :=
  if s.supplyOn = false then s.drive else if s.started then warmStart pins s else powerOnStart pins s

/-- RESET_RELEASE (R44). -/
def execResetRelease (pins : Strap) (s : State) : Host.Outcome State Fault Refusal :=
  .next (if s.resetHeld then releaseStart pins { s with resetHeld := false, pins := pins } else s)

/-! ## The supplies (R40, R41) -/

/-- MAIN_SUPPLY_FAIL: retained state stays as the last event committed it; what is not retained is lost (R40). -/
def execMainSupplyFail (s : State) : Host.Outcome State Fault Refusal :=
  .next (State.drive { s with supplyOn := false, started := false, vol := Volatile.start })

/-- VBAT_LOW_LATCH: the latch records that VBAT fell while the main supply was off (R41). -/
def execVbatLowLatch (s : State) : Host.Outcome State Fault Refusal :=
  .next (if s.supplyOn then s else { s with vbatLatch := true })

end Sys2Proof.Machine
end

