-- ==== Sys2Proof/Machine/Spindle.lean ====
section
/-! DEFINITION. CHECK, RELEASE, RECLAIM and the verdicts (Chapter 4). -/
namespace Sys2Proof.Machine

/-- CHECK (R82): it changes no state but the mailbox. -/
def execCheck (p : Port) (s : State) : Host.Outcome State Fault Refusal :=
  serve p 1 (asStation p fun st => .ok (s, s.checkResult st)) s

/-! ## RELEASE and RECLAIM (R84, R85) -/

/-- The effect of an accepted RELEASE (R84). -/
def releaseEvent (x : PosIx) (s : State) : State :=
  finish s (((Ev.start s).updPos x Position.release).needTest x)

/-- RELEASE at a station port (R84). -/
def releaseBody (st : Station) (slot : Nat) (s : State) : Answer :=
  match slotOperand slot with
  | none => .error .range
  | some sl =>
    let x := posAt st sl
    let p := s.pos x
    if (p.service = .serving ∨ p.service = .due) ∧ p.window = false then
      let s' := releaseEvent x s
      .ok (s', s'.positionRecord x)
    else .error .state

/-- RELEASE (R84). -/
def execRelease (p : Port) (slot : Nat) (s : State) : Host.Outcome State Fault Refusal :=
  serve p 7 (asStation p fun st => releaseBody st slot s) s

/-- The order a RECLAIM withdraws is withdrawn; the need of a DIRECT goes back to RESERVED (R85, R132). -/
def Ev.reclaimOrder (x : PosIx) (e : Ev) : Ev :=
  match e.st.waitingSpindleOrder x with
  | none => e
  | some o =>
    let e := e.withdraw o
    if o.kind = .direct then e.setNeed x (·.progress .reserved) else e

/-- A position that has become DUE by the end of a hold or a RECLAIM has the notice DUE set (R75; DEDUCED, log 39). -/
def Ev.noticeDue (x : PosIx) (e : Ev) : Ev := if (e.st.pos x).service = .due then e.notifySlot x .due else e

/-- The effect of an accepted RECLAIM (R85). -/
def reclaimEvent (x : PosIx) (s : State) : State :=
  finish s (((((Ev.start s).reclaimOrder x).updPos x Position.reclaim).noticeDue x).needTest x)

/-- RECLAIM at a station port (R85). -/
def reclaimBody (st : Station) (slot : Nat) (s : State) : Answer :=
  match slotOperand slot with
  | none => .error .range
  | some sl =>
    let x := posAt st sl
    if (s.pos x).service = .released then
      let s' := reclaimEvent x s
      .ok (s', s'.positionRecord x)
    else .error .state

/-- RECLAIM (R85). -/
def execReclaim (p : Port) (slot : Nat) (s : State) : Host.Outcome State Fault Refusal :=
  serve p 8 (asStation p fun st => reclaimBody st slot s) s

/-! ## Verdicts (R86, R87, R163) -/

/-- The monitor side of a verdict: the retry timer becomes none and the channel is restarted (R163). -/
def Ev.verdictChannel (x : PosIx) (e : Ev) : Ev := e.upd fun s => (s.stopTimer x).restartChannel x

/-- The effect of an accepted VERDICT OK (R87). -/
def verdictOkEvent (x : PosIx) (s : State) : State :=
  finish s <|
    (((((Ev.start s).updPos x Position.endHold).updPos x fun p => { p with retryCount := 0 }).noticeDue x).verdictChannel
      x).needTest x

/-- VERDICT OK at a station port (R86, R87). -/
def verdictOkBody (st : Station) (slot : Nat) (s : State) : Answer :=
  match slotOperand slot with
  | none => .error .range
  | some sl =>
    let x := posAt st sl
    if (s.pos x).service = .held then
      let s' := verdictOkEvent x s
      .ok (s', s'.positionRecord x)
    else .error .state

/-- VERDICT OK (R86, R87, R163). -/
def execVerdictOk (p : Port) (slot : Nat) (s : State) : Host.Outcome State Fault Refusal :=
  serve p 9 (asStation p fun st => verdictOkBody st slot s) s

/-- The mounted tool of a position becomes BROKEN (R86). -/
def Ev.breakTool (x : PosIx) (e : Ev) : Ev :=
  match e.st.mountedTool x with
  | none => e
  | some (i, _) => e.updTool i fun t => { t with condition := .broken }

/-- The effect of an accepted VERDICT BROKEN (R86, R111, R163): a standing need becomes urgent, and where the need is
NONE the need test raises it urgent. -/
def verdictBrokenEvent (x : PosIx) (s : State) : State :=
  finish s <|
    ((((((Ev.start s).breakTool x).updPos x Position.broken).notifySlot x .due).makeNeedUrgent x).needTest x).verdictChannel
      x

/-- VERDICT BROKEN at a station port (R86). -/
def verdictBrokenBody (st : Station) (slot : Nat) (s : State) : Answer :=
  match slotOperand slot with
  | none => .error .range
  | some sl =>
    let x := posAt st sl
    let v := (s.pos x).service
    if v = .serving ∨ v = .due ∨ v = .held then
      let s' := verdictBrokenEvent x s
      .ok (s', s'.positionRecord x)
    else .error .state

/-- VERDICT BROKEN (R86, R163). -/
def execVerdictBroken (p : Port) (slot : Nat) (s : State) : Host.Outcome State Fault Refusal :=
  serve p 9 (asStation p fun st => verdictBrokenBody st slot s) s

end Sys2Proof.Machine
end

