-- ==== Sys2Proof/Machine/Tools.lean ====
section
/-! DEFINITION. ENROL, WITHDRAW, REINSTATE and DECLARE of a pocket (Chapter 2). -/
namespace Sys2Proof.Machine

/-! ## Places a tool can be put at -/

/-- The place names a position that is present, or a pocket (R30, R36). -/
def State.reachable (s : State) : PutPlace → Bool
  | .pocket _ => true
  | .rack x | .spindle x => s.present x

/-- The slot of the place takes tools of a kind; a pocket takes any (R18). -/
def PutPlace.takes (k : ToolKind) : PutPlace → Bool
  | .pocket _ => true
  | .rack x | .spindle x => decide ((slotOf x).kind = k)

/-- The spindle of a position is ready for a tool: UNCERTAIN and naming no entry (R30, R36). -/
def State.spindleReady (s : State) (x : PosIx) : Bool :=
  decide ((s.pos x).service = .uncertain) &&
    match (s.pos x).mounted with
    | .entry _ => false
    | _ => true

/-- Put entry `i`, whose other fields are those of `t`, at a place, state and place together, the place naming it (R31,
R37). -/
def Ev.putTool (i : EntryIx) (t : Tool) (pl : PutPlace) (e : Ev) : Ev :=
  match pl with
  | .pocket k => (e.upd fun s => s.setTool i (some (t.put .stored (.pocket k)))).setPocket k (.holds i)
  | .rack x => (e.upd fun s => s.setTool i (some (t.put .offloaded (.rack x)))).updPos x (·.setRack (.entry i))
  | .spindle x => (e.upd fun s => s.setTool i (some (t.mount x))).updPos x (·.setMounted (.entry i))

/-- What follows the putting of a tool: a STORED tool is offered to the allocator (R32, R38). The RETURN of an OFFLOADED
tool comes with the posting hand-off of its position. -/
def Ev.afterPut (i : EntryIx) (pl : PutPlace) (e : Ev) : Ev :=
  match pl with
  | .pocket _ => e.offerTool i
  | .rack _ | .spindle _ => e

/-! ## ENROL (R30 to R32) -/

/-- The lowest-numbered free entry (R31). -/
def State.freeEntry (s : State) : Option EntryIx := allEntries.find? fun i => (s.tool i).isNone

/-- A live entry has the serial (R18). -/
def State.serialHeld (s : State) (serial : Nat) : Bool :=
  allEntries.any fun i => (s.tool i).any fun t => decide (t.serial = serial)

/-- The place is ready to receive a tool that ENROL brings in (R30, check 6). -/
def State.readyForEnrol (s : State) : PutPlace → Bool
  | .pocket k => decide (s.pocket k = .free)
  | .rack x => decide ((s.pos x).rack = .bare)
  | .spindle x => s.spindleReady x

/-- The entry of an enrolled tool before it is put at its place: NEW with Lnew, or with a given R (R31). -/
def newTool (serial : Nat) (t : TypeIx) (lnew : Nat) (given : Option Nat) : Tool where
  serial := serial
  type := t
  state := .stored
  condition := .sound
  place := .unknown
  promised := none
  r := given.getD lnew
  rem := 0
  nnom := 0
  fullHistory := given.isNone
  parts := 0
  dresses := 0
  gauged := none
  doubts := 0
  trips := 0
  peakAE := 0
  peakPower := 0

/-- The effect of an accepted ENROL into the free entry `i` (R31, R32). -/
def enrolEvent (i : EntryIx) (serial : Nat) (t : TypeIx) (pl : PutPlace) (given : Option Nat) (s : State) : State :=
  finish s (((Ev.start s).putTool i (newTool serial t (s.figures t).lnew given) pl).afterPut i pl)

/-- ENROL at PS (R30). -/
def enrolBody (serial code kind number mode r : Nat) (s : State) : Answer :=
  match typeOperand code, placeOperand kind number, lifeOperand mode r with
  | some t, some pl, some given =>
    if serial = 0 ∨ 4294967295 < serial ∨ s.reachable pl = false then .error .range
    else
      match s.typ t with
      | none => .error .state
      | some f =>
        if f.lnew < given.getD 0 ∨ pl.takes f.kind = false then .error .range
        else if s.serialHeld serial then .error .duplicate
        else
          match s.freeEntry with
          | none => .error .full
          | some i =>
            if s.readyForEnrol pl = false then .error .state
            else
              let s' := enrolEvent i serial t pl given s
              .ok (s', s'.toolRecord i)
  | _, _, _ => .error .range

/-- ENROL (R30 to R32). -/
def execEnrol (p : Port) (serial code kind number mode r : Nat) (s : State) : Host.Outcome State Fault Refusal :=
  serve p 34 (asSupervisor p (enrolBody serial code kind number mode r s)) s

/-! ## WITHDRAW (R33) -/

/-- A tool that WITHDRAW may take: STORED, QUARANTINED, or OFFLOADED and named by no standing order (R33). -/
def State.withdrawable (s : State) (i : EntryIx) (t : Tool) : Bool :=
  decide (t.state = .stored) || decide (t.state = .quarantined) ||
    (decide (t.state = .offloaded) && (s.orderNaming i).isNone)

/-- The place of a withdrawn tool is freed: a pocket becomes FREE, a rack EMPTY with the return-waiting flag cleared (R33). -/
def Ev.freePlace (pl : Place) (e : Ev) : Ev :=
  match pl with
  | .pocket k => e.setPocket k .free
  | .rack x => e.updPos x fun p => { p with rack := .bare, returnWaiting := false }
  | _ => e

/-- The effect of an accepted WITHDRAW (R33). -/
def withdrawEvent (i : EntryIx) (t : Tool) (s : State) : State :=
  finish s (((Ev.start s).freePlace t.place).upd fun s => s.setTool i none)

/-- WITHDRAW at PS (R33). -/
def withdrawBody (entry : Nat) (s : State) : Answer :=
  match entryOperand entry with
  | none => .error .range
  | some i =>
    match s.tool i with
    | none => .error .state
    | some t => if s.withdrawable i t then .ok (withdrawEvent i t s, be 4 t.serial) else .error .state

/-- WITHDRAW (R33). -/
def execWithdraw (p : Port) (entry : Nat) (s : State) : Host.Outcome State Fault Refusal :=
  serve p 35 (asSupervisor p (withdrawBody entry s)) s

/-! ## REINSTATE (R36 to R38) -/

/-- The type a REINSTATE names: none for type 0, and no reading for a code above 16 (R36). -/
def givenType (code : Nat) : Option (Option TypeIx) :=
  if code = 0 then some none else (typeOperand code).map some

/-- The place is ready to receive the reinstated entry `i` (R36, check 5). -/
def State.readyForReinstate (s : State) (i : EntryIx) : PutPlace → Bool
  | .pocket k => decide (s.pocket k = .free) || decide (s.pocket k = .unknown) || decide (s.pocket k = .holds i)
  | .rack x => decide ((s.pos x).rack = .bare) || decide ((s.pos x).rack = .unknown)
  | .spindle x => s.spindleReady x

/-- The fields of a reinstated tool, but for its place (R37). -/
def Tool.reinstate (ty : TypeIx) (given : Option Nat) (t : Tool) : Tool :=
  { t with
    condition := .sound
    doubts := 0
    promised := none
    r := given.getD t.r
    rem := if given.isSome then 0 else t.rem
    fullHistory := t.fullHistory && given.isNone
    type := ty
    nnom := if ty = t.type then t.nnom else 0
    gauged := if ty = t.type then t.gauged else none }

/-- The pocket in which a QUARANTINED tool lay becomes FREE when another place is given (R37). -/
def Ev.leaveOldPocket (old : Place) (pl : PutPlace) (e : Ev) : Ev :=
  match old with
  | .pocket k => if pl = .pocket k then e else e.setPocket k .free
  | _ => e

/-- The effect of an accepted REINSTATE (R37, R38). -/
def reinstateEvent (i : EntryIx) (t : Tool) (ty : TypeIx) (pl : PutPlace) (given : Option Nat) (s : State) : State :=
  finish s ((((Ev.start s).leaveOldPocket t.place pl).putTool i (t.reinstate ty given) pl).afterPut i pl)

/-- REINSTATE at PS (R36). -/
def reinstateBody (entry code kind number mode r : Nat) (s : State) : Answer :=
  match entryOperand entry, givenType code, placeOperand kind number, lifeOperand mode r with
  | some i, some gt, some pl, some given =>
    if s.reachable pl = false then .error .range
    else
      match s.tool i with
      | none => .error .state
      | some t =>
        let ty := gt.getD t.type
        if gt.isSome = true ∧ (s.typ ty).isNone = true then .error .state
        else if t.state ≠ .quarantined then .error .state
        else if (ty ≠ t.type ∧ given = none) ∨ (s.figures ty).lnew < given.getD 0 ∨
            pl.takes (s.figures ty).kind = false then .error .range
        else if s.readyForReinstate i pl = false then .error .state
        else
          let s' := reinstateEvent i t ty pl given s
          .ok (s', s'.toolRecord i)
  | _, _, _, _ => .error .range

/-- REINSTATE (R36 to R38). -/
def execReinstate (p : Port) (entry code kind number mode r : Nat) (s : State) : Host.Outcome State Fault Refusal :=
  serve p 36 (asSupervisor p (reinstateBody entry code kind number mode r s)) s

/-! ## DECLARE of a pocket (R39) -/

/-- The effect of an accepted DECLARE of a pocket (R39). -/
def declarePocketEvent (k : PocketIx) (s : State) : State := finish s ((Ev.start s).setPocket k .free)

/-- DECLARE of a pocket at PS (R39). -/
def declarePocketBody (number : Nat) (s : State) : Answer :=
  match pocketOperand number with
  | none => .error .range
  | some k =>
    if s.pocket k = .unknown then
      let s' := declarePocketEvent k s
      .ok (s', byte (k.val + 1) :: pocketBytes (s'.pocket k))
    else .error .state

/-- DECLARE of a pocket (R39). -/
def execDeclarePocket (p : Port) (number : Nat) (s : State) : Host.Outcome State Fault Refusal :=
  serve p 37 (asSupervisor p (declarePocketBody number s)) s

end Sys2Proof.Machine
end

