-- ==== Sys2Proof/Machine/Wear.lean ====
section
/-! DEFINITION. PARTS, DRESS and GAUGE (Chapter 3). -/
namespace Sys2Proof.Machine

/-- The service states in which consumption and gauges are taken: SERVING, DUE and HELD (R49, R51, R60). -/
def Service.consuming (v : Service) : Bool := decide (v = .serving) || decide (v = .due) || decide (v = .held)

/-- The largest count of PARTS and DRESS (R49, R51). -/
def maxCount : Nat := 15

/-- The tool mounted at a position is charged `a` of its type's figures and counted (R50, R52). -/
def Ev.chargeMounted (x : PosIx) (a : TypeRec → Nat) (count : Tool → Tool) (e : Ev) : Ev :=
  match e.st.mountedTool x with
  | none => e
  | some (i, t) => e.updTool i fun t' => count (t'.charge (a (e.st.figures t.type)) (e.st.figures t.type).factor)

/-- The life result of the tool that was mounted at `x` in state `before`, as state `after` shows it. -/
def lifeAfter (before after : State) (x : PosIx) (o : GaugeOutcome) (m : Nat) : List Byte :=
  match before.mountedTool x with
  | none => List.replicate 15 0
  | some (i, _) => after.lifeResult x i o m

/-- The effect of an accepted PARTS (R50). -/
def partsEvent (x : PosIx) (n : Nat) (s : State) : State :=
  finish s <|
    ((Ev.start s).chargeMounted x (fun f => n * f.wp) (Tool.countParts n)).evalTriggers x

/-- PARTS at a station port: its checks in the order of R49 and its effect (R50). -/
def partsBody (st : Station) (slot n : Nat) (s : State) : Answer :=
  match wheelSlotOperand slot with
  | none => .error .range
  | some sl =>
    let x := posAt st sl
    if n = 0 ∨ maxCount < n then .error .range
    else if (s.pos x).service.consuming = false then .error .state
    else
      let s' := partsEvent x n s
      .ok (s', lifeAfter s s' x .noGauge 0)

/-- PARTS (R49, R50). -/
def execParts (p : Port) (slot n : Nat) (s : State) : Host.Outcome State Fault Refusal :=
  serve p 4 (asStation p fun st => partsBody st slot n s) s

/-- The effect of an accepted DRESS of the wheel at `x` by the roll at `d` (R52). -/
def dressEvent (x d : PosIx) (n : Nat) (s : State) : State :=
  finish s <|
    ((((Ev.start s).chargeMounted x (fun f => n * f.dd) (Tool.countDresses n)).chargeMounted d (fun f => n * f.dd)
      (Tool.countDresses n)).evalTriggers x).evalTriggers d

/-- DRESS at a station port (R51, R52). -/
def dressBody (st : Station) (slot n : Nat) (s : State) : Answer :=
  match wheelSlotOperand slot with
  | none => .error .range
  | some sl =>
    let x := posAt st sl
    let d := posAt st .d
    if n = 0 ∨ maxCount < n then .error .range
    else if (s.pos x).service.consuming = false then .error .state
    else if (s.pos d).service.consuming = false then .error .state
    else
      let s' := dressEvent x d n s
      .ok (s', lifeAfter s s' x .noGauge 0 ++ lifeAfter s s' d .noGauge 0)

/-- DRESS (R51, R52). -/
def execDress (p : Port) (slot n : Nat) (s : State) : Host.Outcome State Fault Refusal :=
  serve p 5 (asStation p fun st => dressBody st slot n s) s

/-- The largest diameter GAUGE takes (R60). -/
def maxDiameter : Nat := 1048575

/-- The gauge of tool `t` by diameter `d` is doubted under the figures of its type (R62). -/
def State.gaugeDoubted (s : State) (t : Tool) (d : Nat) : Bool :=
  (s.figures t.type).doubts ((s.figures t.type).layerOf d) t.r

/-- The doubt or the blend of a gauge of the tool `t`, entry `i`, mounted at `x` (R62 to R64). A tool that becomes
DOUBTFUL has the need test run after the triggers (R93). -/
def Ev.gaugeTool (x : PosIx) (i : EntryIx) (t : Tool) (d : Nat) (e : Ev) : Ev :=
  if e.st.gaugeDoubted t d then
    if t.becomesDoubtful then
      (((e.updTool i Tool.doubtGauge).finding x i .doubtful .doubt).evalTriggers x).needTest x
    else (e.updTool i Tool.doubtGauge).evalTriggers x
  else (e.updTool i (Tool.blendGauge (e.st.figures t.type) d)).evalTriggers x

/-- The effect of an accepted GAUGE (R60 to R64). -/
def gaugeEvent (x : PosIx) (d : Nat) (s : State) : State :=
  finish s <|
    match s.mountedTool x with
    | none => Ev.start s
    | some (i, t) => (Ev.start s).gaugeTool x i t d

/-- The life result of a GAUGE: its outcome and the layer M, with the doubt count after the event (R62, R63). -/
def gaugeResult (before after : State) (x : PosIx) (d : Nat) : List Byte :=
  match before.mountedTool x with
  | none => List.replicate 15 0
  | some (i, t) =>
    after.lifeResult x i (if before.gaugeDoubted t d then .doubted else .blended) ((before.figures t.type).layerOf d)

/-- GAUGE at a station port (R60). -/
def gaugeBody (st : Station) (slot d : Nat) (s : State) : Answer :=
  match slotOperand slot with
  | none => .error .range
  | some sl =>
    let x := posAt st sl
    if maxDiameter < d then .error .range
    else if (s.pos x).service.consuming = false then .error .state
    else
      let s' := gaugeEvent x d s
      .ok (s', gaugeResult s s' x d)

/-- GAUGE (R60 to R64). -/
def execGauge (p : Port) (slot d : Nat) (s : State) : Host.Outcome State Fault Refusal :=
  serve p 6 (asStation p fun st => gaugeBody st slot d s) s

end Sys2Proof.Machine
end

