-- ==== Sys2Proof/Machine/Frames.lean ====
section
/-! DEFINITION. The transactions of a port other than a decoded request (9.2 to 9.4 of Chapter 9): frames as bytes,
FETCH REPLY and FETCH NOTICES. -/
namespace Sys2Proof.Machine

/-! ## A request as bytes (R174, R175) -/

/-- The meaning of the request that a frame spells; the other commands are spelt by no frame. -/
def runRequest (i : Instr) (s : State) : Host.Outcome State Fault Refusal :=
  match i with
  | .check p => execCheck p s
  | .openWindow p sl => execOpen p sl s
  | .closeWindow p sl => execClose p sl s
  | .parts p sl n => execParts p sl n s
  | .dress p sl n => execDress p sl n s
  | .gauge p sl d => execGauge p sl d s
  | .release p sl => execRelease p sl s
  | .reclaim p sl => execReclaim p sl s
  | .verdictOk p sl => execVerdictOk p sl s
  | .verdictBroken p sl => execVerdictBroken p sl s
  | .takeOrder p => execTake p s
  | .doneOrder p n => execDone p n s
  | .failOrder p n r e => execFail p n r e s
  | .typeSet p c f => execTypeSet p c f s
  | .typeErase p c => execTypeErase p c s
  | .enrol p serial c k n m r => execEnrol p serial c k n m r s
  | .withdraw p e => execWithdraw p e s
  | .reinstate p e c k n m r => execReinstate p e c k n m r s
  | .declarePocket p n => execDeclarePocket p n s
  | .declarePosition p x => execDeclarePosition p x s
  | .assign p x c => execAssign p x c s
  | .monitorSet p x m t l => execMonitorSet p x m t l s
  | .clearRetries p x => execClearRetries p x s
  | .routeSet p h x g => execRouteSet p h x g s
  | .timeoutSet p t => execTimeoutSet p t s
  | .resume p x => execResume p x s
  | .restart p => execRestart p s
  | .queryType p c => execQueryType p c s
  | .queryTool p e => execQueryTool p e s
  | .queryPosition p v => execQueryPosition p v s
  | .queryOrder p n => execQueryOrder p n s
  | .queryWaiting p => execQueryWaiting p s
  | .queryCell p => execQueryCell p s
  | .undecodedRequest _ _ | .fetchReply _ | .fetchNotices _ | .wellFormedFrame _ | .malformedFrame _
  | .lossDeadlineReached | .swapDeadlineExpiry | .retryTimerExpiry _ | .millisecondTick | .resetAssert
  | .resetRelease _ | .powerOnStart _ | .mainSupplyFail | .vbatLowLatch => .next s

/-- A VERDICT or a DECLARE whose verdict or target kind names no encoding: the role check, then RANGE (R175, R86). -/
def refuseEncoding (p : Port) (code : Nat) : Answer :=
  if code = 9 then asStation p fun _ => .error .range else asSupervisor p (.error .range)

/-- The bytes that followed the kind byte of a REQUEST transaction are taken, at the release of its chip select (R174,
R175). Bytes that spell a request are that request. -/
def takeFrame (p : Port) (bytes : List Byte) (s : State) : Host.Outcome State Fault Refusal :=
  match decodeFrame p bytes with
  | .frame => serve p 0 (.error .frame) s
  | .unknown c => serve p c (.error .unknown) s
  | .misfit c => serve p c (.error .frame) s
  | .noEncoding c => serve p c (refuseEncoding p c) s
  | .request i => runRequest i s

/-! ## Fetches (R176, R179) -/

/-- The bytes of a fetch with the CRC over them (Table 9-1). -/
def withCrc (bytes : List Byte) : List Byte := bytes ++ [crc8 bytes]

/-- A reply as FETCH REPLY sends it after the mailbox state: request code, status, length, result (Table 9-1). -/
def Reply.bytes (r : Reply) : List Byte := byte r.code :: byte r.status.num :: byte r.result.length :: r.result

/-- The mailbox as FETCH REPLY sends it, without the CRC (Table 9-1). -/
def Mailbox.bytes : Mailbox → List Byte
  | .empty => [0, 0, 0, 0]
  | .fresh r => 1 :: r.bytes
  | .fetched r => 2 :: r.bytes

/-- A new reply becomes fetched before (R176). -/
def Mailbox.fetch : Mailbox → Mailbox
  | .fresh r => .fetched r
  | m => m

/-- A port takes transactions: the part takes events and the port is enabled (R172, R44). -/
def State.fetches (s : State) (p : Port) : Bool := s.running && s.enabled p

/-- A port after FETCH REPLY: a new reply has become fetched before; `sent` and `rest` are the bytes of the copy that have
been sent and that are still to be sent (R176). -/
def PortState.fetchReply (sent : List Byte) (r : Reception) (v : PortState) : PortState :=
  { v with mailbox := v.mailbox.fetch, sent := sent, reception := r }

/-- A port after FETCH NOTICES: the set is empty (R179). -/
def PortState.fetchNotices (sent : List Byte) (r : Reception) (v : PortState) : PortState :=
  { v with notices := 0, sent := sent, reception := r }

/-- FETCH_REPLY (R176): the whole transaction, every byte of it read; a port that takes none ignores it. -/
def execFetchReply (p : Port) (s : State) : Host.Outcome State Fault Refusal :=
  .next <|
    if s.fetches p then
      let v := s.port p
      (s.setPort p (v.fetchReply (withCrc v.mailbox.bytes) .idle)).drive
    else s.endReception p

/-- FETCH_NOTICES (R179): the whole transaction, every byte of it read; a port that takes none ignores it. -/
def execFetchNotices (p : Port) (s : State) : Host.Outcome State Fault Refusal :=
  .next <|
    if s.fetches p then
      let v := s.port p
      (s.setPort p (v.fetchNotices (withCrc (noticeBytes v.notices)) .idle)).drive
    else s.endReception p

/-! ## Transactions byte by byte (R173, R188) -/

/-- The transaction at a port, written. -/
def State.setReception (s : State) (p : Port) (r : Reception) : State := s.setPort p { s.port p with reception := r }

/-- The kind byte of a transaction is complete (R173): 1 begins a REQUEST; 2 and 3 are a fetch, taken now; with any other
the transaction is ignored. -/
def State.kindByte (s : State) (p : Port) (kind : Byte) : State :=
  let v := s.port p
  match kind.toNat with
  | 1 => s.setReception p (.receiving [])
  | 2 => (s.setPort p (v.fetchReply [] (.sending (withCrc v.mailbox.bytes)))).drive
  | 3 => (s.setPort p (v.fetchNotices [] (.sending (withCrc (noticeBytes v.notices))))).drive
  | _ => s.setReception p .discarded

/-- The byte that the part sends next at a port after the kind byte: of a fetch the next byte of the copy, and 0 after its
last and in every other transaction (R173). A disabled port sends nothing on its data out (R172), nor does any port while the
main supply is off (DEDUCED, log 12). -/
def State.nextByte (s : State) (p : Port) : Option Byte :=
  if s.supplyOn && s.enabled p then
    match (s.port p).reception with
    | .sending (b :: _) => some b
    | _ => some 0
  else none

/-- The master sends one byte at a port, while the part sends one (R173). A port that takes no transactions ignores it to
its end (R172, R44). -/
def State.clockByte (p : Port) (s : State) (b : Byte) : State :=
  if s.fetches p then
    match (s.port p).reception with
    | .idle => s.kindByte p b
    | .receiving bytes => s.setReception p (.receiving (bytes ++ [b]))
    | .sending [] | .discarded => s
    | .sending (c :: rest) =>
      s.setPort p { s.port p with sent := (s.port p).sent ++ [c], reception := .sending rest }
  else s.setReception p .discarded

/-- The master releases the chip select of a port: a REQUEST is taken, any other transaction is over (R173, R174). -/
def releaseSelect (p : Port) (s : State) : Host.Outcome State Fault Refusal :=
  match (s.port p).reception with
  | .receiving bytes => takeFrame p bytes (s.endReception p)
  | _ => .next (s.endReception p)

/-- UNDECODED_REQUEST: a transaction as the master sends it, in one command or in several (R173 to R175, R188; log 31). -/
def execUndecodedRequest (p : Port) (sent : Transfer) (s : State) : Host.Outcome State Fault Refusal :=
  let t := sent.bytes.foldl (State.clockByte p) s
  if sent.released then releaseSelect p t else .next t

end Sys2Proof.Machine
end

