-- ==== Sys2Proof/Machine/Dispatch.lean ====
section
/-! DEFINITION. The meaning of every command: one arm per constructor, each one direct call. -/
namespace Sys2Proof.Machine

/-- The effect of a command on everything but the queue of waiting commands. -/
def exec (i : Instr) (s : State) : Host.Outcome State Fault Refusal :=
  match i with
  | .check p => Sys2Proof.Machine.execCheck p s
  | .openWindow p slot => Sys2Proof.Machine.execOpen p slot s
  | .closeWindow p slot => Sys2Proof.Machine.execClose p slot s
  | .parts p slot n => Sys2Proof.Machine.execParts p slot n s
  | .dress p slot n => Sys2Proof.Machine.execDress p slot n s
  | .gauge p slot d => Sys2Proof.Machine.execGauge p slot d s
  | .release p slot => Sys2Proof.Machine.execRelease p slot s
  | .reclaim p slot => Sys2Proof.Machine.execReclaim p slot s
  | .verdictOk p slot => Sys2Proof.Machine.execVerdictOk p slot s
  | .verdictBroken p slot => Sys2Proof.Machine.execVerdictBroken p slot s
  | .takeOrder p => Sys2Proof.Machine.execTake p s
  | .doneOrder p n => Sys2Proof.Machine.execDone p n s
  | .failOrder p n reason entry => Sys2Proof.Machine.execFail p n reason entry s
  | .typeSet p code f => Sys2Proof.Machine.execTypeSet p code f s
  | .typeErase p code => Sys2Proof.Machine.execTypeErase p code s
  | .enrol p serial code kind number mode r => Sys2Proof.Machine.execEnrol p serial code kind number mode r s
  | .withdraw p entry => Sys2Proof.Machine.execWithdraw p entry s
  | .reinstate p entry code kind number mode r => Sys2Proof.Machine.execReinstate p entry code kind number mode r s
  | .declarePocket p number => Sys2Proof.Machine.execDeclarePocket p number s
  | .declarePosition p position => Sys2Proof.Machine.execDeclarePosition p position s
  | .assign p position code => Sys2Proof.Machine.execAssign p position code s
  | .monitorSet p position mode t l => Sys2Proof.Machine.execMonitorSet p position mode t l s
  | .clearRetries p position => Sys2Proof.Machine.execClearRetries p position s
  | .routeSet p slot position signal => Sys2Proof.Machine.execRouteSet p slot position signal s
  | .timeoutSet p seconds => Sys2Proof.Machine.execTimeoutSet p seconds s
  | .resume p position => Sys2Proof.Machine.execResume p position s
  | .restart p => Sys2Proof.Machine.execRestart p s
  | .queryType p code => Sys2Proof.Machine.execQueryType p code s
  | .queryTool p entry => Sys2Proof.Machine.execQueryTool p entry s
  | .queryPosition p operand => Sys2Proof.Machine.execQueryPosition p operand s
  | .queryOrder p number => Sys2Proof.Machine.execQueryOrder p number s
  | .queryWaiting p => Sys2Proof.Machine.execQueryWaiting p s
  | .queryCell p => Sys2Proof.Machine.execQueryCell p s
  | .undecodedRequest p sent => Sys2Proof.Machine.execUndecodedRequest p sent s
  | .fetchReply p => Sys2Proof.Machine.execFetchReply p s
  | .fetchNotices p => Sys2Proof.Machine.execFetchNotices p s
  | .wellFormedFrame words => Sys2Proof.Machine.execWellFormedFrame words s
  | .malformedFrame how => Sys2Proof.Machine.execMalformedFrame how s
  | .lossDeadlineReached => Sys2Proof.Machine.execLossDeadlineReached s
  | .swapDeadlineExpiry => Sys2Proof.Machine.execSwapDeadlineExpiry s
  | .retryTimerExpiry x => Sys2Proof.Machine.execRetryTimerExpiry x s
  | .millisecondTick => Sys2Proof.Machine.execMillisecondTick s
  | .resetAssert => Sys2Proof.Machine.execResetAssert s
  | .resetRelease pins => Sys2Proof.Machine.execResetRelease pins s
  | .powerOnStart pins => Sys2Proof.Machine.execPowerOnStart pins s
  | .mainSupplyFail => Sys2Proof.Machine.execMainSupplyFail s
  | .vbatLowLatch => Sys2Proof.Machine.execVbatLowLatch s

end Sys2Proof.Machine
end

