-- ==== Sys2Proof/Safety.lean ====
section
/-! DEFINITION. The terms the claims use: what the work that follows an event may change, and the laws of the device. -/
namespace Sys2Proof.Machine

/-! ## What follows an event

When a command has made its own changes, the part may still raise needs, reserve sisters, arbitrate, post orders, give
freed pockets to waiting RETURNs and set the notices of that work (R93, R95, R101, R105, R116 to R118, R123). `Follows m u`
says that this work, and nothing else, leads from state `m` to state `u`. -/

/-- A position record without what that work may change: its rack, its need with sister and urgent flag, and its
return-waiting flag. -/
def Position.settled (p : Position) : Position :=
  { p with rack := .bare, need := .noNeed, sister := none, urgent := false, returnWaiting := false }

/-- A tool entry without what that work may change: a STORED tool may become RESERVED and promised. -/
def Tool.settled (t : Tool) : Tool :=
  if t.state = .stored ∨ t.state = .reserved then { t with state := .stored, promised := none } else t

/-- A rack that an order may claim: EMPTY or BOOKED. -/
def Holding.claimable : Holding → Bool
  | .bare | .booked _ => true
  | .entry _ | .unknown => false

/-- The notices that work may set at a port: ORDER_READY at PC, WAITING and STORE_FULL at PS. -/
def followNotices : Port → BitVec 16
  | .station _ => 0
  | .pc => Notice.orderReady.mask
  | .ps => Notice.waiting.mask ||| Notice.storeFull.mask

/-- A position that may be given needs and orders: present and not suspended (R71, R93, R130). -/
abbrev Active (s : State) (x : PosIx) : Prop := s.present x = true ∧ (s.pos x).suspended = false

/-- Arbitration for a type may serve the position: it is active and requires the type (R105). -/
abbrev Candidate (s : State) (k : TypeIx) (x : PosIx) : Prop := Active s x ∧ (s.pos x).required = some k

/-- The position is the first of the waiting list that arbitration for a type may serve (R105). -/
def FirstCandidate (s : State) (k : TypeIx) (x : PosIx) : Prop :=
  Candidate s k x ∧ ∃ before after, s.ret.waiting = before ++ x :: after ∧ ∀ y ∈ before, ¬Candidate s k y

/-- What an order is about: all of it but its state and its class. -/
def Order.task (o : Order) : Order := { o with urgent := false, state := .ready }

/-- State `u` differs from state `m` only by the work that follows an event. -/
structure Follows (m u : State) : Prop where
  types : u.ret.types = m.ret.types
  routes : u.ret.routes = m.ret.routes
  timeout : u.ret.timeout = m.ret.timeout
  expired : u.ret.expired = m.ret.expired
  positions : ∀ x, (u.pos x).settled = (m.pos x).settled
  racks : ∀ x, (m.pos x).rack.claimable = false → (u.pos x).rack = (m.pos x).rack
  idle : ∀ x, m.present x = false ∨ (m.pos x).suspended = true → u.pos x = m.pos x
  tools : ∀ i, (u.tool i).map Tool.settled = (m.tool i).map Tool.settled
  taken : ∀ k, m.pocket k ≠ .free → u.pocket k = m.pocket k
  free : ∀ k, m.pocket k = .free → u.pocket k = .free ∨ ∃ n, u.pocket k = .booked n
  needs : ∀ x, (m.pos x).need ≠ .noNeed → (u.pos x).need ≠ .noNeed ∧ (u.pos x).urgent = (m.pos x).urgent
  orders : ∀ o ∈ u.standing, o ∈ m.standing ∨
    (∃ q ∈ m.standing, q.task = o.task ∧ q.busy = false ∧ o.busy = false ∧ (q.urgent = true → o.urgent = true)) ∨
    o.busy = false ∧ Active m o.pos
  kept : ∀ q ∈ m.standing, (∃ o ∈ u.standing, o.number = q.number) ∨
    ∃ x, Active m x ∧ (m.pos x).service = .released
  vol : u.vol = { m.vol with ports := u.vol.ports }
  mailbox : ∀ q, (u.port q).mailbox = (m.port q).mailbox
  reception : ∀ q, (u.port q).reception = (m.port q).reception
  sent : ∀ q, (u.port q).sent = (m.port q).sent
  flags : ∀ q, (u.port q).notices ||| (m.port q).notices = (u.port q).notices
  others : ∀ q, (u.port q).notices &&& ~~~(followNotices q) = (m.port q).notices &&& ~~~(followNotices q)
  disabled : ∀ q, m.enabled q = false → (u.port q).notices = (m.port q).notices
  marker : u.marker = m.marker
  vbatLatch : u.vbatLatch = m.vbatLatch
  lastStart : u.lastStart = m.lastStart
  supplyOn : u.supplyOn = m.supplyOn
  started : u.started = m.started
  resetHeld : u.resetHeld = m.resetHeld
  pins : u.pins = m.pins
  strap : u.strap = m.strap
  pending : u.pending = m.pending

/-- The changes a command makes of itself lead to state `m`; state `t` is what they settle to: the work that follows is
done and the event is committed with a current check byte (R40). -/
def Settles (m t : State) : Prop := Follows m t ∧ t.checkByte = checkByteOf t.ret

/-! ## What a command owes to the positions (R32, R95, R105) -/

/-- Tool `i`, the one that has become eligible for a type in an event from `s` to `t`, serves the waiting list: where no other
was eligible, the first candidate has it; and no candidate is left waiting while a tool is eligible (R32, R105). -/
def Serves (s t : State) (k : TypeIx) (i : EntryIx) : Prop :=
  ((∀ j, s.eligible k j = false) → ∀ x, FirstCandidate s k x →
    (t.pos x).sister = some i ∧ ((t.pos x).need = .reserved ∨ (t.pos x).need = .staging)) ∧
  ∀ x ∈ t.ret.waiting, Candidate t k x → ∀ j, t.eligible k j = false

/-- The RETURN of tool `j`, of condition `c`, from the rack of `x` stands in state `t`: to the chute, or to the lowest of the
pockets that `free` names, which it books; for want of one the position waits for a pocket (R117). -/
def ReturnStands (x : PosIx) (j : EntryIx) (c : Condition) (free : PocketIx → Prop) (t : State) : Prop :=
  let posted (k : Option PocketIx) (n : Nat) : Prop :=
    ∃ q ∈ t.standing, q.number = n ∧ q.kind = .return_ ∧ q.pos = x ∧ q.outgoing = some j ∧ q.pocket = k ∧ q.busy = false
  (c = .worn ∨ c = .broken → ∃ n, posted none n) ∧
  (c = .sound ∨ c = .doubtful →
    (∀ k, free k → (∀ l, l < k → ¬free l) → ∃ n, posted (some k) n ∧ t.pocket k = .booked n) ∧
    ((∀ k, ¬free k) → (t.pos x).returnWaiting = true))

/-- An EXCHANGE of position `x` for its sister `i` stands in state `t` (R116). -/
def ExchangeStands (x : PosIx) (i : EntryIx) (outgoing : Option EntryIx) (urgent : Bool) (t : State) : Prop :=
  ∃ q ∈ t.standing, q.kind = .exchange ∧ q.pos = x ∧ q.incoming = some i ∧ q.outgoing = outgoing ∧ q.urgent = urgent ∧
    q.busy = false

/-- No order but the one of number `n` names the tool. -/
def NamedByNoOther (s : State) (n : Nat) (j : EntryIx) : Prop :=
  ∀ q ∈ s.standing, q.number ≠ n → q.incoming ≠ some j ∧ q.outgoing ≠ some j

/-- A learning update of a type concerns no position but `x`: no other has a mounted tool of the type, none waits for it. -/
def ConcernsOnly (s : State) (x : PosIx) (k : TypeIx) : Prop :=
  (∀ y, y ≠ x → ∀ a u, s.mountedTool y = some (a, u) → u.type ≠ k) ∧ ∀ y ∈ s.ret.waiting, (s.pos y).required ≠ some k

/-! ## Own changes that several commands share -/

/-- What the wear trigger changes at a position (R57): a SOUND mounted tool with parts-left 0 becomes WORN, and its
position takes the finding with the notice DUE. -/
def wearAt (x : PosIx) (s : State) : State :=
  match s.mountedTool x with
  | none => s
  | some (i, t) =>
    if s.partsLeft t = 0 ∧ t.condition = .sound then
      let m := (s.setTool i (some { t with condition := .worn })).setPos x ((s.pos x).finding .worn)
      if (s.pos x).hasFinding then m.notifySlot x .due else m
    else s

/-- The wear triggers of the mounted tools of a type, in position order: the tools at present positions in SERVING, DUE,
HELD or RELEASED, other than `but` (R11, R67). -/
def wearAll (k : TypeIx) (but : Option EntryIx) (s : State) : State :=
  allPositions.foldl (fun s x => if s.reevaluated k but x then wearAt x s else s) s

/-- The learning update for the tool `j` that an order has taken off a spindle, if it has one and the tool teaches: the
type's F and learn count, the wear triggers of its other mounted tools but `but`, the notice LEARNED (R65 to R67). -/
def learned (j but : Option EntryIx) (s : State) : State :=
  match j with
  | none => s
  | some j =>
    match s.tool j with
    | none => s
    | some u =>
      match s.typ u.type with
      | none => s
      | some f =>
        if u.condition = .worn ∧ u.fullHistory = true ∧ f.lnew / 2 ≤ u.nnom then
          let observed : Nat := max 500 (min 1500 ((f.lnew - u.r) * 1000 / u.nnom))
          let f' : TypeRec :=
            { f with
              factor := ((f.factor : Int) + ((observed : Int) - (f.factor : Int)).tdiv 4).toNat
              learnCount := min 255 (f.learnCount + 1) }
          (wearAll u.type but (s.setType u.type (some f'))).notify .ps .learned
        else s

/-- The position after a hold has ended: its resume state, and the causes that go with it (R77, R87). -/
def holdEnded (p : Position) : Position :=
  { p with
    service := if p.resume = some .due then .due else .serving
    dueCause := if p.resume = some .due then p.dueCause else none
    holdCause := none
    resume := none }

/-- The channel of a position after its retry timer is cancelled and it is restarted (R162, R163). -/
def channelRestarted (s : State) (x : PosIx) : Channel :=
  let c := { s.chan x with retryTimer := none }
  if (s.pos x).window then
    if (s.pos x).mode = .off then { c with state := .idle, blankCount := 0 }
    else
      { c with
        state := if (s.mountedFigures x).blank = 0 then .watching else .blanking
        blankCount := 0
        aeCount := 0
        powerCount := 0 }
  else c

/-- A READY or BACKLOG order withdrawn: it leaves its collection, and the rack it booked at its posting becomes EMPTY
(R121, R132). -/
def withdrawn (o : Order) (s : State) : State :=
  let t := s.dropOrder o.number
  if o.kind.booksRackAtPosting then t.setPos o.pos { t.pos o.pos with rack := .bare } else t

/-- What the cancellation of a position's need does (R94, R108 to R110): to the need, to the sister, and to the order
that carries it. -/
def needCancelled (x : PosIx) (s : State) : State :=
  let t := s.setPos x { s.pos x with need := .noNeed, sister := none, urgent := false }
  let back (i : EntryIx) (u : State) : State :=
    u.setTool i ((u.tool i).map fun v => { v with state := .stored, promised := none })
  let left (i : EntryIx) (u : State) : State :=
    u.setTool i ((u.tool i).map fun v => { v with state := .offloaded, promised := none })
  let unpromised (i : EntryIx) : State := t.setTool i ((t.tool i).map fun v => { v with promised := none })
  match (s.pos x).need, (s.pos x).sister with
  | .noNeed, _ => s
  | .waiting, _ => t
  | .reserved, some i => back i t
  | .staging, some i =>
    match s.carrierOf i with
    | some o => if o.busy then unpromised i else back i (withdrawn o t)
    | none => back i t
  | .staged, some i =>
    match s.exchangeFor x with
    | some o => if o.busy then unpromised i else left i (withdrawn o t)
    | none => left i t
  | _, none => t

/-- A tool that is lost: QUARANTINED at UNKNOWN, without a promise (R131, R133). -/
def lost (t : Tool) : Tool := { t with state := .quarantined, place := .unknown, promised := none }

/-- The shape of an order of each kind (Table 6-2), its tools live and distinct. -/
structure Order.Shaped (s : State) (o : Order) : Prop where
  number : o.number ≠ 0
  incoming : (o.kind = .stage ∨ o.kind = .exchange ∨ o.kind = .direct) ↔ o.incoming.isSome = true
  outgoing : o.kind = .direct ∨ o.kind = .remove ∨ o.kind = .return_ → o.outgoing.isSome = true
  staged : o.kind = .stage → o.outgoing = none
  pocket : o.kind = .stage ∨ o.kind = .direct → o.pocket.isSome = true
  noPocket : o.kind = .exchange ∨ o.kind = .remove → o.pocket = none
  live : ∀ i, o.incoming = some i ∨ o.outgoing = some i → (s.tool i).isSome = true
  distinct : o.incoming = none ∨ o.incoming ≠ o.outgoing

/-- A FAIL of an order: it is retired, its tools go back, but for the tool `missing` of a FAIL with EMPTY, which is lost,
and its places take the contents that the tables of R129 and R131 give. -/
def restored (o : Order) (missing : Option EntryIx) (s : State) : State :=
  let x := o.pos
  let p := s.pos x
  let promised : Bool := o.incoming.any fun i => (s.tool i).any fun w => decide (w.promised = some x)
  let inLost : Bool := missing.isSome && decide (o.incoming = missing)
  let outLost : Bool := missing.isSome && decide (o.outgoing = missing)
  let inTool (w : Tool) : Tool :=
    if inLost then lost w
    else if o.kind = .exchange then { w with state := if promised then .staged else .offloaded, place := .rack x }
    else
      match o.pocket with
      | some k => { w with state := if promised then .reserved else .stored, place := .pocket k }
      | none => w
  let outTool (w : Tool) : Tool :=
    if outLost then lost w
    else if o.kind = .return_ then { w with state := .offloaded, place := .rack x }
    else { w with state := .mounted, place := .spindle x }
  let s := s.retire o.number
  let s := o.incoming.elim s fun i => s.setTool i ((s.tool i).map inTool)
  let s := o.outgoing.elim s fun j => s.setTool j ((s.tool j).map outTool)
  let s := o.pocket.elim s fun k =>
    s.setPocket k (if o.kind = .return_ ∨ inLost then .free else o.incoming.elim .free .holds)
  let rack : Holding :=
    match o.kind with
    | .exchange => if inLost then .bare else o.incoming.elim .bare .entry
    | .return_ => if outLost then .bare else o.outgoing.elim .bare .entry
    | _ => .bare
  let need : Need := if (o.kind = .stage ∨ o.kind = .direct) ∧ promised ∧ !inLost then .reserved else p.need
  let p := { p with rack := rack, need := need }
  s.setPos x <|
    if o.kind = .exchange ∨ o.kind = .direct ∨ o.kind = .remove then
      if o.outgoing = none ∨ outLost then
        { p with service := .vacant, mounted := .bare, dueCause := none, holdCause := none, resume := none }
      else { p with service := .released, mounted := o.outgoing.elim .bare .entry, holdCause := none, resume := none }
    else p

/-- A channel that trips: SPENT with its counts at 0, the trip counted against tool `i`, the notices, and what the mode of
the position makes of it (R157 to R160). -/
def tripped (x : PosIx) (i : EntryIx) (s : State) : State :=
  let p := s.pos x
  let held (c : HoldCause) (q : Position) : Position :=
    match q.service with
    | .serving => { q with service := .held, holdCause := some c, resume := some .serving }
    | .due => { q with service := .held, holdCause := some c, resume := some .due }
    | _ => q
  let s := s.setChan x { s.chan x with state := .spent, aeCount := 0, powerCount := 0 }
  let s := s.setTool i ((s.tool i).map fun w => { w with trips := min 255 (w.trips + 1) })
  let s := (s.notifySlot x .trip).notify .ps .anyTrip
  if p.mode = .hold ∨ p.mode = .retry ∧ p.retryLimit ≤ p.retryCount then
    (s.setPos x (held .trip p)).notifySlot x .held
  else if p.mode = .retry then
    ((s.setPos x (held .retry { p with retryCount := p.retryCount + 1 })).setChan x
      { s.chan x with retryTimer := some (s.vol.ms + BitVec.ofNat 32 (p.retryTime * 1000)) }).notifySlot x .held
  else s

/-- What one delivery does to the channel of a position (R153 to R155, R157): a BLANKING channel counts it; a WATCHING one
takes the peaks and the deglitch counts of the two signals, and trips when a watched position has a count at the deglitch
frames; in IDLE and SPENT, and for an absent position, nothing changes. -/
def delivered (words : Vector SampleWord 16) (x : PosIx) (s : State) : State :=
  let c := s.chan x
  let sample (g : Signal) : Option (Bool × Nat) :=
    (allHwSlots.find? fun h => decide (s.route h = some ⟨x, g⟩)).map fun h =>
      (words[h].getLsbD 15, words[h].toNat % 32768)
  let count (limit n : Nat) (v : Option (Bool × Nat)) : Nat :=
    match v with
    | none => n
    | some (valid, v) => if valid = true ∧ limit < v then n + 1 else 0
  let peak (n : Nat) (v : Option (Bool × Nat)) : Nat :=
    match v with
    | none => n
    | some (valid, v) => if valid = true then max n v else n
  if s.present x = false then s
  else
    match c.state with
    | .idle | .spent => s
    | .blanking =>
      s.setChan x { c with
        blankCount := c.blankCount + 1
        state := if (s.mountedFigures x).blank ≤ c.blankCount + 1 then .watching else .blanking }
    | .watching =>
      match s.mountedTool x with
      | none => s
      | some (i, w) =>
        let f := s.figures w.type
        let a := count f.aeLimit c.aeCount (sample .ae)
        let b := count f.powerLimit c.powerCount (sample .power)
        let m := (s.setTool i (some { w with
          peakAE := peak w.peakAE (sample .ae)
          peakPower := peak w.peakPower (sample .power) })).setChan x { c with aeCount := a, powerCount := b }
        if s.watched x = true ∧ (f.deglitch ≤ a ∨ f.deglitch ≤ b) then tripped x i m else m

/-! ## The laws of the device -/

/-- The check byte is the exclusive-or of every byte of retained state (R40). -/
def CheckLaw (s : State) : Prop := s.checkByte = checkByteOf s.ret

/-- INHIBIT follows the HELD positions and the RESET input (R170); ATTN follows the mailbox and the notice set (R180). -/
def LineLaw (s : State) : Prop :=
  (∀ n : Fin 4, s.inhibit[n] = true ↔
    s.resetHeld = true ∨ ∃ sl, (s.pos (posAt n sl)).service = .held) ∧
  ∀ q : Port, (s.port q).attn = true ↔
    s.resetHeld = false ∧ s.enabled q = true ∧ ((∃ r, (s.port q).mailbox = .fresh r) ∨ (s.port q).notices ≠ 0)

/-- No two slot routes target the same position and signal (R145). -/
def RouteLaw (s : State) : Prop := ∀ h k : HwSlot, s.route h = s.route k → s.route h ≠ none → h = k

/-- Every field of a DEFINED record is in its range (Table 1-1, R2 to R6). -/
structure TypeRec.InRange (f : TypeRec) : Prop where
  dnew : 20000 ≤ f.dnew ∧ f.dnew ≤ 1000000
  dscrap : 10000 ≤ f.dscrap ∧ f.dscrap < f.dnew ∧ f.dnew ≤ f.dscrap + 40000
  lnew : f.lnew = 5 * (f.dnew - f.dscrap)
  dd : f.dd ≤ 500
  wp : f.wp ≤ 100 ∧ (f.kind = .dresser → f.wp = 0)
  ppd : 1 ≤ f.ppd ∧ f.ppd ≤ 255
  rchg : f.rchg ≤ 50000 ∧ f.rchg < f.lnew
  stage : f.stage ≤ 65535
  pmin : f.pmin ≤ 65535
  k : f.k ≤ 16
  z : f.z ≤ 50000
  g : f.g ≤ 5000
  limits : f.aeLimit ≤ 32767 ∧ f.powerLimit ≤ 32767
  blank : f.blank ≤ 4095
  deglitch : 1 ≤ f.deglitch ∧ f.deglitch ≤ 64
  factor : 500 ≤ f.factor ∧ f.factor ≤ 1500
  learnCount : f.learnCount ≤ 255

/-- Every type record that is DEFINED is in range (R1, R6). -/
def CatalogueLaw (s : State) : Prop := ∀ k f, s.typ k = some f → f.InRange

/-- The account of a live entry is in range: its type is DEFINED, R lies within 0 to Lnew, the remainder within 0 to 999,
and the counters within Table 2-1 (R22 to R25). -/
def AccountLaw (s : State) : Prop :=
  ∀ i t, s.tool i = some t →
    (∃ f, s.typ t.type = some f ∧ t.r ≤ f.lnew) ∧ t.rem ≤ 999 ∧ t.nnom ≤ 16777215 ∧ t.parts ≤ 16777215 ∧
      t.dresses ≤ 16777215 ∧ t.doubts ≤ 3 ∧ t.trips ≤ 255 ∧ t.peakAE ≤ 32767 ∧ t.peakPower ≤ 32767

/-- Among live entries each serial appears at most once, and none is 0 (R18). -/
def SerialLaw (s : State) : Prop :=
  (∀ i t, s.tool i = some t → t.serial ≠ 0) ∧
    ∀ i j t u, s.tool i = some t → s.tool j = some u → t.serial = u.serial → i = j

/-- The causes of a position record go with its service state, its settings are in range, and a position without a need
has neither sister nor urgent flag (R74, R92, R130, R160, R167). -/
structure Position.Lawful (p : Position) : Prop where
  hold : p.holdCause.isSome = true ↔ p.service = .held
  resume : p.resume.isSome = true ↔ p.service = .held
  due : p.service = .due ∨ p.resume = some .due → p.dueCause.isSome = true
  sound : p.service = .uncertain ∨ p.service = .vacant ∨ p.service = .serving ∨ p.resume = some .serving →
    p.dueCause = none
  need : p.need = .noNeed → p.sister = none ∧ p.urgent = false
  waiting : p.need = .waiting → p.sister = none
  retryTime : p.retryTime = 1 ∨ p.retryTime = 2 ∨ p.retryTime = 4 ∨ p.retryTime = 8
  retryLimit : 1 ≤ p.retryLimit ∧ p.retryLimit ≤ 7
  retryCount : p.retryCount ≤ p.retryLimit
  failed : p.failed ≤ 2

/-- Every position record is lawful. -/
def PositionLaw (s : State) : Prop := ∀ x, (s.pos x).Lawful

/-- The waiting list holds each position at most once, exactly the positions whose need is WAITING, and every urgent one
ahead of every normal one (R103). -/
def WaitingLaw (s : State) : Prop :=
  s.ret.waiting.Nodup ∧ (∀ x, x ∈ s.ret.waiting ↔ (s.pos x).need = .waiting) ∧
    s.ret.waiting.Pairwise fun x y => (s.pos y).urgent = true → (s.pos x).urgent = true

/-- The class of an order in its collection: the TAKEN or IN_DOUBT one, the urgent ones, the others (R120). -/
def Order.rank (o : Order) : Nat := if o.busy then 0 else if o.urgent then 1 else 2

/-- The queue holds at most 16 orders and the backlog at most 24, each in class order; at most one order is TAKEN or
IN_DOUBT, at the head of the queue; the other orders of the queue are READY and those of the backlog BACKLOG; while the
backlog holds an order the queue is full (R120, R121). No two standing orders share a number, no number stands in the
expired-number memory, which holds at most 4, and all numbers are 1 to 65,535 (R114, R133). -/
structure OrderLaw (s : State) : Prop where
  queueSize : s.ret.queue.length ≤ 16
  backlogSize : s.ret.backlog.length ≤ 24
  full : s.ret.backlog ≠ [] → s.ret.queue.length = 16
  queueClasses : s.ret.queue.Pairwise fun a b => a.rank ≤ b.rank
  backlogClasses : s.ret.backlog.Pairwise fun a b => a.rank ≤ b.rank
  oneBusy : s.ret.queue.Pairwise fun a b => ¬(a.busy = true ∧ b.busy = true)
  ready : ∀ o ∈ s.ret.queue, o.busy = true ∨ o.state = .ready
  backlog : ∀ o ∈ s.ret.backlog, o.state = .backlog
  numbers : (s.standing.map (·.number)).Nodup
  remembered : ∀ n ∈ s.ret.expired, n ∉ s.standing.map (·.number)
  memory : s.ret.expired.length ≤ 4
  range : ∀ o ∈ s.standing, 1 ≤ o.number ∧ o.number ≤ 65535
  counter : 1 ≤ s.ret.counter ∧ s.ret.counter ≤ 65535

/-! ### The cell: places, promises, needs, bookings and orders agree -/

/-- The order works at the rack: from its posting for a STAGE, DIRECT or REMOVE, from its TAKE for an EXCHANGE or RETURN
(Table 6-2). -/
def Order.hasRack (o : Order) : Prop := o.kind = .stage ∨ o.kind = .direct ∨ o.kind = .remove ∨ o.busy = true

/-- The order works on the spindle: an EXCHANGE, DIRECT or REMOVE that has been taken (Table 6-2). -/
def Order.hasSpindle (o : Order) : Prop := o.busy = true ∧ (o.kind = .exchange ∨ o.kind = .direct ∨ o.kind = .remove)

/-- The order has its pocket booked: a RETURN from its posting, a STAGE or DIRECT from its TAKE (Table 6-2). -/
def Order.hasPocket (o : Order) : Prop := o.kind = .return_ ∨ o.busy = true ∧ (o.kind = .stage ∨ o.kind = .direct)

/-- A tool lies at one place, in a state that goes with it, and that place names it; a place that names a tool is where the
tool lies (R19, R26, R72, R73, Table 2-2). -/
def PlacesAgree (s : State) : Prop :=
  (∀ i, ∀ t ∈ s.tool i,
    match t.place with
    | .pocket k => s.pocket k = .holds i ∧ (t.state = .stored ∨ t.state = .reserved ∨ t.state = .quarantined)
    | .rack x => (s.pos x).rack = .entry i ∧ (t.state = .staged ∨ t.state = .offloaded)
    | .spindle x => (s.pos x).mounted = .entry i ∧ t.state = .mounted
    | .gripper => t.state = .moving
    | .unknown => t.state = .quarantined) ∧
  (∀ k i, s.pocket k = .holds i → ∃ t ∈ s.tool i, t.place = .pocket k) ∧
  (∀ x i, (s.pos x).rack = .entry i → ∃ t ∈ s.tool i, t.place = .rack x) ∧
  ∀ x i, (s.pos x).mounted = .entry i → ∃ t ∈ s.tool i, t.place = .spindle x

/-- A tool is MOVING exactly while the TAKEN or IN_DOUBT order names it (R19, R124). -/
def MovingIsTaken (s : State) : Prop :=
  ∀ i, ∀ t ∈ s.tool i, t.state = .moving ↔ ∃ o ∈ s.ret.queue, o.busy = true ∧ (o.incoming = some i ∨ o.outgoing = some i)

/-- A tool is promised to a position exactly when it is the position's sister; a position has a sister exactly while its need
is RESERVED, STAGING or STAGED, and a need only while it requires a type (R20, R92). A STORED, MOUNTED, OFFLOADED or
QUARANTINED tool is promised to none, a RESERVED or STAGED one to one. -/
def PromisesAgree (s : State) : Prop :=
  (∀ i, ∀ t ∈ s.tool i, ∀ x, t.promised = some x ↔ (s.pos x).sister = some i) ∧
  (∀ x i, (s.pos x).sister = some i → (s.tool i).isSome = true) ∧
  (∀ x, (s.pos x).sister.isSome = true ↔ (s.pos x).need ≠ .noNeed ∧ (s.pos x).need ≠ .waiting) ∧
  (∀ x, (s.pos x).need ≠ .noNeed → (s.pos x).required.isSome = true) ∧
  ∀ i, ∀ t ∈ s.tool i,
    (t.state = .stored ∨ t.state = .mounted ∨ t.state = .offloaded ∨ t.state = .quarantined → t.promised = none) ∧
    (t.state = .reserved ∨ t.state = .staged → t.promised.isSome = true)

/-- A sister is where its position's need says: RESERVED in its pocket; RESERVED under the STAGE or DIRECT that waits for it,
or on its way under it; STAGED on the rack, or on its way under the EXCHANGE (R92, R102, R109, R110). -/
def NeedsAgree (s : State) : Prop :=
  ∀ x, ∀ i ∈ (s.pos x).sister, ∀ t ∈ s.tool i,
    ((s.pos x).need = .reserved → t.state = .reserved) ∧
    ((s.pos x).need = .staging → (t.state = .reserved ∨ t.state = .moving) ∧
      ∃ o ∈ s.standing, o.pos = x ∧ o.incoming = some i ∧ (o.kind = .stage ∨ o.kind = .direct)) ∧
    ((s.pos x).need = .staged → t.state = .staged ∧ t.place = .rack x ∨
      t.state = .moving ∧ ∃ o ∈ s.standing, o.pos = x ∧ o.incoming = some i ∧ o.kind = .exchange)

/-- The spindle goes with the service state: a tool in SERVING, DUE, HELD and RELEASED, none in VACANT, a booking exactly
while EXCHANGING (R72, R79). -/
def SpindlesAgree (s : State) : Prop :=
  ∀ x,
    match (s.pos x).service with
    | .serving | .due | .held | .released => ∃ i, (s.pos x).mounted = .entry i
    | .vacant => (s.pos x).mounted = .bare
    | .exchanging => ∃ o ∈ s.standing, o.pos = x ∧ o.hasSpindle
    | .uncertain => ∀ o ∈ s.standing, (s.pos x).mounted ≠ .booked o.number

/-- A rack, a spindle or a pocket is BOOKED exactly for the standing order that has it, by that order's number (R26, R72,
R73, Table 6-2). -/
def BookingsAgree (s : State) : Prop :=
  (∀ o ∈ s.standing, (o.hasRack → (s.pos o.pos).rack = .booked o.number) ∧
    (o.hasSpindle → (s.pos o.pos).mounted = .booked o.number) ∧
    (o.hasPocket → ∀ k ∈ o.pocket, s.pocket k = .booked o.number)) ∧
  (∀ x n, (s.pos x).rack = .booked n → ∃ o ∈ s.standing, o.number = n ∧ o.pos = x ∧ o.hasRack) ∧
  (∀ x n, (s.pos x).mounted = .booked n → ∃ o ∈ s.standing, o.number = n ∧ o.pos = x ∧ o.hasSpindle) ∧
  ∀ k n, s.pocket k = .booked n → ∃ o ∈ s.standing, o.number = n ∧ o.pocket = some k ∧ o.hasPocket

/-- An order that has not been taken has its tools where its from-places say, and its position as it was at the posting
(R116, Table 6-2). -/
def Order.Waits (s : State) (o : Order) : Prop :=
  let p := s.pos o.pos
  let lies (j : Option EntryIx) (st : ToolState) (pl : Place) : Prop :=
    ∃ i ∈ j, ∃ t ∈ s.tool i, t.state = st ∧ t.place = pl
  match o.kind with
  | .stage => ∃ k ∈ o.pocket, lies o.incoming .reserved (.pocket k) ∧ p.sister = o.incoming ∧ p.need = .staging
  | .direct =>
    (∃ k ∈ o.pocket, lies o.incoming .reserved (.pocket k)) ∧ lies o.outgoing .mounted (.spindle o.pos) ∧
      p.sister = o.incoming ∧ p.need = .staging ∧ p.service = .released
  | .exchange =>
    lies o.incoming .staged (.rack o.pos) ∧ p.sister = o.incoming ∧ p.need = .staged ∧
      (p.service = .released ∧ lies o.outgoing .mounted (.spindle o.pos) ∨ p.service = .vacant ∧ o.outgoing = none)
  | .remove => lies o.outgoing .mounted (.spindle o.pos) ∧ p.service = .released ∧ p.required = none
  | .return_ => lies o.outgoing .offloaded (.rack o.pos)

/-- Every standing order has the shape of its kind; one that has not been taken waits as its posting left it; and no tool is
named by two (R115, R116). -/
def OrdersAgree (s : State) : Prop :=
  (∀ o ∈ s.standing, o.Shaped s ∧ (o.busy = false → o.Waits s)) ∧
  ∀ i, ∀ o ∈ s.standing, ∀ q ∈ s.standing,
    o.incoming = some i ∨ o.outgoing = some i → q.incoming = some i ∨ q.outgoing = some i → o = q

/-- A position waits for a pocket only with an OFFLOADED tool on its rack that no standing order names (R117). -/
def ReturnsWait (s : State) : Prop :=
  ∀ x, (s.pos x).returnWaiting = true → ∃ i, (s.pos x).rack = .entry i ∧
    (∃ t ∈ s.tool i, t.state = .offloaded) ∧ ∀ o ∈ s.standing, o.incoming ≠ some i ∧ o.outgoing ≠ some i

/-- The position of a TAKEN or IN_DOUBT EXCHANGE, DIRECT or REMOVE has no need, its need having been cancelled or met, or the
one whose sister that order brings: it never waits, and has no other sister (R79, R93, R109, R110). -/
def ExchangesAgree (s : State) : Prop :=
  ∀ o ∈ s.standing, o.hasSpindle →
    (s.pos o.pos).need = .noNeed ∧ (s.pos o.pos).sister = none ∨
      (s.pos o.pos).need ≠ .waiting ∧ (s.pos o.pos).sister.isSome = true ∧ (s.pos o.pos).sister = o.incoming

/-- The tool table, the pocket map, the position records and the standing orders tell one story of where every tool is. -/
structure CellLaw (s : State) : Prop where
  places : PlacesAgree s
  moving : MovingIsTaken s
  promises : PromisesAgree s
  needs : NeedsAgree s
  spindles : SpindlesAgree s
  bookings : BookingsAgree s
  orders : OrdersAgree s
  returns : ReturnsWait s
  exchanges : ExchangesAgree s

end Sys2Proof.Machine
end

