-- ==== Sys2Proof/Certificates/Slice0/Obligations.lean ====
section
/-! DEFINITION. The statements for the provers.

Where a statement says `Settles m t`, `m` spells the changes that the command makes of itself, and `t` is the state once
the work that follows every event is done (`Follows` of Safety.lean): the need of a position may be raised and its sister
reserved, orders posted, freed pockets given to waiting RETURNs, and the notices of that work set. Everything else of `t`
is as `m` has it. `s.listening p` says that the part is running, the port is enabled, and its transaction is not one that is
ignored to its end. -/

open Sys2Proof Sys2Proof.Machine

/-! ## Life arithmetic (Chapter 3) -/

/-- R49, R50, R47, R48, R56 to R58: PARTS charges the mounted tool n × Wp of its type and counts n parts; the wear trigger
follows, and with parts-left at or below the stage threshold a required, unsuspended position has a need. -/
def Obligations.PartsCharges : Prop :=
  ∀ (n : Station) (sl : Slot) (k : Nat) (s : State) (i : EntryIx) (u : Tool),
    s.listening (.station n) = true → sl ≠ .d → 1 ≤ k → k ≤ 15 →
    (s.pos (posAt n sl)).service = .serving ∨ (s.pos (posAt n sl)).service = .due ∨
      (s.pos (posAt n sl)).service = .held →
    s.mountedTool (posAt n sl) = some (i, u) →
    let f := s.figures u.type
    let q := k * f.wp * f.factor + u.rem
    let w : Tool := { u with
      r := u.r - q / 1000
      rem := if u.r < q / 1000 then 0 else q % 1000
      nnom := min 16777215 (u.nnom + k * f.wp)
      parts := min 16777215 (u.parts + k) }
    let m := s.setTool i (some w)
    ∃ t : State, exec (.parts (.station n) sl.num k) s =
        .next (t.answer (.station n) ⟨4, .accepted, t.lifeResult (posAt n sl) i .noGauge 0⟩) ∧
      Settles (wearAt (posAt n sl) m) t ∧
      ((s.pos (posAt n sl)).required.isSome = true → (s.pos (posAt n sl)).suspended = false →
        s.partsLeft w ≤ f.stage → (t.pos (posAt n sl)).need ≠ .noNeed)

/-- R51, R52: DRESS charges the wheel and then the roll of the station, each n × Dd of its own type by its own F and
remainder; the wear triggers of the wheel and then the roll follow. -/
def Obligations.DressChargesBoth : Prop :=
  ∀ (n : Station) (sl : Slot) (k : Nat) (s : State) (i j : EntryIx) (u v : Tool),
    s.listening (.station n) = true → sl ≠ .d → 1 ≤ k → k ≤ 15 → i ≠ j →
    (s.pos (posAt n sl)).service = .serving ∨ (s.pos (posAt n sl)).service = .due ∨
      (s.pos (posAt n sl)).service = .held →
    (s.pos (posAt n .d)).service = .serving ∨ (s.pos (posAt n .d)).service = .due ∨
      (s.pos (posAt n .d)).service = .held →
    s.mountedTool (posAt n sl) = some (i, u) → s.mountedTool (posAt n .d) = some (j, v) →
    let dressed (w : Tool) : Tool :=
      let f := s.figures w.type
      let q := k * f.dd * f.factor + w.rem
      { w with
        r := w.r - q / 1000
        rem := if w.r < q / 1000 then 0 else q % 1000
        nnom := min 16777215 (w.nnom + k * f.dd)
        dresses := min 16777215 (w.dresses + k) }
    let m := (s.setTool i (some (dressed u))).setTool j (some (dressed v))
    ∃ t : State, exec (.dress (.station n) sl.num k) s =
        .next (t.answer (.station n) ⟨5, .accepted,
          t.lifeResult (posAt n sl) i .noGauge 0 ++ t.lifeResult (posAt n .d) j .noGauge 0⟩) ∧
      Settles (wearAt (posAt n .d) (wearAt (posAt n sl) m)) t

/-- R60, R61, R63: a gauge whose layer M is at most R + G is blended: R moves by (M − R) × w / 16 truncated toward zero,
the doubt count becomes 0, the diameter is recorded, and the wear trigger follows. -/
def Obligations.GaugeBlends : Prop :=
  ∀ (n : Station) (sl : Slot) (d : Nat) (s : State) (i : EntryIx) (u : Tool),
    s.listening (.station n) = true → d ≤ 1048575 →
    (s.pos (posAt n sl)).service = .serving ∨ (s.pos (posAt n sl)).service = .due ∨
      (s.pos (posAt n sl)).service = .held →
    s.mountedTool (posAt n sl) = some (i, u) →
    let f := s.figures u.type
    let layer := if d ≤ f.dscrap then 0 else if f.dnew ≤ d then f.lnew else 5 * (d - f.dscrap)
    layer ≤ u.r + f.g →
    let w := if u.r ≤ f.z then 16 else f.k
    let m := s.setTool i (some { u with
      r := ((u.r : Int) + (((layer : Int) - (u.r : Int)) * (w : Int)).tdiv 16).toNat
      doubts := 0
      gauged := some d })
    ∃ t : State, exec (.gauge (.station n) sl.num d) s =
        .next (t.answer (.station n) ⟨6, .accepted, t.lifeResult (posAt n sl) i .blended layer⟩) ∧
      Settles (wearAt (posAt n sl) m) t

/-- R62, R64: a gauge whose layer M exceeds R + G is doubted: only the doubt count moves, to 3 at most; the third doubt
makes a SOUND tool DOUBTFUL, with the finding at its position and the notice DUE; the wear trigger follows. -/
def Obligations.GaugeDoubts : Prop :=
  ∀ (n : Station) (sl : Slot) (d : Nat) (s : State) (i : EntryIx) (u : Tool),
    s.listening (.station n) = true → d ≤ 1048575 →
    (s.pos (posAt n sl)).service = .serving ∨ (s.pos (posAt n sl)).service = .due ∨
      (s.pos (posAt n sl)).service = .held →
    s.mountedTool (posAt n sl) = some (i, u) →
    let f := s.figures u.type
    let layer := if d ≤ f.dscrap then 0 else if f.dnew ≤ d then f.lnew else 5 * (d - f.dscrap)
    u.r + f.g < layer →
    let p := s.pos (posAt n sl)
    let m :=
      if u.doubts = 2 ∧ u.condition = .sound then
        ((s.setTool i (some { u with doubts := 3, condition := .doubtful })).setPos (posAt n sl)
          (if p.service = .held then { p with resume := some .due, dueCause := some .doubt }
            else { p with service := .due, dueCause := some .doubt })).notifySlot (posAt n sl) .due
      else wearAt (posAt n sl) (s.setTool i (some { u with doubts := min 3 (u.doubts + 1) }))
    ∃ t : State, exec (.gauge (.station n) sl.num d) s =
        .next (t.answer (.station n) ⟨6, .accepted, t.lifeResult (posAt n sl) i .doubted layer⟩) ∧
      Settles m t

/-! ## Spindle and window (Chapters 4 and 8) -/

/-- R151: OPEN opens the window; the channel begins BLANKING, or WATCHING where the blank frames are 0, and in mode OFF it
keeps its state; both deglitch counts become 0 and nothing else changes. -/
def Obligations.OpenStartsChannel : Prop :=
  ∀ (n : Station) (sl : Slot) (s : State), s.listening (.station n) = true →
    let x := posAt n sl
    let p := s.pos x
    let c := s.chan x
    p.window = false → p.service = .serving ∨ p.service = .due →
    let c' : Channel :=
      if p.mode = .off then { c with aeCount := 0, powerCount := 0 }
      else
        { c with
          state := if (s.mountedFigures x).blank = 0 then .watching else .blanking
          blankCount := 0
          aeCount := 0
          powerCount := 0 }
    let t := ((s.setPos x { p with window := true }).setChan x c').commit.drive
    exec (.openWindow (.station n) sl.num) s = .next (t.answer (.station n) ⟨2, .accepted, t.positionRecord x⟩)

/-- R152: CLOSE from PC or PS is refused ROLE and another slot than A, B or D RANGE; it is taken in every service state: an
open window closes and the channel becomes IDLE with its counts at 0, its retry timer kept; a closed window changes nothing. -/
def Obligations.CloseIdlesChannel : Prop :=
  (∀ (p : Port) (slot : Nat) (s : State), p = .pc ∨ p = .ps → s.listening p = true →
    exec (.closeWindow p slot) s = .next (s.answer p ⟨3, .role, []⟩)) ∧
  ∀ (n : Station) (s : State), s.listening (.station n) = true →
    (∀ slot, 3 ≤ slot → exec (.closeWindow (.station n) slot) s = .next (s.answer (.station n) ⟨3, .range, []⟩)) ∧
    ∀ sl : Slot,
      let x := posAt n sl
      let t :=
        if (s.pos x).window = true then
          ((s.setPos x { s.pos x with window := false }).setChan x
            { s.chan x with state := .idle, blankCount := 0, aeCount := 0, powerCount := 0 }).commit.drive
        else s
      exec (.closeWindow (.station n) sl.num) s = .next (t.answer (.station n) ⟨3, .accepted, t.positionRecord x⟩)

/-- R84, R93: RELEASE in SERVING or DUE with the window closed makes the position RELEASED and keeps the rest of its record;
a required, unsuspended position whose mounted tool calls for a sister has a need afterwards. R95, R116: the need test and the
posting hand-off of the position are all that follows it: an EXCHANGE is posted for a STAGED sister, a REMOVE where no type is
required. R85, R132: RECLAIM in RELEASED
withdraws the READY or BACKLOG order of the spindle, the need of a DIRECT going back to RESERVED, and makes the position DUE
where a due cause is present, SERVING otherwise; one that becomes DUE has the notice DUE set, which is R75 read for this
step (log 39). Into a place of the queue that a withdrawal frees an order of an absent position moves like any other, the
model's reading (log 42). -/
def Obligations.SpindleIsGivenAndTakenBack : Prop :=
  ∀ (n : Station) (sl : Slot) (s : State), s.listening (.station n) = true →
    let x := posAt n sl
    let p := s.pos x
    (p.service = .serving ∨ p.service = .due → p.window = false →
      ∃ t : State, exec (.release (.station n) sl.num) s =
          .next (t.answer (.station n) ⟨7, .accepted, t.positionRecord x⟩) ∧
        Settles (s.setPos x { p with service := .released }) t ∧
        (∀ (i : EntryIx) (u : Tool) (k : TypeIx), s.mountedTool x = some (i, u) → p.required = some k →
          p.suspended = false → u.type ≠ k ∨ u.condition ≠ .sound ∨ s.partsLeft u ≤ (s.figures k).stage →
          (t.pos x).need ≠ .noNeed) ∧
        t.ret = (((Ev.start (s.setPos x { p with service := .released })).needTest x).handOff x).st.ret ∧
        (p.suspended = false → s.ret.queue.length < 16 ∨ s.ret.backlog.length < 24 →
          (∀ i, p.need = .staged → p.sister = some i →
            (∀ j v, p.rack = .entry j → s.tool j = some v → v.state ≠ .offloaded) →
            (∀ q ∈ s.standing, ¬(q.kind = .exchange ∧ q.pos = x)) →
            ExchangeStands x i ((s.mountedTool x).map (·.1)) p.urgent t) ∧
          (∀ j v, p.need = .noNeed → p.required = none → p.rack = .bare → s.mountedTool x = some (j, v) →
            ∃ q ∈ t.standing, q.kind = .remove ∧ q.pos = x ∧ q.outgoing = some j ∧ q.busy = false ∧
              q.urgent = decide (v.condition = .broken) ∧ (t.pos x).rack = .booked q.number))) ∧
    (p.service = .released →
      let back (p : Position) : Position := { p with service := if p.dueCause.isSome then .due else .serving }
      let m :=
        match s.waitingSpindleOrder x with
        | none => s.setPos x (back p)
        | some o =>
          let u := withdrawn o s
          u.setPos x (back (if o.kind = .direct then { u.pos x with need := .reserved } else u.pos x))
      ∃ t : State, exec (.reclaim (.station n) sl.num) s =
          .next (t.answer (.station n) ⟨8, .accepted, t.positionRecord x⟩) ∧
        Settles (if p.dueCause.isSome then m.notifySlot x .due else m) t)

/-- R87, R163: VERDICT OK in HELD ends the hold, zeroes the retry count, cancels the retry timer and restarts the channel; a
position that resumes DUE has the notice DUE set, which is R75 read for this step (log 39). R86, R163: VERDICT BROKEN in
SERVING, DUE or HELD makes the mounted tool BROKEN and the position DUE with cause BROKEN, ends a hold, sets DUE, makes a
standing need urgent, and restarts the channel; a required, unsuspended position has an urgent need afterwards. That a restart
in mode OFF keeps the deglitch counts of the channel it makes IDLE is the model's choice (log 23). -/
def Obligations.VerdictsJudge : Prop :=
  ∀ (n : Station) (sl : Slot) (s : State), s.listening (.station n) = true →
    let x := posAt n sl
    let p := s.pos x
    (p.service = .held →
      let m := (s.setPos x { holdEnded p with retryCount := 0 }).setChan x (channelRestarted s x)
      ∃ t : State, exec (.verdictOk (.station n) sl.num) s =
          .next (t.answer (.station n) ⟨9, .accepted, t.positionRecord x⟩) ∧
        Settles (if p.resume = some .due then m.notifySlot x .due else m) t) ∧
    ∀ (i : EntryIx) (u : Tool), p.service = .serving ∨ p.service = .due ∨ p.service = .held →
      s.mountedTool x = some (i, u) →
      let m := (((s.setTool i (some { u with condition := .broken })).setPos x { p with
        service := .due
        dueCause := some .broken
        holdCause := none
        resume := none
        urgent := if p.need = .noNeed then p.urgent else true }).notifySlot x .due).setChan x (channelRestarted s x)
      ∃ t : State, exec (.verdictBroken (.station n) sl.num) s =
          .next (t.answer (.station n) ⟨9, .accepted, t.positionRecord x⟩) ∧
        Settles m t ∧
        (p.required.isSome = true → p.suspended = false → (t.pos x).need ≠ .noNeed ∧ (t.pos x).urgent = true)

/-- R167, R168: MONITOR SET stores the three settings and clamps the retry count to the new limit; a change of mode with
the window open acts on the channel unless the position is HELD. That a change to mode OFF keeps the deglitch counts is the
model's choice (log 23). -/
def Obligations.MonitorSetStores : Prop :=
  ∀ (x : PosIx) (md : Mode) (r l : Nat) (s : State), s.listening .ps = true → s.present x = true →
    r = 1 ∨ r = 2 ∨ r = 4 ∨ r = 8 → 1 ≤ l → l ≤ 7 →
    let p := s.pos x
    let c := s.chan x
    let c' : Channel :=
      if p.mode = md ∨ p.service = .held ∨ p.window = false then c
      else if md = .off then { c with state := .idle, blankCount := 0 }
      else
        { c with
          state := if (s.mountedFigures x).blank = 0 then .watching else .blanking
          blankCount := 0
          aeCount := 0
          powerCount := 0 }
    let t := ((s.setPos x { p with
      mode := md
      retryTime := r
      retryLimit := l
      retryCount := min l p.retryCount }).setChan x c').commit.drive
    exec (.monitorSet .ps x.val md.num r l) s = .next (t.answer .ps ⟨39, .accepted, t.positionRecord x⟩)

/-! ## Catalogue (Chapter 1) -/

/-- R9 with R2 to R5: TYPE SET of a type that is not in use, and is UNDEFINED or has another geometry, stores every field,
clamped; Lnew is 5 × (Dnew − Dscrap), F is the given value or 1,000, the learn count is 0; nothing else changes. -/
def Obligations.TypeSetDefines : Prop :=
  ∀ (k : TypeIx) (f : TypeSetOperands) (s : State), s.listening .ps = true → typeSetInRange f = true →
    (∀ i u, s.tool i = some u → u.type ≠ k) → (∀ x, (s.pos x).required ≠ some k) →
    (∀ old, s.typ k = some old → ¬(old.kind = kindOf f ∧ old.dnew = f.dnew ∧ old.dscrap = f.dnew - f.ddiff)) →
    let t := (s.setType k (some {
      kind := if f.flags.testBit 0 then .dresser else .wheel
      dnew := f.dnew
      dscrap := f.dnew - f.ddiff
      lnew := 5 * f.ddiff
      dd := f.dd
      wp := f.wp
      ppd := f.ppd
      rchg := f.rchg
      stage := f.stage
      pmin := f.pmin
      policy := if f.flags.testBit 1 then .mostFirst else .leastFirst
      k := min 16 f.k
      z := f.z
      g := f.g
      aeLimit := f.aeLimit
      powerLimit := f.powerLimit
      blank := f.blank
      deglitch := if f.deglitch = 0 then 1 else min 64 f.deglitch
      factor := if f.flags.testBit 2 then f.factor else 1000
      learnCount := 0 })).commit.drive
    exec (.typeSet .ps (k.val + 1) f) s = .next (t.answer .ps ⟨32, .accepted, t.typeResult k⟩)

/-- R10, R11: TYPE SET with the stored geometry keeps kind, Dnew, Dscrap and Lnew, replaces the other figures, keeps F and
the learn count unless F is given; the wear triggers of the type's mounted tools follow in position order. -/
def Obligations.TypeSetEdits : Prop :=
  ∀ (k : TypeIx) (f : TypeSetOperands) (s : State) (old : TypeRec), s.listening .ps = true → typeSetInRange f = true →
    s.typ k = some old → old.kind = kindOf f → old.dnew = f.dnew → old.dscrap = f.dnew - f.ddiff →
    let m := s.setType k (some { old with
      dd := f.dd
      wp := f.wp
      ppd := f.ppd
      rchg := f.rchg
      stage := f.stage
      pmin := f.pmin
      policy := if f.flags.testBit 1 then .mostFirst else .leastFirst
      k := min 16 f.k
      z := f.z
      g := f.g
      aeLimit := f.aeLimit
      powerLimit := f.powerLimit
      blank := f.blank
      deglitch := if f.deglitch = 0 then 1 else min 64 f.deglitch
      factor := if f.flags.testBit 2 then f.factor else old.factor
      learnCount := if f.flags.testBit 2 then 0 else old.learnCount })
    ∃ t : State, exec (.typeSet .ps (k.val + 1) f) s = .next (t.answer .ps ⟨32, .accepted, t.typeResult k⟩) ∧
      Settles (wearAll k none m) t

/-- R13: TYPE ERASE refuses code 0 and codes above 16 RANGE, an UNDEFINED type STATE and a type in use IN_USE; otherwise
the record becomes UNDEFINED, every figure reads as zero, and there is no result. -/
def Obligations.TypeEraseChecksAndErases : Prop :=
  ∀ (code : Nat) (s : State), s.listening .ps = true →
    (code = 0 ∨ 16 < code → exec (.typeErase .ps code) s = .next (s.answer .ps ⟨33, .range, []⟩)) ∧
    ∀ k : TypeIx, code = k.val + 1 →
      let used := (∃ i u, s.tool i = some u ∧ u.type = k) ∨ ∃ x, (s.pos x).required = some k
      let t := (s.setType k none).commit.drive
      (s.typ k = none → exec (.typeErase .ps code) s = .next (s.answer .ps ⟨33, .state, []⟩)) ∧
      (s.typ k ≠ none → used → exec (.typeErase .ps code) s = .next (s.answer .ps ⟨33, .inUse, []⟩)) ∧
      (s.typ k ≠ none → ¬used → exec (.typeErase .ps code) s = .next (t.answer .ps ⟨33, .accepted, []⟩) ∧
        t.typ k = none ∧ t.figures k = TypeRec.zero)

/-! ## Tools, store and positions (Chapters 2, 4 and 7) -/

/-- R30 to R32: ENROL puts a new tool with the serial, type and life given into the lowest free entry and at the place
given, STORED in a pocket, OFFLOADED on a rack, MOUNTED on a spindle. R32, R105: a tool STORED with parts-left at or above
Pmin serves the waiting list. -/
def Obligations.EnrolMakesLive : Prop :=
  ∀ (i : EntryIx) (k : TypeIx) (f : TypeRec) (pl : PutPlace) (serial mode r : Nat) (s : State),
    s.listening .ps = true → 1 ≤ serial → serial ≤ 4294967295 → mode = 0 ∨ mode = 1 ∧ r ≤ f.lnew →
    s.typ k = some f → (∀ j u, s.tool j = some u → u.serial ≠ serial) →
    s.tool i = none → (∀ j, j < i → s.tool j ≠ none) →
    (match pl with
      | .pocket q => s.pocket q = .free
      | .rack x => s.present x = true ∧ (slotOf x).kind = f.kind ∧ (s.pos x).rack = .bare
      | .spindle x => s.present x = true ∧ (slotOf x).kind = f.kind ∧ (s.pos x).service = .uncertain ∧
          ∀ j, (s.pos x).mounted ≠ .entry j) →
    let tool (st : ToolState) (at_ : Place) : Option Tool := some {
      serial := serial
      type := k
      state := st
      condition := .sound
      place := at_
      promised := none
      r := if mode = 0 then f.lnew else r
      rem := 0
      nnom := 0
      fullHistory := decide (mode = 0)
      parts := 0
      dresses := 0
      gauged := none
      doubts := 0
      trips := 0
      peakAE := 0
      peakPower := 0 }
    let kind := match pl with
      | .pocket _ => 1
      | .rack _ => 2
      | .spindle _ => 3
    let number := match pl with
      | .pocket q => q.val + 1
      | .rack x => x.val
      | .spindle x => x.val
    let m := match pl with
      | .pocket q => (s.setTool i (tool .stored (.pocket q))).setPocket q (.holds i)
      | .rack x => (s.setTool i (tool .offloaded (.rack x))).setPos x { s.pos x with rack := .entry i }
      | .spindle x => (s.setTool i (tool .mounted (.spindle x))).setPos x { s.pos x with mounted := .entry i }
    ∃ t : State, exec (.enrol .ps serial (k.val + 1) kind number mode r) s =
        .next (t.answer .ps ⟨34, .accepted, t.toolRecord i⟩) ∧
      Settles m t ∧
      (kind = 1 → f.pmin ≤ f.partsLeft (if mode = 0 then f.lnew else r) → Serves s t k i)

/-- R33: WITHDRAW of a STORED or QUARANTINED tool, or of an OFFLOADED one that no standing order names, frees the entry and
its place; the result is the serial. That the rack of an absent position becomes EMPTY like another is the model's choice
(log 25). -/
def Obligations.WithdrawFrees : Prop :=
  ∀ (i : EntryIx) (u : Tool) (s : State), s.listening .ps = true → s.tool i = some u →
    u.state = .stored ∨ u.state = .quarantined ∨
      u.state = .offloaded ∧ (∀ o ∈ s.standing, o.incoming ≠ some i ∧ o.outgoing ≠ some i) →
    let m := match u.place with
      | .pocket k => (s.setPocket k .free).setTool i none
      | .rack x => (s.setPos x { s.pos x with rack := .bare, returnWaiting := false }).setTool i none
      | _ => s.setTool i none
    ∃ t : State, exec (.withdraw .ps i.val) s = .next (t.answer .ps ⟨35, .accepted, be 4 u.serial⟩) ∧ Settles m t

/-- R36 to R38: REINSTATE of a QUARANTINED tool makes it SOUND and unpromised with doubt count 0, keeps R or takes the given
one, resets Nnom and the gauged diameter where the type changes, and moves it from its pocket to the place given. R38, R105: a
tool STORED with parts-left at or above Pmin serves the waiting list. -/
def Obligations.ReinstateRestores : Prop :=
  ∀ (i : EntryIx) (u : Tool) (ty : TypeIx) (code : Nat) (f : TypeRec) (pl : PutPlace) (mode r : Nat) (s : State),
    s.listening .ps = true → s.tool i = some u → u.state = .quarantined →
    code = 0 ∧ ty = u.type ∨ code = ty.val + 1 → s.typ ty = some f →
    mode = 0 ∧ ty = u.type ∨ mode = 1 ∧ r ≤ f.lnew →
    (match pl with
      | .pocket q => s.pocket q = .free ∨ s.pocket q = .unknown ∨ s.pocket q = .holds i
      | .rack x => s.present x = true ∧ (slotOf x).kind = f.kind ∧ ((s.pos x).rack = .bare ∨ (s.pos x).rack = .unknown)
      | .spindle x => s.present x = true ∧ (slotOf x).kind = f.kind ∧ (s.pos x).service = .uncertain ∧
          ∀ j, (s.pos x).mounted ≠ .entry j) →
    let tool (st : ToolState) (at_ : Place) : Tool := { u with
      type := ty
      state := st
      condition := .sound
      place := at_
      promised := none
      r := if mode = 0 then u.r else r
      rem := if mode = 0 then u.rem else 0
      nnom := if ty = u.type then u.nnom else 0
      fullHistory := u.fullHistory && decide (mode = 0)
      gauged := if ty = u.type then u.gauged else none
      doubts := 0 }
    let kind := match pl with
      | .pocket _ => 1
      | .rack _ => 2
      | .spindle _ => 3
    let number := match pl with
      | .pocket q => q.val + 1
      | .rack x => x.val
      | .spindle x => x.val
    let left : State := match u.place with
      | .pocket q => if pl = PutPlace.pocket q then s else s.setPocket q .free
      | _ => s
    let m := match pl with
      | .pocket q => (left.setTool i (some (tool .stored (.pocket q)))).setPocket q (.holds i)
      | .rack x => (left.setTool i (some (tool .offloaded (.rack x)))).setPos x { s.pos x with rack := .entry i }
      | .spindle x =>
        (left.setTool i (some { tool .mounted (.spindle x) with peakAE := 0, peakPower := 0 })).setPos x
          { s.pos x with mounted := .entry i }
    ∃ t : State, exec (.reinstate .ps i.val code kind number mode r) s =
        .next (t.answer .ps ⟨36, .accepted, t.toolRecord i⟩) ∧
      Settles m t ∧
      (kind = 1 → f.pmin ≤ f.partsLeft (if mode = 0 then u.r else r) → Serves s t ty i)

/-- R39: DECLARE of an UNKNOWN pocket makes it FREE; a waiting RETURN may then book it. R91: DECLARE of a position that is
UNCERTAIN or whose rack is UNKNOWN cancels the need, makes an UNKNOWN rack EMPTY and an UNKNOWN mounted field none, and
judges an UNCERTAIN position from its mounted tool by the table of R91; the wear trigger follows for a SOUND tool, the notice
DUE is set for a position judged DUE. The model's readings: a HELD position keeps its causes, R74 beside R91 (log 38); into a
place of the queue that a withdrawal frees an order of an absent position moves like any other (log 42). -/
def Obligations.DeclareFreesAndJudges : Prop :=
  ∀ s : State, s.listening .ps = true →
    (∀ k : PocketIx, s.pocket k = .unknown →
      ∃ t : State, exec (.declarePocket .ps (k.val + 1)) s =
          .next (t.answer .ps ⟨37, .accepted, byte (k.val + 1) :: pocketBytes (t.pocket k)⟩) ∧
        Settles (s.setPocket k .free) t) ∧
    ∀ x : PosIx, s.present x = true → (s.pos x).service = .uncertain ∨ (s.pos x).rack = .unknown →
      let u := needCancelled x s
      let p := u.pos x
      let p : Position := { p with
        rack := if p.rack = .unknown then .bare else p.rack
        mounted := if p.mounted = .unknown then .bare else p.mounted }
      let v := u.setPos x p
      let judged (w : Service) (d : Option DueCause) : State :=
        v.setPos x { p with service := w, dueCause := d, holdCause := none, resume := none }
      let m :=
        if (s.pos x).service = .uncertain then
          match v.mountedTool x with
          | none => judged .vacant none
          | some (_, w) =>
            match w.condition with
            | .sound => wearAt x (judged .serving none)
            | .worn => (judged .due (some .worn)).notifySlot x .due
            | .doubtful => (judged .due (some .doubt)).notifySlot x .due
            | .broken => (judged .due (some .broken)).notifySlot x .due
        else v
      ∃ t : State, exec (.declarePosition .ps x.val) s = .next (t.answer .ps ⟨37, .accepted, t.positionRecord x⟩) ∧
        Settles m t

/-- R89, R132: ASSIGN of the type already required changes nothing; another one is stored, a waiting REMOVE is withdrawn
where the new type is not 0, and the need is cancelled. Into a place of the queue that a withdrawal frees an order of an absent
position moves like any other, the model's reading (log 42). -/
def Obligations.AssignStoresAndCancels : Prop :=
  ∀ (x : PosIx) (req : Option TypeIx) (s : State), s.listening .ps = true → s.present x = true →
    (∀ k, req = some k → ∃ f, s.typ k = some f ∧ f.kind = (slotOf x).kind) →
    let code := req.elim 0 fun k => k.val + 1
    ((s.pos x).required = req →
      exec (.assign .ps x.val code) s = .next (s.answer .ps ⟨38, .accepted, s.positionRecord x⟩)) ∧
    ((s.pos x).required ≠ req →
      let u := s.setPos x { s.pos x with required := req }
      let v := if req.isSome then (u.waitingRemove x).elim u fun o => withdrawn o u else u
      ∃ t : State, exec (.assign .ps x.val code) s = .next (t.answer .ps ⟨38, .accepted, t.positionRecord x⟩) ∧
        Settles (needCancelled x v) t)

/-- R146, R156: ROUTE SET of the route a slot already has changes nothing; another one replaces it, and the deglitch counts
of the signals it takes the route from and gives it to become 0. Position 255 stands for none, and goes with a signal of
AE or POWER all the same (log 7). -/
def Obligations.RouteSetReplaces : Prop :=
  ∀ (h : HwSlot) (v g : Nat) (to_ : Option Target) (s : State), s.listening .ps = true →
    (match to_ with
      | none => v = 255 ∧ g ≤ 1
      | some t => v = t.pos.val ∧ g = t.signal.num ∧ s.present t.pos = true ∧
          ∀ k, k ≠ h → s.route k ≠ some t) →
    let silence (t : Option Target) (u : State) : State :=
      match t with
      | none => u
      | some t =>
        match t.signal with
        | .ae => u.setChan t.pos { u.chan t.pos with aeCount := 0 }
        | .power => u.setChan t.pos { u.chan t.pos with powerCount := 0 }
    let t := if s.route h = to_ then s else (silence to_ (silence (s.route h) (s.setRoute h to_))).commit.drive
    exec (.routeSet .ps h.val v g) s = .next (t.answer .ps ⟨41, .accepted, t.routeTable⟩)

/-- R135, R169: TIMEOUT SET of 30 to 1,800 seconds stores the timeout, and CLEAR RETRIES of a present position sets its
retry count to 0; neither changes anything else: no deadline, no hold, no timer. R136: RESUME of a suspended position clears
the suspended flag and the failed-order count. -/
def Obligations.SettingsAreStored : Prop :=
  ∀ s : State, s.listening .ps = true →
    (∀ n : Nat, 30 ≤ n → n ≤ 1800 →
      exec (.timeoutSet .ps n) s =
        .next ((State.drive (State.commit { s with ret.timeout := n })).answer .ps ⟨42, .accepted, be 2 n⟩)) ∧
    ∀ x : PosIx, s.present x = true →
      (let t := (s.setPos x { s.pos x with retryCount := 0 }).commit.drive
      exec (.clearRetries .ps x.val) s = .next (t.answer .ps ⟨40, .accepted, t.positionRecord x⟩)) ∧
      ((s.pos x).suspended = true →
        ∃ t : State, exec (.resume .ps x.val) s = .next (t.answer .ps ⟨43, .accepted, t.positionRecord x⟩) ∧
          Settles (s.setPos x { s.pos x with suspended := false, failed := 0 }) t)

/-! ## The changer (Chapter 6) -/

/-- R124, R79: TAKE, while no order is TAKEN or IN_DOUBT, hands out the first READY order of a present position: it becomes
TAKEN at the head of the queue with its deadline, its tools become MOVING at GRIPPER, the places of Table 6-2 become
BOOKED, and the position of an EXCHANGE, DIRECT or REMOVE becomes EXCHANGING. -/
def Obligations.TakeHandsOut : Prop :=
  ∀ (o : Order) (s : State), s.listening .pc = true → s.busyOrder = none → s.nextOrder = some o →
    let n := o.number
    let p := s.pos o.pos
    let grip (j : Option EntryIx) (u : State) : State :=
      j.elim u fun i => u.setTool i ((u.tool i).map fun w => { w with state := .moving, place := .gripper })
    let u : State := { s with
      ret.queue := { o with state := .taken } :: s.ret.queue.filter (fun q => decide (q.number ≠ n))
      vol.swapDeadline := some (s.vol.ms + BitVec.ofNat 32 (s.ret.timeout * 1000)) }
    let u := grip o.outgoing (grip o.incoming u)
    let u := if o.kind = .stage ∨ o.kind = .direct then o.pocket.elim u fun k => u.setPocket k (.booked n) else u
    let m := u.setPos o.pos <|
      match o.kind with
      | .stage => p
      | .return_ => { p with rack := .booked n }
      | .exchange =>
        { p with rack := .booked n, mounted := .booked n, service := .exchanging, holdCause := none, resume := none }
      | .direct | .remove =>
        { p with mounted := .booked n, service := .exchanging, holdCause := none, resume := none }
    ∃ t : State, exec (.takeOrder .pc) s =
        .next (t.answer .pc ⟨16, .accepted, t.orderRecord { o with state := .taken }⟩) ∧
      Settles m t

/-- R126: the DONE of a STAGE frees the sister's pocket and brings the tool to the rack: STAGED, with its need, where it is
still promised, with the notice STAGED; OFFLOADED otherwise. The failed-order count becomes 0. R95, R116, R117: the EXCHANGE of
a STAGED sister is posted where the position is RELEASED or VACANT, and the RETURN of an OFFLOADED one. Into the place that the
retired order frees an order of an absent position moves like any other, the model's reading (log 42). -/
def Obligations.DoneStageArrives : Prop :=
  ∀ (o : Order) (i : EntryIx) (k : PocketIx) (w : Tool) (s : State), s.listening .pc = true →
    s.busyOrder = some o → o.number ≠ 0 → s.present o.pos = true →
    o.kind = .stage → o.incoming = some i → o.pocket = some k → s.tool i = some w →
    let x := o.pos
    let p := s.pos x
    let u := (s.retire o.number).setPocket k .free
    let m :=
      if w.promised = some x then
        ((u.setTool i (some { w with state := .staged, place := .rack x })).setPos x
          { p with rack := .entry i, need := .staged, failed := 0 }).notifySlot x .staged
      else
        (u.setTool i (some { w with state := .offloaded, place := .rack x })).setPos x
          { p with rack := .entry i, failed := 0 }
    ∃ t : State, exec (.doneOrder .pc o.number) s = .next (t.answer .pc ⟨17, .accepted, be 2 o.number ++ [1]⟩) ∧
      Settles m t ∧
      (p.suspended = false → p.rack = .booked o.number → s.standing.length ≤ 40 →
        (w.promised = some x → p.sister = some i → p.service = .released ∨ p.service = .vacant →
          (∀ q ∈ s.standing, ¬(q.kind = .exchange ∧ q.pos = x)) →
          ExchangeStands x i ((m.mountedTool x).map (·.1)) p.urgent t) ∧
        (w.promised ≠ some x → OrderLaw s → NamedByNoOther s o.number i →
          ReturnStands x i w.condition (fun j => s.pocket j = .free ∨ j = k) t))

/-- R127, R79, R65 to R67: the DONE of an EXCHANGE or DIRECT mounts the incoming tool with no promise and peaks 0, takes the
outgoing tool OFFLOADED to the rack, frees the pocket of a DIRECT, makes the position SERVING with nothing due, held or
needed and both counts 0, sets EXCHANGED, and lets the outgoing tool teach; the wear trigger of the new tool follows. R95,
R117: the RETURN of the outgoing tool is posted, here where the learning update concerns no other position. Into the place that
the retired order frees an order of an absent position moves like any other, the model's reading (log 42). -/
def Obligations.DoneExchangeMounts : Prop :=
  ∀ (o : Order) (i : EntryIx) (w : Tool) (s : State), s.listening .pc = true →
    s.busyOrder = some o → o.Shaped s → s.present o.pos = true →
    o.kind = .exchange ∨ o.kind = .direct → o.incoming = some i → s.tool i = some w →
    let x := o.pos
    let u := (s.retire o.number).setTool i (some { w with
      state := .mounted, place := .spindle x, promised := none, peakAE := 0, peakPower := 0 })
    let u := o.outgoing.elim u fun j =>
      u.setTool j ((s.tool j).map fun v => { v with state := .offloaded, place := .rack x })
    let u := o.pocket.elim u fun k => u.setPocket k .free
    let m := (u.setPos x { s.pos x with
      service := .serving
      mounted := .entry i
      rack := o.outgoing.elim .bare .entry
      dueCause := none
      holdCause := none
      resume := none
      need := .noNeed
      sister := none
      urgent := false
      failed := 0
      retryCount := 0 }).notifySlot x .exchanged
    ∃ t : State, exec (.doneOrder .pc o.number) s =
        .next (t.answer .pc ⟨17, .accepted, be 2 o.number ++ [if o.kind = .exchange then 2 else 3]⟩) ∧
      Settles (wearAt x (learned o.outgoing (some i) m)) t ∧
      ∀ j v, o.outgoing = some j → s.tool j = some v → (s.pos x).suspended = false → (s.pos x).rack = .booked o.number →
        OrderLaw s → NamedByNoOther s o.number j →
        (v.condition = .worn → v.fullHistory = true → ConcernsOnly s x v.type) →
        ReturnStands x j v.condition (fun k => s.pocket k = .free ∨ o.pocket = some k) t

/-- R127, R79: the DONE of a REMOVE takes the tool OFFLOADED to the rack and leaves the position VACANT with nothing due or
held and both counts 0; the tool may teach. R95, R117: its RETURN is posted, here where the learning update concerns no other
position. Into the place that the retired order frees an order of an absent position moves like any other, the model's reading
(log 42). -/
def Obligations.DoneRemoveVacates : Prop :=
  ∀ (o : Order) (j : EntryIx) (v : Tool) (s : State), s.listening .pc = true →
    s.busyOrder = some o → o.number ≠ 0 → s.present o.pos = true →
    o.kind = .remove → o.outgoing = some j → s.tool j = some v →
    let x := o.pos
    let m := ((s.retire o.number).setTool j (some { v with state := .offloaded, place := .rack x })).setPos x { s.pos x with
      service := .vacant
      mounted := .bare
      rack := .entry j
      dueCause := none
      holdCause := none
      resume := none
      failed := 0
      retryCount := 0 }
    ∃ t : State, exec (.doneOrder .pc o.number) s = .next (t.answer .pc ⟨17, .accepted, be 2 o.number ++ [4]⟩) ∧
      Settles (learned (some j) none m) t ∧
      ((s.pos x).suspended = false → (s.pos x).rack = .booked o.number → OrderLaw s → NamedByNoOther s o.number j →
        (v.condition = .worn → v.fullHistory = true → ConcernsOnly s x v.type) →
        ReturnStands x j v.condition (fun k => s.pocket k = .free) t)

/-- R128: the DONE of a RETURN empties the rack; a tool for a pocket becomes STORED there, or QUARANTINED with the notice
QUARANTINE where it is DOUBTFUL; a tool for the chute leaves its entry free. The failed-order count becomes 0. R105: a SOUND tool
STORED with parts-left at or above Pmin serves the waiting list. Into the place that the retired order frees an order of an
absent position moves like any other, the model's reading (log 42). -/
def Obligations.DoneReturnStores : Prop :=
  ∀ (o : Order) (j : EntryIx) (v : Tool) (s : State), s.listening .pc = true →
    s.busyOrder = some o → o.number ≠ 0 → s.present o.pos = true →
    o.kind = .return_ → o.outgoing = some j → s.tool j = some v →
    let x := o.pos
    let u := (s.retire o.number).setPos x { s.pos x with rack := .bare, failed := 0 }
    let m :=
      match o.pocket with
      | none => u.setTool j none
      | some k =>
        if v.condition = .doubtful then
          ((u.setPocket k (.holds j)).setTool j (some { v with state := .quarantined, place := .pocket k })).notify .ps
            .quarantine
        else (u.setPocket k (.holds j)).setTool j (some { v with state := .stored, place := .pocket k })
    ∃ t : State, exec (.doneOrder .pc o.number) s = .next (t.answer .pc ⟨17, .accepted, be 2 o.number ++ [5]⟩) ∧
      Settles m t ∧
      (o.pocket.isSome = true → v.condition = .sound → (s.figures v.type).pmin ≤ s.partsLeft v → Serves s t v.type j)

/-- R129, R130: a FAIL with GRIP or BLOCKED puts every tool and place of the order back; a sister that is STORED again is
arbitrated (R105, R109); then the failed-order count goes up, to 2 at most, and a count that becomes 2 suspends the position
with the notice SUSPENDED. That the count comes after the arbitration and before the need test is the model's reading
(log 20), and so is that an order of an absent position moves into the place that the retired order frees like any other
(log 42). -/
def Obligations.FailPutsBack : Prop :=
  ∀ (o : Order) (reason entry : Nat) (s : State), s.listening .pc = true →
    s.busyOrder = some o → o.Shaped s → s.present o.pos = true → reason = 0 ∨ reason = 1 →
    let x := o.pos
    let u := restored o none s
    let v := (o.incoming.elim (Ev.start u) fun i => (Ev.start u).offerTool i).st
    let p := v.pos x
    let m :=
      if (s.pos x).failed = 1 then (v.setPos x { p with failed := 2, suspended := true }).notify .ps .suspended
      else v.setPos x { p with failed := min 2 (p.failed + 1) }
    ∃ t : State, exec (.failOrder .pc o.number reason entry) s =
        .next (t.answer .pc ⟨18, .accepted, be 2 o.number ++ [byte o.kind.num]⟩) ∧
      Settles m t

/-- R131, R80, R94: a FAIL with EMPTY makes the tool it names QUARANTINED at UNKNOWN and puts the others back; a named
sister's need is cancelled; the notice QUARANTINE is set and the failed-order count is kept. Into the place that the retired
order frees an order of an absent position moves like any other, the model's reading (log 42). -/
def Obligations.FailEmptyLosesTool : Prop :=
  ∀ (o : Order) (i : EntryIx) (s : State), s.listening .pc = true →
    s.busyOrder = some o → o.Shaped s → s.present o.pos = true → o.incoming = some i ∨ o.outgoing = some i →
    let x := o.pos
    let u := restored o (some i) s
    let m :=
      if o.incoming = some i ∧ (s.pos x).sister = some i then
        u.setPos x { u.pos x with need := .noNeed, sister := none, urgent := false }
      else u
    ∃ t : State, exec (.failOrder .pc o.number 2 i.val) s =
        .next (t.answer .pc ⟨18, .accepted, be 2 o.number ++ [byte o.kind.num]⟩) ∧
      Settles (m.notify .ps .quarantine) t

/-- R133, R81: when the count reaches the deadline of the taken order, its tools become QUARANTINED at UNKNOWN, every place
it booked becomes UNKNOWN, an order that booked the spindle leaves the position UNCERTAIN, the need for its sister is
cancelled, the order is retired, its number enters the memory of the last 4, and EXPIRED, QUARANTINE and, with the
spindle, UNCERTAIN are set. Into the place that the retired order frees an order of an absent position moves like any other, the
model's reading (log 42). -/
def Obligations.SwapExpiryLosesPlaces : Prop :=
  ∀ (o : Order) (s : State), s.running = true → s.busyOrder = some o → s.vol.swapDeadline = some s.vol.ms →
    let n := o.number
    let x := o.pos
    let p := s.pos x
    let lose (j : Option EntryIx) (u : State) : State := j.elim u fun i => u.setTool i ((u.tool i).map lost)
    let spindle : Bool := decide (o.kind = .exchange ∨ o.kind = .direct ∨ o.kind = .remove)
    let gone : Bool := o.incoming.isSome && decide (p.sister = o.incoming)
    let u := lose o.outgoing (lose o.incoming (s.retire n))
    let u := o.pocket.elim u fun k => if s.pocket k = .booked n then u.setPocket k .unknown else u
    let u := u.setPos x { p with
      rack := if p.rack = .booked n then .unknown else p.rack
      mounted := if p.mounted = .booked n then .unknown else p.mounted
      service := if spindle then .uncertain else p.service
      dueCause := if spindle then none else p.dueCause
      holdCause := if spindle then none else p.holdCause
      resume := if spindle then none else p.resume
      need := if gone then .noNeed else p.need
      sister := if gone then none else p.sister
      urgent := if gone then false else p.urgent }
    let u : State := { u with ret.expired := (s.ret.expired ++ [n]).drop (s.ret.expired.length + 1 - 4) }
    let u := (u.notify .pc .expired).notify .ps .quarantine
    let m := if spindle then u.notify .ps .uncertain else u
    ∃ t : State, exec .swapDeadlineExpiry s = .next t ∧ Settles m t

/-! ## Time base and highway (Chapters 7 to 9) -/

/-- R161, R77: when the count reaches the retry timer of a position HELD with cause RETRY, the timer becomes none, the hold
ends in the resume state and the channel is restarted. That a restart in mode OFF keeps the deglitch counts of the channel it
makes IDLE is the model's choice (log 23). -/
def Obligations.RetryExpiryEndsHold : Prop :=
  ∀ (x : PosIx) (s : State), s.running = true → s.present x = true → (s.chan x).retryTimer = some s.vol.ms →
    (s.pos x).service = .held → (s.pos x).holdCause = some .retry →
    ∃ t : State, exec (.retryTimerExpiry x) s = .next t ∧
      Settles ((s.setPos x (holdEnded (s.pos x))).setChan x (channelRestarted s x)) t

/-- R189: a tick advances the count by 1, and after 4,294,967,295 to 0; where no deadline and no timer stands at the present
count, it changes nothing else (the expiries that a tick takes where one is due are the model's choice, log 9). While the part
takes no events it changes nothing. -/
def Obligations.TickAdvancesCount : Prop :=
  ∀ s : State,
    (s.running = true → ∃ t : State, exec .millisecondTick s = .next t ∧ t.vol.ms.toNat = (s.vol.ms.toNat + 1) % 4294967296) ∧
    (s.running = true → s.vol.lossDeadline ≠ some s.vol.ms →
      (s.busyOrder ≠ none → s.vol.swapDeadline ≠ some s.vol.ms) →
      (∀ x, (s.chan x).retryTimer ≠ some s.vol.ms) →
      exec .millisecondTick s = .next { s with vol.ms := s.vol.ms + 1 }) ∧
    (s.running = false → exec .millisecondTick s = .next s)

/-- R140, R144, R153 to R160: every well-formed frame sets the loss deadline to the present count plus 3. In HUNT with lock
count 0 to 2 the lock count goes up and nothing is delivered; in LOCKED, and as the fourth frame in HUNT, the frame is
delivered: the last samples become its validity flags, and every channel takes it in position order. That a signal without a
valid sample has its count set to 0, where R154 has an unwatched position evaluate nothing, is the model's choice (log 22), and
that the command is the 256th bit of a frame whatever the lines have brought before it is too (log 16). -/
def Obligations.WellFormedFrameIsTaken : Prop :=
  ∀ (words : Vector SampleWord 16) (s : State), s.running = true →
    (s.vol.lock = .hunt → s.vol.lockCount ≤ 2 →
      exec (.wellFormedFrame words) s = .next { s with
        vol.lossDeadline := some (s.vol.ms + 3)
        vol.line := .complete
        vol.lockCount := s.vol.lockCount + 1 }) ∧
    (s.vol.lock = .locked ∨ s.vol.lock = .hunt ∧ s.vol.lockCount = 3 →
      let u : State := { s with
        vol.lossDeadline := some (s.vol.ms + 3)
        vol.line := .complete
        vol.lock := .locked
        vol.lockCount := if s.vol.lock = .locked then s.vol.lockCount else 0
        vol.lastSamples := words.map fun w => some (w.getLsbD 15) }
      ∃ t : State, exec (.wellFormedFrame words) s = .next t ∧
        Settles ((List.finRange 12).foldl (fun m x => delivered words x m) u) t)

/-- R141, R142: a malformed frame raises the error count, to 255 at most; it and the reaching of the loss deadline make the
receiver HUNT with lock count 0 and no loss deadline; leaving LOCKED sets HIGHWAY at PS and BLIND at every present station
with an open window. An expiry given while no deadline is reached changes nothing: the model's choice (log 8). That the command
of a short frame stands for a frame in progress whatever the lines have brought, and the list of bits as a command, are the
model's own (log 16). R139: bit by
bit, a strobe begins a frame and cuts a frame in progress short; a low bit adds to the frame in progress, whose 256th bit
makes it well formed, is an overrun after a well-formed frame, and is ignored otherwise. The 256 bits of sixteen words, each
from its most significant bit, are their frame. -/
def Obligations.LockIsDropped : Prop :=
  ∀ s : State, s.running = true →
    let drop (u : State) : State :=
      let m : State := { u with vol.lock := .hunt, vol.lockCount := 0, vol.lossDeadline := none }
      if u.vol.lock = .locked then
        (List.finRange 4).foldl (fun m n =>
          if n.val < s.strap.count ∧ ((s.pos (posAt n .a)).window = true ∨ (s.pos (posAt n .b)).window = true ∨
              (s.pos (posAt n .d)).window = true) then m.notify (.station n) .blind
          else m)
          (m.notify .ps .highway)
      else m
    let malformed (l : HwLine) : State :=
      (drop { s with vol.errors := min 255 (s.vol.errors + 1), vol.line := l }).drive
    (∀ next, exec (.malformedFrame (.short next)) s = .next (malformed (.receiving [next]))) ∧
    exec (.malformedFrame .overrun) s = .next (if s.vol.line = .complete then malformed .quiet else s) ∧
    (s.vol.lossDeadline = some s.vol.ms → exec .lossDeadlineReached s = .next (drop s).drive) ∧
    (s.vol.lossDeadline ≠ some s.vol.ms → exec .lossDeadlineReached s = .next s) ∧
    (∀ d, exec (.malformedFrame (.sampled [⟨true, d⟩])) s = .next (
      match s.vol.line with
      | .receiving _ => malformed (.receiving [d])
      | _ => { s with vol.line := .receiving [d] })) ∧
    (∀ d, exec (.malformedFrame (.sampled [⟨false, d⟩])) s =
      match s.vol.line with
      | .quiet => .next s
      | .complete => .next (malformed .quiet)
      | .receiving bits =>
        if bits.length < 255 then .next { s with vol.line := .receiving (bits ++ [d]) }
        else exec (.wellFormedFrame (wordsOf (bits ++ [d]))) s) ∧
    (∀ a b, ∃ t, exec (.malformedFrame (.sampled a)) s = .next t ∧
      exec (.malformedFrame (.sampled (a ++ b))) s = exec (.malformedFrame (.sampled b)) t) ∧
    ∀ words : Vector SampleWord 16, ∀ d rest, (∀ bits, s.vol.line ≠ .receiving bits) →
      d :: rest = ((List.finRange 16).flatMap fun h => (List.range 16).map fun j => words[h].getLsbD (15 - j)) →
      exec (.malformedFrame (.sampled (⟨true, d⟩ :: rest.map fun v => ⟨false, v⟩))) s = exec (.wellFormedFrame words) s

/-! ## Starts, RESET and the supplies (2.7 of Chapter 2) -/

/-- R43, R44, R45, R71, R97, R113, R138, R149, R171, R187 to R189: a warm start, at RESTART, at the release of RESET, and at
a power-on whose retention check matches, whether taken at once or at the release of RESET. Retained state is kept but for
the adjustments: windows close, a hold with cause RETRY takes cause TRIP, a TAKEN order becomes IN_DOUBT with a full new
deadline while its position is present. All else takes its start value, RESTARTED and the HELD notices are set, and
ORDER_READY where the test of R123 holds. Arbitration follows for each type that a present, unsuspended position of the waiting
list requires, in list order, with the hand-offs of the positions served: retained state is what these leave, and where no
position waits it is the adjusted one. A request in reception is discarded and a fetch goes on. The model's own: the strap that
RESTART reads (log 15), the field `sent`, which a start keeps (log 17), the adjustment of absent positions' records (log 18), a
transaction without a complete kind byte, which stays idle (log 40). -/
def Obligations.WarmStartKeepsRetained : Prop :=
  ∀ (pins : Strap) (s : State),
    let adjusted (pins : Strap) (s : State) : State :=
      let count := 1 + (if pins.nst0 then 1 else 0) + (if pins.nst1 then 2 else 0)
      let here (x : PosIx) : Bool := decide (x.val / 3 < count)
      { s with
        strap := pins
        lastStart := .warm
        ret.positions := s.ret.positions.map fun p => { p with
          window := false
          holdCause := if p.service = .held ∧ p.holdCause = some .retry then some .trip else p.holdCause }
        ret.queue := s.ret.queue.map fun o => { o with state := if o.state = .taken then .inDoubt else o.state }
        vol := {
          ms := 0
          swapDeadline :=
            (s.ret.queue.find? fun o => o.state = .taken || o.state = .inDoubt).bind fun o =>
              if here o.pos then some (BitVec.ofNat 32 (s.ret.timeout * 1000)) else none
          lock := .hunt
          lockCount := 0
          lossDeadline := none
          errors := 0
          lastSamples := Vector.replicate 16 none
          line := .quiet
          channels := Vector.replicate 12 ⟨.idle, 0, 0, 0, none⟩
          ports := s.vol.ports.map fun v => { v with
            mailbox := .empty
            notices := 0
            attn := false
            reception :=
              match v.reception with
              | .receiving _ => .discarded
              | r => r } } }
    let warm (u t : State) : Prop :=
      let types := (u.ret.waiting.filter fun x => u.present x && !(u.pos x).suspended).filterMap fun x => (u.pos x).required
      Settles ((List.finRange 12).foldl (fun m x => if (u.pos x).service = .held then m.notifySlot x .held else m)
        (u.notify .ps .restarted)) t ∧
      t.ret = (types.foldl (fun e k => e.arbitrate k) (Ev.start u)).handOffs.st.ret ∧
      (u.ret.waiting = [] → t.ret = u.ret) ∧
      (t.orderReady = true → (t.port .pc).notices = Notice.orderReady.mask)
    (s.listening .ps = true → ∃ t : State, exec (.restart .ps) s = .next (t.answer .ps ⟨44, .accepted, []⟩) ∧
      warm (adjusted s.pins s) t) ∧
    (s.resetHeld = true → s.supplyOn = true → s.started = true → ∃ t : State, exec (.resetRelease pins) s = .next t ∧
      warm (adjusted pins { s with resetHeld := false, pins := pins }) t) ∧
    (s.started = false → s.resetHeld = false → s.vbatLatch = false → s.marker = true → s.checkByte = checkByteOf s.ret →
      ∃ t : State, exec (.powerOnStart pins) s = .next t ∧
        warm (adjusted pins { s with supplyOn := true, started := true, pins := pins }) t) ∧
    (s.started = false → s.resetHeld = true → s.supplyOn = true → s.vbatLatch = false → s.marker = true →
      s.checkByte = checkByteOf s.ret → ∃ t : State, exec (.resetRelease pins) s = .next t ∧
        warm (adjusted pins { s with resetHeld := false, started := true, pins := pins }) t)

/-- R41, R42, R187: a power-on start with the VBAT latch set, the marker gone or a check byte that does not match is cold,
whether it is taken at power-on or at the release of RESET: every block takes its cold values, the latch is cleared, the
marker and the check byte are written, COLD is recorded, and RESTARTED and RETENTION_LOST are set at PS. The model's own: a start
keeps the field `sent` (log 17) and leaves a transaction without a complete kind byte idle (log 40). -/
def Obligations.ColdStartResets : Prop :=
  ∀ (pins : Strap) (s : State), s.started = false →
    s.vbatLatch = true ∨ s.marker = false ∨ s.checkByte ≠ checkByteOf s.ret →
    let cold : State := { s with
      ret := Retained.cold
      vol := { Volatile.start with ports := s.vol.ports.map PortState.restart }
      marker := true
      vbatLatch := false
      lastStart := .cold
      started := true
      supplyOn := true
      pins := pins
      strap := pins }
    (s.resetHeld = false →
      exec (.powerOnStart pins) s = .next ((cold.notify .ps .restarted).notify .ps .retentionLost).commit.drive) ∧
    (s.resetHeld = true → s.supplyOn = true →
      exec (.resetRelease pins) s = .next
        ((State.notify { cold with resetHeld := false } .ps .restarted).notify .ps .retentionLost).commit.drive)

/-- R44, R40, R41, R188: the assertion of RESET cuts the transactions and the highway frame in progress, asserts every
INHIBIT and releases every ATTN; while it is held no other command than a change of the supplies or its release changes
anything, but that an ignored transaction begins and ends (log 36); the main supply's failure loses what is not retained, a
mailbox and a notice set among it at once (log 13), and keeps what is; the VBAT latch is set while the main supply is off and
at no other time, and leaves retained state as it is (log 14); RESET keeps the field `sent` (log 17) and leaves a transaction
without a complete kind byte idle (log 40). The five logs are the model's choices. -/
def Obligations.ResetAndSupplies : Prop :=
  ∀ s : State,
    (s.resetHeld = false → ∃ t : State, exec .resetAssert s = .next t ∧ t.ret = s.ret ∧ t.resetHeld = true ∧
      (∀ n : Fin 4, t.inhibit[n] = true) ∧
      (∀ p, (t.port p).attn = false ∧ (t.port p).mailbox = (s.port p).mailbox ∧
        (t.port p).notices = (s.port p).notices ∧
        (t.port p).reception = (if (s.port p).reception = .idle then .idle else .discarded) ∧
        (t.port p).sent = (s.port p).sent) ∧
      t.vol = { s.vol with line := .quiet, ports := t.vol.ports }) ∧
    (s.resetHeld = true → ∀ c : Instr, (∀ pins, c ≠ .resetRelease pins ∧ c ≠ .powerOnStart pins) →
      c ≠ .mainSupplyFail → c ≠ .vbatLowLatch →
      exec c s = .next s ∨ (∃ p, c.port = some p ∧ exec c s = .next (s.endReception p)) ∨
        ∃ p sent, c = .undecodedRequest p sent ∧
          exec c s = .next (s.setPort p { s.port p with reception := .discarded })) ∧
    (∃ t : State, exec .mainSupplyFail s = .next t ∧ t.ret = s.ret ∧ t.checkByte = s.checkByte ∧ t.marker = s.marker ∧
      t.vbatLatch = s.vbatLatch ∧ t.supplyOn = false ∧ t.started = false ∧ t.running = false ∧
      (∀ p, (t.port p).mailbox = .empty ∧ (t.port p).notices = 0)) ∧
    exec .vbatLowLatch s = .next { s with vbatLatch := s.vbatLatch || !s.supplyOn }

/-! ## Ports, frames and queries (Chapter 9) -/

/-- R82, R177, R182 to R186, Tables 9-4 and 9-6 to 9-8: CHECK and the six queries answer with their records and change
nothing but the mailbox; a free entry and an UNDEFINED type are answered too, with zeros throughout (log 6). The records hold
their fields in the order and the encodings of the tables; the state byte of a DEFINED type and the outcome byte of a life
result are free (logs 37 and 2). The number bytes of a place or holding without a number, 0, and the kind and policy bytes of a
type record are the model's reading (log 27). -/
def Obligations.QueriesAnswer : Prop :=
  ∀ s : State,
    (∀ n, s.listening (.station n) = true →
      exec (.check (.station n)) s = .next (s.answer (.station n) ⟨1, .accepted,
        s.checkAnswer (posAt n .a) ++ s.checkAnswer (posAt n .b) ++ s.checkAnswer (posAt n .d)⟩) ∧
      (∀ sl : Slot, exec (.queryPosition (.station n) sl.num) s =
        .next (s.answer (.station n) ⟨50, .accepted, s.positionRecord (posAt n sl)⟩)) ∧
      (∀ i u sl, s.tool i = some u →
        u.state = .mounted ∧ u.place = .spindle (posAt n sl) ∨ u.state = .staged ∧ u.place = .rack (posAt n sl) →
        exec (.queryTool (.station n) i.val) s = .next (s.answer (.station n) ⟨49, .accepted, s.toolRecord i⟩))) ∧
    (∀ p, p = .pc ∨ p = .ps → s.listening p = true →
      (∀ i : EntryIx, exec (.queryTool p i.val) s = .next (s.answer p ⟨49, .accepted, s.toolRecord i⟩)) ∧
      (∀ o rest, s.ret.queue = o :: rest →
        exec (.queryOrder p 0) s = .next (s.answer p ⟨51, .accepted, s.orderRecord o⟩)) ∧
      (∀ o ∈ s.standing, (∀ q ∈ s.standing, q.number = o.number → q = o) → o.number ≠ 0 →
        exec (.queryOrder p o.number) s = .next (s.answer p ⟨51, .accepted, s.orderRecord o⟩)) ∧
      (s.ret.queue = [] → exec (.queryOrder p 0) s = .next (s.answer p ⟨51, .noOrder, []⟩)) ∧
      (∀ n, n ≠ 0 → (∀ q ∈ s.standing, q.number ≠ n) →
        exec (.queryOrder p n) s = .next (s.answer p ⟨51, .noOrder, []⟩))) ∧
    (s.listening .ps = true →
      (∀ k : TypeIx, exec (.queryType .ps (k.val + 1)) s = .next (s.answer .ps ⟨48, .accepted, s.typeResult k⟩)) ∧
      (∀ x : PosIx, s.present x = true →
        exec (.queryPosition .ps x.val) s = .next (s.answer .ps ⟨50, .accepted, s.positionRecord x⟩)) ∧
      exec (.queryWaiting .ps) s = .next (s.answer .ps ⟨52, .accepted, s.waitingResult⟩) ∧
      exec (.queryCell .ps) s = .next (s.answer .ps ⟨53, .accepted, s.cellResult⟩)) ∧
    (∀ x, (s.positionRecord x).length = 34) ∧ (∀ i, (s.toolRecord i).length = 40) ∧
    (∀ o, (s.orderRecord o).length = 21) ∧ s.cellResult.length = 16 ∧
    (∀ x i u o m, s.tool i = some u → (s.lifeResult x i o m).length = 15) ∧
    (∀ i, s.tool i = none → s.toolRecord i = List.replicate 40 0) ∧
    (∀ i u, s.tool i = some u → ∀ n : Nat,
      (∀ o, s.standing.find? (fun o => decide (o.incoming = some i ∨ o.outgoing = some i)) = some o → n = o.number) →
      ((∀ o ∈ s.standing, o.incoming ≠ some i ∧ o.outgoing ≠ some i) → n = 0) →
      s.toolRecord i =
        [byte i.val, 1] ++ be 4 u.serial ++ [byte (u.type.val + 1), byte u.state.num, byte u.condition.num] ++
        (match u.place with
          | .pocket k => [1, byte (k.val + 1)]
          | .rack x => [2, byte x.val]
          | .spindle x => [3, byte x.val]
          | .gripper => [4, 0]
          | .unknown => [5, 0]) ++
        [byte (u.promised.elim 255 (·.val))] ++ be 3 u.r ++ be 2 u.rem ++ be 2 (s.partsLeft u) ++ be 3 u.nnom ++
        [if u.fullHistory then 1 else 0] ++ be 3 u.parts ++ be 3 u.dresses ++ be 3 (u.gauged.getD 16777215) ++
        [byte u.doubts, byte u.trips] ++ be 2 u.peakAE ++ be 2 u.peakPower ++ be 2 n) ∧
    (∀ x,
      let p := s.pos x
      let c := s.chan x
      let holding : Holding → List Byte := fun h =>
        match h with
        | .bare => [0, 0, 0]
        | .entry i => 1 :: be 2 i.val
        | .booked n => 2 :: be 2 n
        | .unknown => [3, 0, 0]
      let flag (v : Bool) : Byte := if v then 1 else 0
      s.positionRecord x =
        [byte x.val, byte p.service.num, byte (p.required.elim 0 (·.val + 1))] ++ holding p.mounted ++ holding p.rack ++
        [byte (dueNum p.dueCause), byte (holdNum p.holdCause), byte (resumeNum p.resume), byte p.need.num,
         byte (p.sister.elim 255 (·.val)), flag p.urgent, flag p.returnWaiting, byte p.failed, flag p.suspended,
         byte p.mode.num, byte p.retryTime, byte p.retryLimit, byte p.retryCount, flag p.window, byte c.state.num] ++
        be 2 c.blankCount ++ [byte c.aeCount, byte c.powerCount, flag (s.available x .ae), flag (s.available x .power)] ++
        be 2 (c.retryTimer.elim 0 fun d => (d - s.vol.ms).toNat) ++
        be 2 (match s.mountedTool x with
          | some (_, u) => s.partsLeft u
          | none => 0)) ∧
    (∀ o ∈ s.standing, (s.standing.map (·.number)).Nodup →
      ∃ k : Nat, (s.ret.queue[k]? = some o ∨ s.ret.backlog[k]? = some o) ∧
      s.orderRecord o =
        be 2 o.number ++ [byte o.kind.num, if o.urgent then 1 else 0, byte o.state.num, byte o.pos.val,
          byte (o.incoming.elim 255 (·.val)), byte (o.outgoing.elim 255 (·.val))] ++
        (match o.kind with
          | .stage => o.pocket.elim [0, 0] (fun k => [1, byte (k.val + 1)]) ++ [2, byte o.pos.val]
          | .direct => o.pocket.elim [0, 0] (fun k => [1, byte (k.val + 1)]) ++ [3, byte o.pos.val]
          | .exchange => [2, byte o.pos.val, 3, byte o.pos.val]
          | .remove | .return_ => [0, 0, 0, 0]) ++
        (match o.kind, o.outgoing with
          | _, none | .stage, _ => [0, 0, 0, 0]
          | .return_, _ => [2, byte o.pos.val] ++ o.pocket.elim [6, 0] fun k => [1, byte (k.val + 1)]
          | _, _ => [3, byte o.pos.val, 2, byte o.pos.val]) ++
        be 3 (if o.state = .taken ∨ o.state = .inDoubt then s.vol.swapDeadline.elim 0 fun d => (d - s.vol.ms).toNat else 0) ++
        [if o ∈ s.ret.queue then 1 else 2, byte (k + 1)]) ∧
    (∀ k, s.typ k = none → (s.typeResult k).take 38 = List.replicate 38 0) ∧
    (∀ k f, s.typ k = some f → (s.typeResult k).take 38 =
      [byte (k.val + 1), Config.definedStateByte, byte f.kind.num] ++ be 3 f.dnew ++ be 3 f.dscrap ++ be 3 f.lnew ++
      be 2 f.dd ++ [byte f.wp, byte f.ppd] ++ be 2 f.rchg ++ be 2 f.stage ++ be 2 f.pmin ++
      [byte f.policy.num, byte f.k] ++ be 2 f.z ++ be 2 f.g ++ be 2 f.aeLimit ++ be 2 f.powerLimit ++ be 2 f.blank ++
      [byte f.deglitch] ++ be 2 f.factor ++ [byte f.learnCount]) ∧
    (∀ k, ∃ (entries : List EntryIx) (positions : List PosIx),
      (s.typeResult k).drop 38 = byte entries.length :: entries.map (fun i => byte i.val) ++
        byte positions.length :: positions.map (fun x => byte x.val) ∧
      (∀ i, i ∈ entries ↔ ∃ u, s.tool i = some u ∧ u.type = k) ∧ entries.Pairwise (· < ·) ∧
      (∀ x, x ∈ positions ↔ (s.pos x).required = some k) ∧ positions.Pairwise (· < ·)) ∧
    s.waitingResult = byte s.ret.waiting.length :: s.ret.waiting.flatMap (fun x =>
      [byte x.val, byte ((s.pos x).required.elim 0 (·.val + 1)), if (s.pos x).urgent then 1 else 0]) ∧
    s.cellResult =
      be 2 7420 ++ [1, byte s.strap.count, if s.vol.lock = .locked then 1 else 0, byte s.vol.errors,
        if s.lastStart = .warm then 1 else 0, byte ((List.finRange 64).countP fun i => (s.tool i).isSome),
        byte s.ret.queue.length, byte s.ret.backlog.length, byte s.ret.waiting.length] ++ be 2 s.ret.timeout ++
      be 2 s.ret.counter ++ [byte s.ret.expired.length] ∧
    (∀ x, s.checkAnswer x = [byte (s.cycleCode x), byte (s.pos x).service.num, byte (s.pos x).need.num] ++
      be 2 (match s.mountedTool x with
        | some (_, u) => s.partsLeft u
        | none => 0)) ∧
    (∀ x i u o m, s.tool i = some u → s.lifeResult x i o m =
      byte i.val :: be 3 u.r ++ be 2 u.rem ++ be 2 (s.partsLeft u) ++
      [byte u.condition.num, byte (s.pos x).service.num, Config.outcomeByte o] ++ be 3 m ++ [byte u.doubts]) ∧
    ([ToolState.stored, .reserved, .staged, .mounted, .offloaded, .moving, .quarantined].map ToolState.num =
        [1, 2, 3, 4, 5, 6, 7] ∧
      [Condition.sound, .worn, .broken, .doubtful].map Condition.num = [1, 2, 3, 4] ∧
      [Service.uncertain, .vacant, .serving, .due, .held, .released, .exchanging].map Service.num =
        [1, 2, 3, 4, 5, 6, 7] ∧
      [none, some DueCause.worn, some .doubt, some .broken].map dueNum = [0, 1, 2, 3] ∧
      [none, some HoldCause.trip, some .retry].map holdNum = [0, 1, 2] ∧
      [none, some Resume.serving, some .due].map resumeNum = [0, 3, 4] ∧
      [Need.noNeed, .waiting, .reserved, .staging, .staged].map Need.num = [0, 1, 2, 3, 4] ∧
      [Mode.off, .report, .hold, .retry].map Mode.num = [0, 1, 2, 3] ∧
      [ChannelState.idle, .blanking, .watching, .spent].map ChannelState.num = [0, 1, 2, 3] ∧
      [OrderKind.stage, .exchange, .direct, .remove, .return_].map OrderKind.num = [1, 2, 3, 4, 5] ∧
      [OrderState.backlog, .ready, .taken, .inDoubt].map OrderState.num = [1, 2, 3, 4] ∧
      [ToolKind.wheel, .dresser].map ToolKind.num = [0, 1] ∧ [Policy.leastFirst, .mostFirst].map Policy.num = [0, 1])

/-- R174, R175: a REQUEST transaction whose byte count, length byte or CRC is wrong is refused FRAME with request code 0; of
the others, a code that Table 9-2 does not list is refused UNKNOWN and a length that does not fit the code FRAME, both with
the code received, the model's reading of the reply's code (log 29). R86: a VERDICT of another verdict than 0 and 1 is refused
ROLE outside the station ports and RANGE at them; a DECLARE of another target kind than pocket and position is refused ROLE and
RANGE likewise, the model's reading (log 30). No refusal changes anything but the mailbox, and every frame is answered at a port
that listens. -/
def Obligations.FrameChecks : Prop :=
  ∀ (p : Port) (bytes : List Byte) (s : State), s.listening p = true → (s.port p).reception = .idle →
    let request := exec (.undecodedRequest p ⟨1 :: bytes, true⟩) s
    (∃ (t : State) (r : Reply), request = .next (t.answer p r)) ∧
    (bytes.length < 2 ∨ (∃ l rest, bytes = l :: rest ∧ (l.toNat < 2 ∨ 30 < l.toNat ∨ rest.length ≠ l.toNat + 1)) ∨
        (∃ body c, bytes = body ++ [c] ∧ c ≠ crc8 body) →
      request = .next (s.answer p ⟨0, .frame, []⟩)) ∧
    ∀ (l code : Byte) (operands : List Byte),
      l.toNat = operands.length + 1 → 2 ≤ l.toNat → l.toNat ≤ 30 →
      bytes = (l :: code :: operands) ++ [crc8 (l :: code :: operands)] →
      (recordLength code.toNat = none → request = .next (s.answer p ⟨code.toNat, .unknown, []⟩)) ∧
      (∀ n, recordLength code.toNat = some n → n ≠ l.toNat → request = .next (s.answer p ⟨code.toNat, .frame, []⟩)) ∧
      (∀ slot verdict : Byte, code = 9 → operands = [slot, verdict] → 2 ≤ verdict.toNat →
        (p = .pc ∨ p = .ps → request = .next (s.answer p ⟨9, .role, []⟩)) ∧
        (∀ n, p = .station n → request = .next (s.answer p ⟨9, .range, []⟩))) ∧
      (∀ kind number : Byte, code = 37 → operands = [kind, number] → kind ≠ 1 → kind ≠ 2 →
        (p ≠ .ps → request = .next (s.answer p ⟨37, .role, []⟩)) ∧
        (p = .ps → request = .next (s.answer p ⟨37, .range, []⟩)))

/-- R173, R172, R188, R44: the kind byte decides a transaction: 1 collects the bytes of a REQUEST, which is taken at the
release of chip select; 2 and 3 are the fetches, taken at the kind byte, whose copy the part sends byte by byte and zeros
after it; any other, like a transaction without a byte, changes nothing and is ignored to its end. A transaction goes on
across the commands that bring its bytes. A port that takes no transactions ignores one to its end; that it does so even where
it begins to take them in between is the model's choice (log 36). A disabled port sends nothing, nor does one while the main
supply is off, the model's reading (log 12). How a command carries the bytes, only complete ones among them, and the field
`sent`, are the model's own (logs 17, 31 and 43). -/
def Obligations.TransactionsByKind : Prop :=
  ∀ (p : Port) (s : State),
    let v := s.port p
    let send (bytes : List Byte) (released : Bool) := exec (.undecodedRequest p ⟨bytes, released⟩)
    (∀ a b r, ∃ t, send a false s = .next t ∧ send (a ++ b) r s = send b r t) ∧
    (s.running = false ∨ s.enabled p = false → ∀ b bytes,
      send (b :: bytes) false s = .next (s.setPort p { v with reception := .discarded }) ∧
      send (b :: bytes) true s = .next (s.setPort p { v with reception := .idle })) ∧
    (s.running = true → s.enabled p = true →
      (v.reception = .idle →
        (∀ released, send [] released s = .next s) ∧
        (∀ (kind : Byte) (bytes : List Byte), kind ≠ 1 → kind ≠ 2 → kind ≠ 3 →
          send (kind :: bytes) false s = .next (s.setPort p { v with reception := .discarded }) ∧
          send (kind :: bytes) true s = .next s) ∧
        (∀ bytes, send (1 :: bytes) false s = .next (s.setPort p { v with reception := .receiving bytes })) ∧
        ∀ (kind : Byte) (copy : List Byte) (u : PortState),
          (kind = 2 ∧ copy = withCrc v.mailbox.bytes ∧ u = { v with mailbox := v.mailbox.fetch } ∨
            kind = 3 ∧ copy = withCrc (noticeBytes v.notices) ∧ u = { v with notices := 0 }) →
          ∀ bytes : List Byte,
            let n := bytes.length
            send (kind :: bytes) false s = .next
              (s.setPort p { u with sent := copy.take n, reception := .sending (copy.drop n) }).drive ∧
            send (kind :: bytes) true s = .next
              (s.setPort p { u with sent := copy.take n, reception := .idle }).drive ∧
            (copy.length ≤ n → send (kind :: bytes) true s =
              if kind = 2 then exec (.fetchReply p) s else exec (.fetchNotices p) s)) ∧
      (v.reception = .discarded → ∀ bytes,
        send bytes false s = .next s ∧ send bytes true s = .next (s.setPort p { v with reception := .idle }))) ∧
    s.nextByte p =
      if s.supplyOn = true ∧ s.enabled p = true then
        match v.reception with
        | .sending (b :: _) => some b
        | _ => some 0
      else none

/-- R176, R179, R180: FETCH REPLY sends the mailbox with its state and a CRC and makes a new reply fetched before; FETCH
NOTICES sends the two notice bytes with a CRC and empties the set; ATTN then stands exactly while the mailbox holds a new
reply or the set a flag. Nothing else changes, but that the fetch ends a transaction that was ignored; this and the field
`sent` are the model's own (log 17). -/
def Obligations.FetchesSend : Prop :=
  ∀ (p : Port) (s : State), s.running = true → s.enabled p = true →
    let v := s.port p
    let body : List Byte := match v.mailbox with
      | .empty => [0, 0, 0, 0]
      | .fresh r => [1, byte r.code, byte r.status.num, byte r.result.length] ++ r.result
      | .fetched r => [2, byte r.code, byte r.status.num, byte r.result.length] ++ r.result
    let mailbox : Mailbox := match v.mailbox with
      | .empty => .empty
      | .fresh r | .fetched r => .fetched r
    let flags : List Byte := [v.notices.extractLsb' 8 8, v.notices.extractLsb' 0 8]
    exec (.fetchReply p) s = .next (s.setPort p { v with
      mailbox := mailbox, sent := body ++ [crc8 body], reception := .idle }).drive ∧
    exec (.fetchNotices p) s = .next (s.setPort p { v with
      notices := 0, sent := flags ++ [crc8 flags], reception := .idle }).drive ∧
    (∀ m : Mailbox, ∀ w : BitVec 16, ∀ sent : List Byte,
      let t := (s.setPort p { v with mailbox := m, notices := w, sent := sent, reception := .idle }).drive
      (t.port p).mailbox = m ∧ (t.port p).notices = w ∧ (t.port p).sent = sent ∧ t.ret = s.ret ∧
      ((t.port p).attn = true ↔ (∃ r, m = .fresh r) ∨ w ≠ 0))

/-! ## Refusals -/

/-- R175, R176: every request at a port that listens, as a decoded request or as the bytes of a whole REQUEST transaction, is
answered, and one that is not ACCEPTED carries no result and changes nothing but what its reply does: the mailbox holds it as
new, and ATTN follows. -/
def Obligations.RefusalsChangeNothing : Prop :=
  ∀ (c : Instr) (p : Port) (s : State), c.port = some p → c ≠ .fetchReply p → c ≠ .fetchNotices p →
    (∀ sent, c = .undecodedRequest p sent →
      (s.port p).reception = .idle ∧ sent.released = true ∧ ∃ bytes, sent.bytes = 1 :: bytes) →
    s.listening p = true →
    ∃ (t : State) (r : Reply), exec c s = .next (t.answer p r) ∧ (r.status ≠ .accepted → t = s ∧ r.result = []) ∧
      ((t.answer p r).port p).mailbox = .fresh r ∧ ((t.answer p r).port p).attn = true ∧
      ((t.answer p r).port p).notices = (t.port p).notices ∧ (t.answer p r).ret = t.ret

/-- R49, R51, R60, R84 to R87, R151: the checks of the station requests in their order. From PC or PS they are refused
ROLE; a slot they do not take, a count outside 1 to 15, a diameter above 1,048,575 RANGE; a service state or a window
that bars them STATE. -/
def Obligations.StationChecks : Prop :=
  ∀ s : State,
    (∀ p slot n, p = .pc ∨ p = .ps → s.listening p = true →
      exec (.check p) s = .next (s.answer p ⟨1, .role, []⟩) ∧
      exec (.openWindow p slot) s = .next (s.answer p ⟨2, .role, []⟩) ∧
      exec (.parts p slot n) s = .next (s.answer p ⟨4, .role, []⟩) ∧
      exec (.dress p slot n) s = .next (s.answer p ⟨5, .role, []⟩) ∧
      exec (.gauge p slot n) s = .next (s.answer p ⟨6, .role, []⟩) ∧
      exec (.release p slot) s = .next (s.answer p ⟨7, .role, []⟩) ∧
      exec (.reclaim p slot) s = .next (s.answer p ⟨8, .role, []⟩) ∧
      exec (.verdictOk p slot) s = .next (s.answer p ⟨9, .role, []⟩) ∧
      exec (.verdictBroken p slot) s = .next (s.answer p ⟨9, .role, []⟩)) ∧
    ∀ n, s.listening (.station n) = true →
      let reply (code : Nat) (st : Status) := s.answer (.station n) ⟨code, st, []⟩
      (∀ slot k, 2 ≤ slot ∨ k = 0 ∨ 15 < k →
        exec (.parts (.station n) slot k) s = .next (reply 4 .range) ∧
        exec (.dress (.station n) slot k) s = .next (reply 5 .range)) ∧
      (∀ slot d, 3 ≤ slot ∨ 1048575 < d → exec (.gauge (.station n) slot d) s = .next (reply 6 .range)) ∧
      (∀ slot, 3 ≤ slot →
        exec (.openWindow (.station n) slot) s = .next (reply 2 .range) ∧
        exec (.release (.station n) slot) s = .next (reply 7 .range) ∧
        exec (.reclaim (.station n) slot) s = .next (reply 8 .range) ∧
        exec (.verdictOk (.station n) slot) s = .next (reply 9 .range) ∧
        exec (.verdictBroken (.station n) slot) s = .next (reply 9 .range)) ∧
      ∀ sl : Slot,
        let p := s.pos (posAt n sl)
        let d := s.pos (posAt n .d)
        let consuming (q : Position) : Prop := q.service = .serving ∨ q.service = .due ∨ q.service = .held
        (∀ k, sl ≠ .d → 1 ≤ k → k ≤ 15 →
          (¬consuming p → exec (.parts (.station n) sl.num k) s = .next (reply 4 .state)) ∧
          (¬consuming p ∨ ¬consuming d → exec (.dress (.station n) sl.num k) s = .next (reply 5 .state))) ∧
        (∀ g, g ≤ 1048575 → ¬consuming p → exec (.gauge (.station n) sl.num g) s = .next (reply 6 .state)) ∧
        (p.window = true ∨ p.service ≠ .serving ∧ p.service ≠ .due →
          exec (.openWindow (.station n) sl.num) s = .next (reply 2 .state) ∧
          exec (.release (.station n) sl.num) s = .next (reply 7 .state)) ∧
        (p.service ≠ .released → exec (.reclaim (.station n) sl.num) s = .next (reply 8 .state)) ∧
        (p.service ≠ .held → exec (.verdictOk (.station n) sl.num) s = .next (reply 9 .state)) ∧
        (¬consuming p → exec (.verdictBroken (.station n) sl.num) s = .next (reply 9 .state))

/-- R124, R125: TAKE is refused ROLE at the other ports, BUSY while an order is TAKEN or IN_DOUBT, and NONE without a READY
order of a present position; DONE and FAIL are refused ROLE at the other ports, RANGE for number 0 and an unknown reason,
LATE for a number in the expired-number memory and STATE for any other that is not the taken order's of a present
position; a FAIL with EMPTY that names no tool of the order is refused RANGE. -/
def Obligations.ChangerChecks : Prop :=
  ∀ s : State,
    (∀ p n r e, p ≠ .pc → s.listening p = true →
      exec (.takeOrder p) s = .next (s.answer p ⟨16, .role, []⟩) ∧
      exec (.doneOrder p n) s = .next (s.answer p ⟨17, .role, []⟩) ∧
      exec (.failOrder p n r e) s = .next (s.answer p ⟨18, .role, []⟩)) ∧
    (s.listening .pc = true →
      let reply (code : Nat) (st : Status) := s.answer .pc ⟨code, st, []⟩
      ((∃ o ∈ s.ret.queue, o.busy = true) → exec (.takeOrder .pc) s = .next (reply 16 .busy)) ∧
      ((∀ o ∈ s.ret.queue, o.busy = false) → (∀ o ∈ s.ret.queue, o.state = .ready → s.present o.pos = false) →
        exec (.takeOrder .pc) s = .next (reply 16 .noOrder)) ∧
      exec (.doneOrder .pc 0) s = .next (reply 17 .range) ∧
      (∀ n r e, n = 0 ∨ 2 < r → exec (.failOrder .pc n r e) s = .next (reply 18 .range)) ∧
      (∀ n r e, n ≠ 0 → r ≤ 2 →
        (∀ o ∈ s.ret.queue, o.busy = true → o.number ≠ n ∨ s.present o.pos = false) →
        let st : Status := if n ∈ s.ret.expired then .late else .state
        exec (.doneOrder .pc n) s = .next (reply 17 st) ∧ exec (.failOrder .pc n r e) s = .next (reply 18 st)) ∧
      (∀ o e, s.busyOrder = some o → o.number ≠ 0 → s.present o.pos = true →
        (∀ i : EntryIx, i.val = e → o.incoming ≠ some i ∧ o.outgoing ≠ some i) →
        exec (.failOrder .pc o.number 2 e) s = .next (reply 18 .range)))

/-- R8, R30, R33, R36: the checks of TYPE SET, ENROL, WITHDRAW and REINSTATE in their order, first failing check first, with
the ranges of Table 1-1 and the cross-checks of R2 and R3. That a life mode above 1 is refused RANGE at check 1 is the
model's choice (log 28). -/
def Obligations.CatalogueAndToolChecks : Prop :=
  ∀ s : State, s.listening .ps = true →
    let reply (code : Nat) (st : Status) := s.answer .ps ⟨code, st, []⟩
    (∀ f : TypeSetOperands, typeSetInRange f = true ↔
      (20000 ≤ f.dnew ∧ f.dnew ≤ 1000000) ∧ (1 ≤ f.ddiff ∧ f.ddiff ≤ 40000 ∧ f.ddiff + 10000 ≤ f.dnew) ∧ f.dd ≤ 500 ∧
      f.wp ≤ 100 ∧ (f.flags.testBit 0 = true → f.wp = 0) ∧ (1 ≤ f.ppd ∧ f.ppd ≤ 255) ∧
      (f.rchg ≤ 50000 ∧ f.rchg < 5 * f.ddiff) ∧ f.stage ≤ 65535 ∧ f.pmin ≤ 65535 ∧ f.k ≤ 255 ∧ f.z ≤ 50000 ∧
      f.g ≤ 5000 ∧ f.aeLimit ≤ 32767 ∧ f.powerLimit ≤ 32767 ∧ f.blank ≤ 4095 ∧ f.deglitch ≤ 255 ∧
      (f.flags.testBit 2 = true → 500 ≤ f.factor ∧ f.factor ≤ 1500)) ∧
    (∀ code f, code = 0 ∨ 16 < code ∨ typeSetInRange f = false →
      exec (.typeSet .ps code f) s = .next (reply 32 .range)) ∧
    (∀ (k : TypeIx) f, typeSetInRange f = true →
      ((∃ i u, s.tool i = some u ∧ u.type = k) ∨ ∃ x, (s.pos x).required = some k) →
      (∀ old, s.typ k = some old → ¬(old.kind = kindOf f ∧ old.dnew = f.dnew ∧ old.dscrap = f.dnew - f.ddiff)) →
      exec (.typeSet .ps (k.val + 1) f) s = .next (reply 32 .inUse)) ∧
    (∀ serial code kind number mode r, serial = 0 ∨ code = 0 ∨ 16 < code ∨ 1 < mode ∨
        (∀ pl, placeOperand kind number = some pl → s.reachable pl = false) →
      exec (.enrol .ps serial code kind number mode r) s = .next (reply 34 .range)) ∧
    (∀ serial (k : TypeIx) kind number pl mode r, 1 ≤ serial → serial ≤ 4294967295 → mode ≤ 1 →
      placeOperand kind number = some pl → s.reachable pl = true →
      let answer := exec (.enrol .ps serial (k.val + 1) kind number mode r) s
      (s.typ k = none → answer = .next (reply 34 .state)) ∧
      ∀ f, s.typ k = some f →
        (mode = 1 ∧ f.lnew < r ∨ pl.takes f.kind = false → answer = .next (reply 34 .range)) ∧
        (¬(mode = 1 ∧ f.lnew < r) → pl.takes f.kind = true →
          ((∃ i u, s.tool i = some u ∧ u.serial = serial) → answer = .next (reply 34 .duplicate)) ∧
          ((∀ i u, s.tool i = some u → u.serial ≠ serial) →
            ((∀ i, s.tool i ≠ none) → answer = .next (reply 34 .full)) ∧
            ((∃ i, s.tool i = none) →
              (match pl with
                | .pocket k => s.pocket k ≠ .free
                | .rack x => (s.pos x).rack ≠ .bare
                | .spindle x => (s.pos x).service ≠ .uncertain ∨ ∃ i, (s.pos x).mounted = .entry i) →
              answer = .next (reply 34 .state))))) ∧
    (∀ entry code kind number mode r, 64 ≤ entry ∨ 16 < code ∨ 1 < mode ∨
        (∀ pl, placeOperand kind number = some pl → s.reachable pl = false) →
      exec (.reinstate .ps entry code kind number mode r) s = .next (reply 36 .range)) ∧
    (∀ (i : EntryIx) code kind number pl mode r, code ≤ 16 → mode ≤ 1 →
      placeOperand kind number = some pl → s.reachable pl = true →
      let answer := exec (.reinstate .ps i.val code kind number mode r) s
      (s.tool i = none → answer = .next (reply 36 .state)) ∧
      ∀ u, s.tool i = some u →
        (∀ k : TypeIx, code = k.val + 1 → s.typ k = none → answer = .next (reply 36 .state)) ∧
        (u.state ≠ .quarantined → answer = .next (reply 36 .state)) ∧
        ∀ (ty : TypeIx) (f : TypeRec), code = 0 ∧ ty = u.type ∨ code = ty.val + 1 → s.typ ty = some f →
          u.state = .quarantined →
          (mode = 0 ∧ ty ≠ u.type ∨ mode = 1 ∧ f.lnew < r ∨ pl.takes f.kind = false →
            answer = .next (reply 36 .range)) ∧
          (¬(mode = 0 ∧ ty ≠ u.type ∨ mode = 1 ∧ f.lnew < r ∨ pl.takes f.kind = false) →
            (match pl with
              | .pocket k => s.pocket k ≠ .free ∧ s.pocket k ≠ .unknown ∧ s.pocket k ≠ .holds i
              | .rack x => (s.pos x).rack ≠ .bare ∧ (s.pos x).rack ≠ .unknown
              | .spindle x => (s.pos x).service ≠ .uncertain ∨ ∃ j, (s.pos x).mounted = .entry j) →
            answer = .next (reply 36 .state))) ∧
    (∀ entry, 64 ≤ entry → exec (.withdraw .ps entry) s = .next (reply 35 .range)) ∧
    (∀ i : EntryIx, (∀ u, s.tool i = some u → u.state ≠ .stored ∧ u.state ≠ .quarantined ∧ u.state ≠ .offloaded) →
      exec (.withdraw .ps i.val) s = .next (reply 35 .state)) ∧
    ∀ (i : EntryIx) u, s.tool i = some u → u.state = .offloaded →
      (∃ o ∈ s.standing, o.incoming = some i ∨ o.outgoing = some i) →
      exec (.withdraw .ps i.val) s = .next (reply 35 .state)

/-- R39, R71, R89, R91, R135, R136, R146, R167, R169, R182 to R185: the checks of the other supervisor requests in their
order: an operand out of range or an absent position RANGE, an UNDEFINED type and a state that bars the request STATE, a type
of the other kind RANGE, a route that another slot has DUPLICATE; every supervisor request from another port is refused ROLE;
and the checks of the queries that other ports may send. That a signal above 1 is refused RANGE with position 255 too is the
model's choice (log 7). -/
def Obligations.SupervisorChecks : Prop :=
  ∀ s : State,
    (∀ (p : Port) (a b c d e r : Nat) (f : TypeSetOperands), p ≠ .ps → s.listening p = true →
      let role (c : Instr) (code : Nat) : Prop := exec c s = .next (s.answer p ⟨code, .role, []⟩)
      role (.typeSet p a f) 32 ∧ role (.typeErase p a) 33 ∧ role (.enrol p a b c d e r) 34 ∧ role (.withdraw p a) 35 ∧
      role (.reinstate p a b c d e r) 36 ∧ role (.declarePocket p a) 37 ∧ role (.declarePosition p a) 37 ∧
      role (.assign p a b) 38 ∧ role (.monitorSet p a b c d) 39 ∧ role (.clearRetries p a) 40 ∧
      role (.routeSet p a b c) 41 ∧ role (.timeoutSet p a) 42 ∧ role (.resume p a) 43 ∧ role (.restart p) 44 ∧
      role (.queryType p a) 48 ∧ role (.queryWaiting p) 52 ∧ role (.queryCell p) 53) ∧
    (∀ p entry, s.listening p = true → 64 ≤ entry → exec (.queryTool p entry) s = .next (s.answer p ⟨49, .range, []⟩)) ∧
    (∀ n, s.listening (.station n) = true →
      (∀ i : EntryIx, (∀ u sl, s.tool i = some u →
          ¬(u.state = .mounted ∧ u.place = .spindle (posAt n sl)) ∧ ¬(u.state = .staged ∧ u.place = .rack (posAt n sl))) →
        exec (.queryTool (.station n) i.val) s = .next (s.answer (.station n) ⟨49, .role, []⟩)) ∧
      (∀ slot, 3 ≤ slot → exec (.queryPosition (.station n) slot) s = .next (s.answer (.station n) ⟨50, .range, []⟩)) ∧
      ∀ k, exec (.queryOrder (.station n) k) s = .next (s.answer (.station n) ⟨51, .role, []⟩)) ∧
    (s.listening .pc = true → ∀ v, exec (.queryPosition .pc v) s = .next (s.answer .pc ⟨50, .role, []⟩)) ∧
    (s.listening .ps = true →
      let reply (code : Nat) (st : Status) := s.answer .ps ⟨code, st, []⟩
      (∀ v a b c, (∀ x : PosIx, x.val = v → s.present x = false) →
        exec (.declarePosition .ps v) s = .next (reply 37 .range) ∧
        exec (.assign .ps v a) s = .next (reply 38 .range) ∧
        exec (.monitorSet .ps v a b c) s = .next (reply 39 .range) ∧
        exec (.clearRetries .ps v) s = .next (reply 40 .range) ∧
        exec (.resume .ps v) s = .next (reply 43 .range) ∧
        exec (.queryPosition .ps v) s = .next (reply 50 .range) ∧
        (v ≠ 255 → exec (.routeSet .ps a v b) s = .next (reply 41 .range))) ∧
      (∀ v, v = 0 ∨ 16 < v → exec (.queryType .ps v) s = .next (reply 48 .range)) ∧
      (∀ v, v = 0 ∨ 48 < v → exec (.declarePocket .ps v) s = .next (reply 37 .range)) ∧
      (∀ k : PocketIx, s.pocket k ≠ .unknown → exec (.declarePocket .ps (k.val + 1)) s = .next (reply 37 .state)) ∧
      (∀ slot v g, 15 < slot ∨ 1 < g → exec (.routeSet .ps slot v g) s = .next (reply 41 .range)) ∧
      (∀ n, n < 30 ∨ 1800 < n → exec (.timeoutSet .ps n) s = .next (reply 42 .range)) ∧
      ∀ x : PosIx, s.present x = true →
        ((s.pos x).service ≠ .uncertain → (s.pos x).rack ≠ .unknown →
          exec (.declarePosition .ps x.val) s = .next (reply 37 .state)) ∧
        (∀ code, 16 < code → exec (.assign .ps x.val code) s = .next (reply 38 .range)) ∧
        (∀ k : TypeIx, s.typ k = none → exec (.assign .ps x.val (k.val + 1)) s = .next (reply 38 .state)) ∧
        (∀ k f, s.typ k = some f → f.kind ≠ (slotOf x).kind →
          exec (.assign .ps x.val (k.val + 1)) s = .next (reply 38 .range)) ∧
        (∀ m r l, 3 < m ∨ r ≠ 1 ∧ r ≠ 2 ∧ r ≠ 4 ∧ r ≠ 8 ∨ l = 0 ∨ 7 < l →
          exec (.monitorSet .ps x.val m r l) s = .next (reply 39 .range)) ∧
        ((s.pos x).suspended = false → exec (.resume .ps x.val) s = .next (reply 43 .state)) ∧
        (∀ (h k : HwSlot) (g : Signal), k ≠ h → s.route k = some ⟨x, g⟩ →
          exec (.routeSet .ps h.val x.val g.num) s = .next (reply 41 .duplicate)))

/-! ## Judgements and shared work -/

/-- R53, R54: the per-part consumption is the ceiling of (Wp × ppd + Dd) × F / ppd, 0 only where Wp and Dd are; parts-left
is 0 at or below Rchg, 65,535 where nothing is consumed, else the floor of (R − Rchg) × 1,000 / c, clamped to 65,535; it
depends on R and the figures alone, and QUERY TOOL returns it. -/
def Obligations.PartsLeftIsComputed : Prop :=
  (∀ f : TypeRec, 1 ≤ f.ppd →
    (f.wp * f.ppd + f.dd) * f.factor ≤ f.perPart * f.ppd ∧
    (∀ c, (f.wp * f.ppd + f.dd) * f.factor ≤ c * f.ppd → f.perPart ≤ c) ∧
    (f.InRange → (f.perPart = 0 ↔ f.wp = 0 ∧ f.dd = 0)) ∧
    (f.InRange → f.kind = .dresser → ∀ c, f.dd * f.factor ≤ c * f.ppd → f.perPart ≤ c)) ∧
  (∀ (f : TypeRec) (r : Nat),
    (r ≤ f.rchg → f.partsLeft r = 0) ∧
    (f.rchg < r → f.perPart = 0 → f.partsLeft r = 65535) ∧
    (f.rchg < r → f.perPart ≠ 0 → f.partsLeft r = min 65535 ((r - f.rchg) * 1000 / f.perPart)) ∧
    f.partsLeft r ≤ 65535) ∧
  (∀ (s : State) (u v : Tool), u.type = v.type → u.r = v.r → s.partsLeft u = s.partsLeft v) ∧
  ∀ (s : State) (i : EntryIx) (u : Tool) (f : TypeRec), s.tool i = some u → s.typ u.type = some f →
    s.partsLeft u = f.partsLeft u.r ∧ ((s.toolRecord i).drop 17).take 2 = be 2 (f.partsLeft u.r)

/-- R83: the cycle code is the number of the first condition of Table 4-5 that holds, 8 where none does; GO and LAST are
given in SERVING alone, and a position in mode OFF or REPORT is not tested for blindness. R147: a signal of a present
position is available exactly when a slot is routed to it, the receiver is LOCKED and the slot's last sample is valid; a
position is watched when one of its signals is available. -/
def Obligations.CycleCodeIsFirst : Prop :=
  ∀ (s : State) (x : PosIx),
    let available (g : Signal) : Prop :=
      s.vol.lock = .locked ∧ ∃ h : HwSlot, s.route h = some ⟨x, g⟩ ∧ s.vol.lastSamples[h] = some true
    (RouteLaw s → s.present x = true →
      (∀ g, s.available x g = true ↔ available g) ∧
      (s.watched x = true ↔ available .ae ∨ available .power)) ∧
    let p := s.pos x
    let holds : List Prop := [
      p.service = .uncertain,
      p.service = .vacant,
      p.service = .held,
      (p.mode = .hold ∨ p.mode = .retry) ∧ s.watched x = false,
      ∃ i u, s.mountedTool x = some (i, u) ∧ p.required ≠ some u.type,
      p.service = .due ∨ p.service = .released ∨ p.service = .exchanging,
      s.mountedPartsLeft x = 1]
    1 ≤ s.cycleCode x ∧ s.cycleCode x ≤ 8 ∧
    (∀ k, k + 1 < s.cycleCode x → ∀ c, holds[k]? = some c → ¬c) ∧
    (∀ c, holds[s.cycleCode x - 1]? = some c → c) ∧
    (7 ≤ s.cycleCode x → p.service = .serving) ∧
    (p.mode = .off ∨ p.mode = .report → s.cycleCode x ≠ 4)

/-- R99, R100: a tool is eligible for a type exactly when it is of the type, STORED, SOUND, and its parts-left is at or above
Pmin; the choice names an eligible tool that no eligible tool precedes under the type's policy, the lowest pocket among
equals, and names one whenever one is eligible. R105, R102: each pass of arbitration for a type reserves the chosen tool for the
first candidate of the waiting list, which leaves the list; it ends with no candidate or no eligible tool, and without either
it changes nothing. -/
def Obligations.ChoiceAndArbitration : Prop :=
  (∀ (s : State) (k : TypeIx),
    (∀ i, s.eligible k i = true ↔ ∃ u, s.tool i = some u ∧ u.type = k ∧ u.state = .stored ∧ u.condition = .sound ∧
      (s.figures k).pmin ≤ s.partsLeft u) ∧
    (s.choose k = none → ∀ i, s.eligible k i = false) ∧
    ∀ i, s.choose k = some i →
      s.eligible k i = true ∧
      ∀ j, s.eligible k j = true →
        ((s.figures k).policy = .leastFirst → s.entryPartsLeft i < s.entryPartsLeft j ∨
          s.entryPartsLeft i = s.entryPartsLeft j ∧ s.entryPocket i ≤ s.entryPocket j) ∧
        ((s.figures k).policy = .mostFirst → s.entryPartsLeft j < s.entryPartsLeft i ∨
          s.entryPartsLeft i = s.entryPartsLeft j ∧ s.entryPocket i ≤ s.entryPocket j)) ∧
  ∀ (e : Ev) (k : TypeIx),
    let s := e.st
    let t := (e.arbitrate k).st
    ((∀ x ∈ t.ret.waiting, ¬Candidate t k x) ∨ t.choose k = none) ∧
    ((∀ x ∈ s.ret.waiting, ¬Candidate s k x) ∨ s.choose k = none → t = s) ∧
    ∀ x i, FirstCandidate s k x → s.choose k = some i →
      let u := (s.setTool i ((s.tool i).map fun w => { w with state := .reserved, promised := some x })).setPos x
        { s.pos x with need := .reserved, sister := some i }
      let u : State := { u with ret.waiting := s.ret.waiting.filter fun y => decide (y ≠ x) }
      t = ((Ev.start u).arbitrate k).st

/-- R93, R101 to R103: the need test raises a need exactly where the position is present and unsuspended, requires a type,
has no need, and is VACANT, or has in SERVING, DUE, HELD or RELEASED a mounted tool of another type, not SOUND, or with
parts-left at or below the stage threshold of the required type. The need is urgent where the mounted tool is BROKEN. It is
RESERVED with the chosen sister, or WAITING at the tail of its class with the notice WAITING. R56 to R58: the triggers of a
mounted tool are the wear trigger and then the need test where parts-left is at or below its type's stage threshold. R89: an
ASSIGN of a type to a VACANT, unsuspended position raises a need. -/
def Obligations.NeedTestRaises : Prop :=
  (∀ (e : Ev) (x : PosIx),
    let s := e.st
    let p := s.pos x
    let t := (e.needTest x).st
    let urgent : Bool := (s.mountedTool x).any fun m => decide (m.2.condition = .broken)
    (p.required = none → t = s) ∧
    ∀ k : TypeIx, p.required = some k →
      let raises : Prop := s.present x = true ∧ p.need = .noNeed ∧ p.suspended = false ∧
        (p.service = .vacant ∨
          (p.service = .serving ∨ p.service = .due ∨ p.service = .held ∨ p.service = .released) ∧
            ∃ i u, s.mountedTool x = some (i, u) ∧
              (u.type ≠ k ∨ u.condition ≠ .sound ∨ s.partsLeft u ≤ (s.figures k).stage))
      (¬raises → t = s) ∧
      (raises → ∀ i, s.choose k = some i →
        let u := (s.setTool i ((s.tool i).map fun w => { w with state := .reserved, promised := some x })).setPos x
          { p with need := .reserved, sister := some i, urgent := urgent }
        t = { u with ret.waiting := s.ret.waiting.filter fun y => decide (y ≠ x) }) ∧
      (raises → s.choose k = none →
        let others := s.ret.waiting.filter fun y => decide (y ≠ x)
        let u := s.setPos x { p with need := .waiting, sister := none, urgent := urgent }
        t = State.notify { u with ret.waiting :=
          if urgent then others.takeWhile (fun y => (s.pos y).urgent) ++ x :: others.dropWhile fun y => (s.pos y).urgent
          else others ++ [x] } .ps .waiting)) ∧
  (∀ (e : Ev) (x : PosIx),
    (e.st.mountedTool x = none → (e.evalTriggers x).st = e.st) ∧
    ∀ i u, e.st.mountedTool x = some (i, u) →
      let w := wearAt x e.st
      (e.evalTriggers x).st =
        if e.st.partsLeft u ≤ (e.st.figures u.type).stage then ((Ev.start w).needTest x).st else w) ∧
  ∀ (x : PosIx) (k : TypeIx) (f : TypeRec) (s : State), s.listening .ps = true → s.present x = true →
    s.typ k = some f → f.kind = (slotOf x).kind → (s.pos x).required ≠ some k → (s.pos x).suspended = false →
    (s.pos x).service = .vacant →
    ∃ t : State, exec (.assign .ps x.val (k.val + 1)) s = .next (t.answer .ps ⟨38, .accepted, t.positionRecord x⟩) ∧
      (t.pos x).need ≠ .noNeed

/-- R116, R117, R119, R114, R120, R121: the posting hand-off of a present, unsuspended position posts the first order that its
record calls for, with the next free number: a RETURN of an unnamed OFFLOADED tool to the chute or to the lowest FREE pocket,
which is booked, or the return-waiting flag with STORE_FULL where none is FREE; a DIRECT for an urgent need in RELEASED, in
place of a waiting STAGE too; a STAGE; an EXCHANGE; a REMOVE. The order stands at the tail of its class of the queue, or of
the backlog when the queue is full, and is not created when both are. An absent or a suspended position has nothing posted,
nor one that calls for nothing. The model's readings: without a FREE pocket the flag and STORE_FULL are set even when queue and
backlog are full (log 19); a DIRECT takes its number while that of the STAGE it replaces is in use (log 32). -/
def Obligations.HandOffPostsOrders : Prop :=
  ∀ (e : Ev) (x : PosIx),
    let s := e.st
    let p := s.pos x
    let t := (e.handOff x).st
    let n := s.nextNumber
    let next := if n < 65535 then n + 1 else 1
    let room : Prop := s.ret.queue.length < 16 ∨ s.ret.backlog.length < 24
    let tail (o : Order) (q : List Order) : List Order :=
      if o.urgent then
        q.takeWhile (fun q => q.busy || q.urgent) ++ o :: q.dropWhile (fun q => q.busy || q.urgent)
      else q ++ [o]
    let enters (o : Order) : State :=
      if s.ret.queue.length < 16 then
        { s with ret.queue := tail { o with state := .ready } s.ret.queue, ret.counter := next }
      else { s with ret.backlog := tail { o with state := .backlog } s.ret.backlog, ret.counter := next }
    let order (kind : OrderKind) (urgent : Bool) (incoming outgoing : Option EntryIx) (k : Option PocketIx) : Order :=
      { number := n, kind := kind, urgent := urgent, pos := x, incoming := incoming, outgoing := outgoing, pocket := k,
        state := .ready }
    let mounted := (s.mountedTool x).map (·.1)
    let named (i : EntryIx) : Prop := ∃ o ∈ s.standing, o.incoming = some i ∨ o.outgoing = some i
    (s.present x = false ∨ p.suspended = true → t = s) ∧
    (s.present x = true → p.suspended = false →
      -- RETURN
      (∀ i u, p.rack = .entry i → s.tool i = some u → u.state = .offloaded → ¬named i →
        let posted (k : Option PocketIx) : State :=
          (enters (order .return_ false none (some i) k)).setPos x { p with returnWaiting := false }
        (u.condition = .worn ∨ u.condition = .broken → (room → t = posted none) ∧ (¬room → t = s)) ∧
        (u.condition = .sound ∨ u.condition = .doubtful →
          (∀ k, s.pocket k = .free → (∀ j, j < k → s.pocket j ≠ .free) →
            (room → t = (posted (some k)).setPocket k (.booked n)) ∧ (¬room → t = s)) ∧
          ((∀ k, s.pocket k ≠ .free) →
            t = if p.returnWaiting then s
              else (s.setPos x { p with returnWaiting := true }).notify .ps .storeFull))) ∧
      ((∀ i u, p.rack = .entry i → s.tool i = some u → u.state = .offloaded → named i) →
        (∀ i u k, p.sister = some i → s.tool i = some u → u.place = .pocket k →
          let hastens : Prop := p.urgent = true ∧ p.service = .released ∧ u.state = .reserved
          let booked (o : Order) : State :=
            let m := (enters o).setPos x { p with rack := .booked n, need := .staging }
            { m with ret.waiting := s.ret.waiting.filter fun y => decide (y ≠ x) }
          -- DIRECT, STAGE
          (p.need = .reserved → p.rack = .bare →
            (¬room → t = s) ∧
            (room → hastens → t = booked (order .direct true (some i) mounted (some k))) ∧
            (room → ¬hastens → t = booked (order .stage p.urgent (some i) none (some k)))) ∧
          -- DIRECT in place of a STAGE
          (∀ o ∈ s.standing, p.need = .staging → hastens → p.rack = .booked o.number → o.kind = .stage →
            o.incoming = some i → o.busy = false → (∀ q ∈ s.standing, q.number = o.number → q = o) →
            let d := order .direct true (some i) mounted (some k)
            let m : State :=
              if o ∈ s.ret.queue then
                { s with
                  ret.queue := tail d (s.ret.queue.filter fun q => decide (q.number ≠ o.number))
                  ret.counter := next }
              else
                { s with
                  ret.backlog := tail { d with state := .backlog }
                    (s.ret.backlog.filter fun q => decide (q.number ≠ o.number))
                  ret.counter := next }
            t = m.setPos x { p with rack := .booked n })) ∧
        -- EXCHANGE
        (∀ i, p.need = .staged → p.sister = some i → (∀ o ∈ s.standing, ¬(o.kind = .exchange ∧ o.pos = x)) →
          p.service = .released ∨ p.service = .vacant →
          (room → t = enters (order .exchange p.urgent (some i) mounted none)) ∧ (¬room → t = s)) ∧
        -- REMOVE
        (∀ j v, p.need = .noNeed → p.required = none → p.service = .released → p.rack = .bare →
          s.mountedTool x = some (j, v) →
          (room → t = (enters (order .remove (decide (v.condition = .broken)) none (some j) none)).setPos x
            { p with rack := .booked n }) ∧
          (¬room → t = s)) ∧
        (p.need = .noNeed ∨ p.need = .waiting →
          ¬(p.required = none ∧ p.service = .released ∧ p.rack = .bare ∧ mounted.isSome = true) → t = s)))

/-- R118, R28: a FREE pocket offered to the arbiter is given to the lowest-numbered present, unsuspended position with the
return-waiting flag, whose RETURN is posted and books it; a pocket that a DECLARE frees is so given in its event. R123: an
event that changes the queue and leaves no order TAKEN or IN_DOUBT and a READY order of a present position has set
ORDER_READY at PC, and that flag is newly set only where this test holds. -/
def Obligations.EventsEnd : Prop :=
  (∀ (e : Ev) (k : PocketIx),
    let s := e.st
    let t := (e.offerPocket k).st
    let waits (x : PosIx) : Prop := s.present x = true ∧ (s.pos x).suspended = false ∧ (s.pos x).returnWaiting = true
    (s.pocket k ≠ .free ∨ (∀ x, ¬waits x) → t = s) ∧
    ∀ x i u, s.pocket k = .free → waits x → (∀ y, y < x → ¬waits y) →
      (s.pos x).rack = .entry i → s.tool i = some u → u.state = .offloaded →
      (∀ o ∈ s.standing, o.incoming ≠ some i ∧ o.outgoing ≠ some i) →
      let n := s.nextNumber
      let o : Order :=
        { number := n, kind := .return_, urgent := false, pos := x, incoming := none, outgoing := some i,
          pocket := some k, state := .ready }
      let next := if n < 65535 then n + 1 else 1
      let m : State :=
        if s.ret.queue.length < 16 then { s with ret.queue := s.ret.queue ++ [o], ret.counter := next }
        else { s with ret.backlog := s.ret.backlog ++ [{ o with state := .backlog }], ret.counter := next }
      t = if s.ret.queue.length < 16 ∨ s.ret.backlog.length < 24 then
          (m.setPos x { s.pos x with returnWaiting := false }).setPocket k (.booked n)
        else s) ∧
  (∀ (k : PocketIx) (x : PosIx) (i : EntryIx) (u : Tool) (s : State), s.listening .ps = true → s.pocket k = .unknown →
    s.present x = true → (s.pos x).suspended = false → (s.pos x).returnWaiting = true →
    (∀ y, y < x → s.present y = false ∨ (s.pos y).suspended = true ∨ (s.pos y).returnWaiting = false) →
    (s.pos x).rack = .entry i → s.tool i = some u → u.state = .offloaded →
    (∀ o ∈ s.standing, o.incoming ≠ some i ∧ o.outgoing ≠ some i) → s.ret.queue.length < 16 →
    ∃ t : State, exec (.declarePocket .ps (k.val + 1)) s =
        .next (t.answer .ps ⟨37, .accepted, byte (k.val + 1) :: 2 :: be 2 s.nextNumber⟩) ∧
      t.pocket k = .booked s.nextNumber ∧ (t.pos x).returnWaiting = false) ∧
  ∀ (c : Instr) (s t : State), exec c s = .next t →
    let ready : Prop := (∀ o ∈ t.ret.queue, o.busy = false) ∧ ∃ o ∈ t.ret.queue, o.state = .ready ∧ t.present o.pos = true
    (t.ret.queue ≠ s.ret.queue → ready → (t.port .pc).notices &&& Notice.orderReady.mask ≠ 0) ∧
    ((s.port .pc).notices &&& Notice.orderReady.mask = 0 → (t.port .pc).notices &&& Notice.orderReady.mask ≠ 0 → ready)

/-! ## The machine -/

/-- A step takes the command at the front of the queue and runs it on the state with the queue's rest; on an empty queue the
part idles. The queue and the idling are the model's own (log 10). -/
def Obligations.StepRunsFront : Prop :=
  ∀ (c : Instr) (rest : List Instr) (s : State),
    step { s with pending := c :: rest } = exec c { s with pending := rest } ∧
    step { s with pending := [] } = .next { s with pending := [] }

/-- R42, R96, R113, R138, R149, R171, R187: what reset leaves, and that it obeys the laws of the device. The four stations of
the strap are the model's choice (log 4). -/
def Obligations.ResetIsColdAndLawful : Prop :=
  let s := State.reset
  ((∀ k, s.typ k = none) ∧ (∀ i, s.tool i = none) ∧ (∀ k, s.pocket k = .free) ∧ (∀ h, s.route h = none)) ∧
  (∀ x, (s.pos x).service = .uncertain ∧ (s.pos x).required = none ∧ (s.pos x).mounted = .bare ∧ (s.pos x).rack = .bare ∧
    (s.pos x).need = .noNeed ∧ (s.pos x).mode = .hold ∧ (s.pos x).retryTime = 1 ∧ (s.pos x).retryLimit = 3 ∧
    (s.pos x).retryCount = 0 ∧ (s.pos x).window = false ∧ (s.pos x).suspended = false) ∧
  (s.ret.waiting = [] ∧ s.ret.queue = [] ∧ s.ret.backlog = [] ∧ s.ret.counter = 1 ∧ s.ret.timeout = 600 ∧
    s.ret.expired = []) ∧
  (s.vol.ms = 0 ∧ s.vol.lock = .hunt ∧ s.vol.lockCount = 0 ∧ s.vol.lossDeadline = none ∧ s.vol.errors = 0 ∧
    s.vol.line = .quiet ∧ (∀ x, (s.chan x).state = .idle ∧ (s.chan x).retryTimer = none)) ∧
  ((s.port .ps).notices = Notice.restarted.mask ||| Notice.retentionLost.mask ∧ (s.port .ps).attn = true ∧
    s.marker = true ∧ s.lastStart = .cold ∧ s.running = true) ∧
  (CheckLaw s ∧ LineLaw s ∧ RouteLaw s ∧ SerialLaw s ∧ CatalogueLaw s ∧ AccountLaw s ∧ PositionLaw s ∧ WaitingLaw s ∧
    OrderLaw s ∧ CellLaw s)

/-- R40: every step keeps the check byte equal to the exclusive-or of every byte of retained state. -/
def Obligations.CheckByteStaysCurrent : Prop :=
  ∀ s t : State, CheckLaw s → step s = .next t → CheckLaw t

/-- R170, R180: every step leaves a station's INHIBIT line asserted exactly when one of its positions is HELD or RESET is
held, and a port's ATTN line exactly while it is enabled, RESET is released, and its mailbox holds a new reply or its
notice set a flag. That the lines follow while the main supply is off too is the model's choice (log 12). -/
def Obligations.LinesFollow : Prop :=
  ∀ s t : State, LineLaw s → step s = .next t → LineLaw t

/-- R145, R18: every step keeps the routes of two slots apart, and the serials of two live entries apart and not 0. -/
def Obligations.RoutesAndSerialsStayUnique : Prop :=
  (∀ s t : State, RouteLaw s → step s = .next t → RouteLaw t) ∧
    ∀ s t : State, SerialLaw s → step s = .next t → SerialLaw t

/-- R1 to R6, R22 to R25: every step keeps every DEFINED type record and every live entry's account in range. -/
def Obligations.FiguresStayInRange : Prop :=
  ∀ s t : State, CatalogueLaw s ∧ AccountLaw s → step s = .next t → CatalogueLaw t ∧ AccountLaw t

/-- R74, R92, R130, R160, R167: every step keeps every position record lawful, its causes with its service state. -/
def Obligations.PositionsStayLawful : Prop :=
  ∀ s t : State, PositionLaw s → step s = .next t → PositionLaw t

/-- R19, R20, R26, R72, R73, R92, R115 to R117, Table 6-2: every step keeps the cell in agreement. Every tool lies at one
place, which names it, or is MOVING under the taken order; a promise and a sister are one; a need is where its sister is; a
position in SERVING, DUE, HELD or RELEASED has a tool MOUNTED and a VACANT one none; a place is BOOKED exactly for the order
that has it; no two standing orders name one tool; the position of a TAKEN EXCHANGE, DIRECT or REMOVE never waits, and has no
other sister than the one that order brings. -/
def Obligations.CellStaysInAgreement : Prop :=
  ∀ s t : State, CellLaw s ∧ OrderLaw s ∧ WaitingLaw s ∧ PositionLaw s → step s = .next t → CellLaw t

/-- R103: every step keeps the waiting list free of repeats, equal to the positions whose need is WAITING, and in its two
classes; within a class, in a lawful cell, the positions that stay keep their order and those that join stand behind them. An
ASSIGN or a DECLARE may take its own position off the list and put it at the tail. -/
def Obligations.WaitingListStaysLawful : Prop :=
  (∀ s t : State, WaitingLaw s → step s = .next t → WaitingLaw t) ∧
    ∀ (c : Instr) (s t : State), (∀ p sent, c ≠ .undecodedRequest p sent) →
      CellLaw s ∧ OrderLaw s ∧ WaitingLaw s ∧ PositionLaw s → exec c s = .next t →
      ∃ moved : Option PosIx,
        (∀ x, moved = some x → (∃ code, c = .assign .ps x.val code) ∨ c = .declarePosition .ps x.val) ∧
        ∀ urgent : Bool, ∃ joined : List PosIx,
          t.ret.waiting.filter (fun x => decide ((t.pos x).urgent = urgent)) =
            s.ret.waiting.filter (fun x => decide ((s.pos x).urgent = urgent ∧ x ∈ t.ret.waiting ∧
              (t.pos x).urgent = urgent ∧ moved ≠ some x)) ++ joined

/-- R114, R120, R121, R133: every step keeps the queue, the backlog, the order numbers and the expired-number memory lawful. -/
def Obligations.OrdersStayLawful : Prop :=
  ∀ s t : State, OrderLaw s → step s = .next t → OrderLaw t

/-- Tables 9-1 and 9-2, R174, R175: the frame of every request whose operands fit their bytes is read back as that request,
and the REQUEST transaction that carries it is taken at its port as that request. That the bytes of a good frame may come as
UNDECODED_REQUEST is the model's own (log 31). -/
def Obligations.FramesReadBack : Prop :=
  ∀ (i : Instr) (bytes : List Byte), i.wf = true → frameOf i = some bytes →
    ∃ p, i.port = some p ∧ decodeFrame p bytes = .request i ∧
      ∀ s, (s.port p).reception = .idle → exec (.undecodedRequest p ⟨1 :: bytes, true⟩) s = exec i s
end

