-- ==== Sys2Proof/Laws/State.lean ====
section
/-! SUPPORT. Reading after writing: one lemma per field and update of the state, so that no later proof unfolds a record
update. -/
namespace Sys2Proof.Machine

/-- Reading a place of a vector after a write. -/
theorem getFin_set {α : Type} {n : Nat} (v : Vector α n) (i j : Fin n) (a : α) :
    (v.set i a)[j] = if i = j then a else v[j] := by
  simp [Vector.getElem_set, Fin.ext_iff]

/-- The place of a port determines it. -/
theorem Port.ix_inj {p q : Port} : p.ix = q.ix ↔ p = q := by
  constructor
  · intro h
    cases p <;> cases q <;> simp_all [Port.ix, Fin.ext_iff] <;> omega
  · rintro rfl; rfl

/-! ## setPos -/

@[simp] theorem State.pos_setPos (s : State) (x : PosIx) (p : Position) (j : PosIx) :
    (s.setPos x p).pos j = if x = j then p else s.pos j := by
  simp only [State.setPos, State.pos]; exact getFin_set _ _ _ _

@[simp] theorem State.tool_setPos (s : State) (x : PosIx) (p : Position) : (s.setPos x p).tool = s.tool := rfl
@[simp] theorem State.typ_setPos (s : State) (x : PosIx) (p : Position) : (s.setPos x p).typ = s.typ := rfl
@[simp] theorem State.pocket_setPos (s : State) (x : PosIx) (p : Position) : (s.setPos x p).pocket = s.pocket := rfl
@[simp] theorem State.chan_setPos (s : State) (x : PosIx) (p : Position) : (s.setPos x p).chan = s.chan := rfl
@[simp] theorem State.route_setPos (s : State) (x : PosIx) (p : Position) : (s.setPos x p).route = s.route := rfl
@[simp] theorem State.port_setPos (s : State) (x : PosIx) (p : Position) : (s.setPos x p).port = s.port := rfl
@[simp] theorem State.types_setPos (s : State) (x : PosIx) (p : Position) : (s.setPos x p).ret.types = s.ret.types := rfl
@[simp] theorem State.tools_setPos (s : State) (x : PosIx) (p : Position) : (s.setPos x p).ret.tools = s.ret.tools := rfl
@[simp] theorem State.pockets_setPos (s : State) (x : PosIx) (p : Position) : (s.setPos x p).ret.pockets = s.ret.pockets := rfl
@[simp] theorem State.waiting_setPos (s : State) (x : PosIx) (p : Position) : (s.setPos x p).ret.waiting = s.ret.waiting := rfl
@[simp] theorem State.queue_setPos (s : State) (x : PosIx) (p : Position) : (s.setPos x p).ret.queue = s.ret.queue := rfl
@[simp] theorem State.backlog_setPos (s : State) (x : PosIx) (p : Position) : (s.setPos x p).ret.backlog = s.ret.backlog := rfl
@[simp] theorem State.counter_setPos (s : State) (x : PosIx) (p : Position) : (s.setPos x p).ret.counter = s.ret.counter := rfl
@[simp] theorem State.timeout_setPos (s : State) (x : PosIx) (p : Position) : (s.setPos x p).ret.timeout = s.ret.timeout := rfl
@[simp] theorem State.expired_setPos (s : State) (x : PosIx) (p : Position) : (s.setPos x p).ret.expired = s.ret.expired := rfl
@[simp] theorem State.routes_setPos (s : State) (x : PosIx) (p : Position) : (s.setPos x p).ret.routes = s.ret.routes := rfl
@[simp] theorem State.vol_setPos (s : State) (x : PosIx) (p : Position) : (s.setPos x p).vol = s.vol := rfl
@[simp] theorem State.marker_setPos (s : State) (x : PosIx) (p : Position) : (s.setPos x p).marker = s.marker := rfl
@[simp] theorem State.checkByte_setPos (s : State) (x : PosIx) (p : Position) : (s.setPos x p).checkByte = s.checkByte := rfl
@[simp] theorem State.vbatLatch_setPos (s : State) (x : PosIx) (p : Position) : (s.setPos x p).vbatLatch = s.vbatLatch := rfl
@[simp] theorem State.lastStart_setPos (s : State) (x : PosIx) (p : Position) : (s.setPos x p).lastStart = s.lastStart := rfl
@[simp] theorem State.supplyOn_setPos (s : State) (x : PosIx) (p : Position) : (s.setPos x p).supplyOn = s.supplyOn := rfl
@[simp] theorem State.started_setPos (s : State) (x : PosIx) (p : Position) : (s.setPos x p).started = s.started := rfl
@[simp] theorem State.resetHeld_setPos (s : State) (x : PosIx) (p : Position) : (s.setPos x p).resetHeld = s.resetHeld := rfl
@[simp] theorem State.pins_setPos (s : State) (x : PosIx) (p : Position) : (s.setPos x p).pins = s.pins := rfl
@[simp] theorem State.strap_setPos (s : State) (x : PosIx) (p : Position) : (s.setPos x p).strap = s.strap := rfl
@[simp] theorem State.inhibit_setPos (s : State) (x : PosIx) (p : Position) : (s.setPos x p).inhibit = s.inhibit := rfl
@[simp] theorem State.pending_setPos (s : State) (x : PosIx) (p : Position) : (s.setPos x p).pending = s.pending := rfl
@[simp] theorem State.present_setPos (s : State) (x : PosIx) (p : Position) : (s.setPos x p).present = s.present := rfl
@[simp] theorem State.enabled_setPos (s : State) (x : PosIx) (p : Position) : (s.setPos x p).enabled = s.enabled := rfl
@[simp] theorem State.running_setPos (s : State) (x : PosIx) (p : Position) : (s.setPos x p).running = s.running := rfl
@[simp] theorem State.figures_setPos (s : State) (x : PosIx) (p : Position) : (s.setPos x p).figures = s.figures := rfl
@[simp] theorem State.partsLeft_setPos (s : State) (x : PosIx) (p : Position) : (s.setPos x p).partsLeft = s.partsLeft := rfl

/-! ## setTool -/

@[simp] theorem State.tool_setTool (s : State) (i : EntryIx) (t : Option Tool) (j : EntryIx) :
    (s.setTool i t).tool j = if i = j then t else s.tool j := by
  simp only [State.setTool, State.tool]; exact getFin_set _ _ _ _

@[simp] theorem State.pos_setTool (s : State) (i : EntryIx) (t : Option Tool) : (s.setTool i t).pos = s.pos := rfl
@[simp] theorem State.typ_setTool (s : State) (i : EntryIx) (t : Option Tool) : (s.setTool i t).typ = s.typ := rfl
@[simp] theorem State.pocket_setTool (s : State) (i : EntryIx) (t : Option Tool) : (s.setTool i t).pocket = s.pocket := rfl
@[simp] theorem State.chan_setTool (s : State) (i : EntryIx) (t : Option Tool) : (s.setTool i t).chan = s.chan := rfl
@[simp] theorem State.route_setTool (s : State) (i : EntryIx) (t : Option Tool) : (s.setTool i t).route = s.route := rfl
@[simp] theorem State.port_setTool (s : State) (i : EntryIx) (t : Option Tool) : (s.setTool i t).port = s.port := rfl
@[simp] theorem State.types_setTool (s : State) (i : EntryIx) (t : Option Tool) : (s.setTool i t).ret.types = s.ret.types := rfl
@[simp] theorem State.pockets_setTool (s : State) (i : EntryIx) (t : Option Tool) : (s.setTool i t).ret.pockets = s.ret.pockets := rfl
@[simp] theorem State.positions_setTool (s : State) (i : EntryIx) (t : Option Tool) : (s.setTool i t).ret.positions = s.ret.positions := rfl
@[simp] theorem State.waiting_setTool (s : State) (i : EntryIx) (t : Option Tool) : (s.setTool i t).ret.waiting = s.ret.waiting := rfl
@[simp] theorem State.queue_setTool (s : State) (i : EntryIx) (t : Option Tool) : (s.setTool i t).ret.queue = s.ret.queue := rfl
@[simp] theorem State.backlog_setTool (s : State) (i : EntryIx) (t : Option Tool) : (s.setTool i t).ret.backlog = s.ret.backlog := rfl
@[simp] theorem State.counter_setTool (s : State) (i : EntryIx) (t : Option Tool) : (s.setTool i t).ret.counter = s.ret.counter := rfl
@[simp] theorem State.timeout_setTool (s : State) (i : EntryIx) (t : Option Tool) : (s.setTool i t).ret.timeout = s.ret.timeout := rfl
@[simp] theorem State.expired_setTool (s : State) (i : EntryIx) (t : Option Tool) : (s.setTool i t).ret.expired = s.ret.expired := rfl
@[simp] theorem State.routes_setTool (s : State) (i : EntryIx) (t : Option Tool) : (s.setTool i t).ret.routes = s.ret.routes := rfl
@[simp] theorem State.vol_setTool (s : State) (i : EntryIx) (t : Option Tool) : (s.setTool i t).vol = s.vol := rfl
@[simp] theorem State.marker_setTool (s : State) (i : EntryIx) (t : Option Tool) : (s.setTool i t).marker = s.marker := rfl
@[simp] theorem State.checkByte_setTool (s : State) (i : EntryIx) (t : Option Tool) : (s.setTool i t).checkByte = s.checkByte := rfl
@[simp] theorem State.vbatLatch_setTool (s : State) (i : EntryIx) (t : Option Tool) : (s.setTool i t).vbatLatch = s.vbatLatch := rfl
@[simp] theorem State.lastStart_setTool (s : State) (i : EntryIx) (t : Option Tool) : (s.setTool i t).lastStart = s.lastStart := rfl
@[simp] theorem State.supplyOn_setTool (s : State) (i : EntryIx) (t : Option Tool) : (s.setTool i t).supplyOn = s.supplyOn := rfl
@[simp] theorem State.started_setTool (s : State) (i : EntryIx) (t : Option Tool) : (s.setTool i t).started = s.started := rfl
@[simp] theorem State.resetHeld_setTool (s : State) (i : EntryIx) (t : Option Tool) : (s.setTool i t).resetHeld = s.resetHeld := rfl
@[simp] theorem State.pins_setTool (s : State) (i : EntryIx) (t : Option Tool) : (s.setTool i t).pins = s.pins := rfl
@[simp] theorem State.strap_setTool (s : State) (i : EntryIx) (t : Option Tool) : (s.setTool i t).strap = s.strap := rfl
@[simp] theorem State.inhibit_setTool (s : State) (i : EntryIx) (t : Option Tool) : (s.setTool i t).inhibit = s.inhibit := rfl
@[simp] theorem State.pending_setTool (s : State) (i : EntryIx) (t : Option Tool) : (s.setTool i t).pending = s.pending := rfl
@[simp] theorem State.present_setTool (s : State) (i : EntryIx) (t : Option Tool) : (s.setTool i t).present = s.present := rfl
@[simp] theorem State.enabled_setTool (s : State) (i : EntryIx) (t : Option Tool) : (s.setTool i t).enabled = s.enabled := rfl
@[simp] theorem State.running_setTool (s : State) (i : EntryIx) (t : Option Tool) : (s.setTool i t).running = s.running := rfl
@[simp] theorem State.figures_setTool (s : State) (i : EntryIx) (t : Option Tool) : (s.setTool i t).figures = s.figures := rfl
@[simp] theorem State.partsLeft_setTool (s : State) (i : EntryIx) (t : Option Tool) : (s.setTool i t).partsLeft = s.partsLeft := rfl

/-! ## setType -/

@[simp] theorem State.typ_setType (s : State) (k : TypeIx) (f : Option TypeRec) (j : TypeIx) :
    (s.setType k f).typ j = if k = j then f else s.typ j := by
  simp only [State.setType, State.typ]; exact getFin_set _ _ _ _

@[simp] theorem State.pos_setType (s : State) (k : TypeIx) (f : Option TypeRec) : (s.setType k f).pos = s.pos := rfl
@[simp] theorem State.tool_setType (s : State) (k : TypeIx) (f : Option TypeRec) : (s.setType k f).tool = s.tool := rfl
@[simp] theorem State.pocket_setType (s : State) (k : TypeIx) (f : Option TypeRec) : (s.setType k f).pocket = s.pocket := rfl
@[simp] theorem State.chan_setType (s : State) (k : TypeIx) (f : Option TypeRec) : (s.setType k f).chan = s.chan := rfl
@[simp] theorem State.route_setType (s : State) (k : TypeIx) (f : Option TypeRec) : (s.setType k f).route = s.route := rfl
@[simp] theorem State.port_setType (s : State) (k : TypeIx) (f : Option TypeRec) : (s.setType k f).port = s.port := rfl
@[simp] theorem State.tools_setType (s : State) (k : TypeIx) (f : Option TypeRec) : (s.setType k f).ret.tools = s.ret.tools := rfl
@[simp] theorem State.pockets_setType (s : State) (k : TypeIx) (f : Option TypeRec) : (s.setType k f).ret.pockets = s.ret.pockets := rfl
@[simp] theorem State.positions_setType (s : State) (k : TypeIx) (f : Option TypeRec) : (s.setType k f).ret.positions = s.ret.positions := rfl
@[simp] theorem State.waiting_setType (s : State) (k : TypeIx) (f : Option TypeRec) : (s.setType k f).ret.waiting = s.ret.waiting := rfl
@[simp] theorem State.queue_setType (s : State) (k : TypeIx) (f : Option TypeRec) : (s.setType k f).ret.queue = s.ret.queue := rfl
@[simp] theorem State.backlog_setType (s : State) (k : TypeIx) (f : Option TypeRec) : (s.setType k f).ret.backlog = s.ret.backlog := rfl
@[simp] theorem State.counter_setType (s : State) (k : TypeIx) (f : Option TypeRec) : (s.setType k f).ret.counter = s.ret.counter := rfl
@[simp] theorem State.timeout_setType (s : State) (k : TypeIx) (f : Option TypeRec) : (s.setType k f).ret.timeout = s.ret.timeout := rfl
@[simp] theorem State.expired_setType (s : State) (k : TypeIx) (f : Option TypeRec) : (s.setType k f).ret.expired = s.ret.expired := rfl
@[simp] theorem State.routes_setType (s : State) (k : TypeIx) (f : Option TypeRec) : (s.setType k f).ret.routes = s.ret.routes := rfl
@[simp] theorem State.vol_setType (s : State) (k : TypeIx) (f : Option TypeRec) : (s.setType k f).vol = s.vol := rfl
@[simp] theorem State.marker_setType (s : State) (k : TypeIx) (f : Option TypeRec) : (s.setType k f).marker = s.marker := rfl
@[simp] theorem State.checkByte_setType (s : State) (k : TypeIx) (f : Option TypeRec) : (s.setType k f).checkByte = s.checkByte := rfl
@[simp] theorem State.vbatLatch_setType (s : State) (k : TypeIx) (f : Option TypeRec) : (s.setType k f).vbatLatch = s.vbatLatch := rfl
@[simp] theorem State.lastStart_setType (s : State) (k : TypeIx) (f : Option TypeRec) : (s.setType k f).lastStart = s.lastStart := rfl
@[simp] theorem State.supplyOn_setType (s : State) (k : TypeIx) (f : Option TypeRec) : (s.setType k f).supplyOn = s.supplyOn := rfl
@[simp] theorem State.started_setType (s : State) (k : TypeIx) (f : Option TypeRec) : (s.setType k f).started = s.started := rfl
@[simp] theorem State.resetHeld_setType (s : State) (k : TypeIx) (f : Option TypeRec) : (s.setType k f).resetHeld = s.resetHeld := rfl
@[simp] theorem State.pins_setType (s : State) (k : TypeIx) (f : Option TypeRec) : (s.setType k f).pins = s.pins := rfl
@[simp] theorem State.strap_setType (s : State) (k : TypeIx) (f : Option TypeRec) : (s.setType k f).strap = s.strap := rfl
@[simp] theorem State.inhibit_setType (s : State) (k : TypeIx) (f : Option TypeRec) : (s.setType k f).inhibit = s.inhibit := rfl
@[simp] theorem State.pending_setType (s : State) (k : TypeIx) (f : Option TypeRec) : (s.setType k f).pending = s.pending := rfl
@[simp] theorem State.present_setType (s : State) (k : TypeIx) (f : Option TypeRec) : (s.setType k f).present = s.present := rfl
@[simp] theorem State.enabled_setType (s : State) (k : TypeIx) (f : Option TypeRec) : (s.setType k f).enabled = s.enabled := rfl
@[simp] theorem State.running_setType (s : State) (k : TypeIx) (f : Option TypeRec) : (s.setType k f).running = s.running := rfl
@[simp] theorem State.mountedTool_setType (s : State) (k : TypeIx) (f : Option TypeRec) : (s.setType k f).mountedTool = s.mountedTool := rfl

/-! ## setPocket -/

@[simp] theorem State.pocket_setPocket (s : State) (k : PocketIx) (v : Pocket) (j : PocketIx) :
    (s.setPocket k v).pocket j = if k = j then v else s.pocket j := by
  simp only [State.setPocket, State.pocket]; exact getFin_set _ _ _ _

@[simp] theorem State.pos_setPocket (s : State) (k : PocketIx) (v : Pocket) : (s.setPocket k v).pos = s.pos := rfl
@[simp] theorem State.tool_setPocket (s : State) (k : PocketIx) (v : Pocket) : (s.setPocket k v).tool = s.tool := rfl
@[simp] theorem State.typ_setPocket (s : State) (k : PocketIx) (v : Pocket) : (s.setPocket k v).typ = s.typ := rfl
@[simp] theorem State.chan_setPocket (s : State) (k : PocketIx) (v : Pocket) : (s.setPocket k v).chan = s.chan := rfl
@[simp] theorem State.route_setPocket (s : State) (k : PocketIx) (v : Pocket) : (s.setPocket k v).route = s.route := rfl
@[simp] theorem State.port_setPocket (s : State) (k : PocketIx) (v : Pocket) : (s.setPocket k v).port = s.port := rfl
@[simp] theorem State.types_setPocket (s : State) (k : PocketIx) (v : Pocket) : (s.setPocket k v).ret.types = s.ret.types := rfl
@[simp] theorem State.tools_setPocket (s : State) (k : PocketIx) (v : Pocket) : (s.setPocket k v).ret.tools = s.ret.tools := rfl
@[simp] theorem State.positions_setPocket (s : State) (k : PocketIx) (v : Pocket) : (s.setPocket k v).ret.positions = s.ret.positions := rfl
@[simp] theorem State.waiting_setPocket (s : State) (k : PocketIx) (v : Pocket) : (s.setPocket k v).ret.waiting = s.ret.waiting := rfl
@[simp] theorem State.queue_setPocket (s : State) (k : PocketIx) (v : Pocket) : (s.setPocket k v).ret.queue = s.ret.queue := rfl
@[simp] theorem State.backlog_setPocket (s : State) (k : PocketIx) (v : Pocket) : (s.setPocket k v).ret.backlog = s.ret.backlog := rfl
@[simp] theorem State.counter_setPocket (s : State) (k : PocketIx) (v : Pocket) : (s.setPocket k v).ret.counter = s.ret.counter := rfl
@[simp] theorem State.timeout_setPocket (s : State) (k : PocketIx) (v : Pocket) : (s.setPocket k v).ret.timeout = s.ret.timeout := rfl
@[simp] theorem State.expired_setPocket (s : State) (k : PocketIx) (v : Pocket) : (s.setPocket k v).ret.expired = s.ret.expired := rfl
@[simp] theorem State.routes_setPocket (s : State) (k : PocketIx) (v : Pocket) : (s.setPocket k v).ret.routes = s.ret.routes := rfl
@[simp] theorem State.vol_setPocket (s : State) (k : PocketIx) (v : Pocket) : (s.setPocket k v).vol = s.vol := rfl
@[simp] theorem State.marker_setPocket (s : State) (k : PocketIx) (v : Pocket) : (s.setPocket k v).marker = s.marker := rfl
@[simp] theorem State.checkByte_setPocket (s : State) (k : PocketIx) (v : Pocket) : (s.setPocket k v).checkByte = s.checkByte := rfl
@[simp] theorem State.vbatLatch_setPocket (s : State) (k : PocketIx) (v : Pocket) : (s.setPocket k v).vbatLatch = s.vbatLatch := rfl
@[simp] theorem State.lastStart_setPocket (s : State) (k : PocketIx) (v : Pocket) : (s.setPocket k v).lastStart = s.lastStart := rfl
@[simp] theorem State.supplyOn_setPocket (s : State) (k : PocketIx) (v : Pocket) : (s.setPocket k v).supplyOn = s.supplyOn := rfl
@[simp] theorem State.started_setPocket (s : State) (k : PocketIx) (v : Pocket) : (s.setPocket k v).started = s.started := rfl
@[simp] theorem State.resetHeld_setPocket (s : State) (k : PocketIx) (v : Pocket) : (s.setPocket k v).resetHeld = s.resetHeld := rfl
@[simp] theorem State.pins_setPocket (s : State) (k : PocketIx) (v : Pocket) : (s.setPocket k v).pins = s.pins := rfl
@[simp] theorem State.strap_setPocket (s : State) (k : PocketIx) (v : Pocket) : (s.setPocket k v).strap = s.strap := rfl
@[simp] theorem State.inhibit_setPocket (s : State) (k : PocketIx) (v : Pocket) : (s.setPocket k v).inhibit = s.inhibit := rfl
@[simp] theorem State.pending_setPocket (s : State) (k : PocketIx) (v : Pocket) : (s.setPocket k v).pending = s.pending := rfl
@[simp] theorem State.present_setPocket (s : State) (k : PocketIx) (v : Pocket) : (s.setPocket k v).present = s.present := rfl
@[simp] theorem State.enabled_setPocket (s : State) (k : PocketIx) (v : Pocket) : (s.setPocket k v).enabled = s.enabled := rfl
@[simp] theorem State.running_setPocket (s : State) (k : PocketIx) (v : Pocket) : (s.setPocket k v).running = s.running := rfl
@[simp] theorem State.figures_setPocket (s : State) (k : PocketIx) (v : Pocket) : (s.setPocket k v).figures = s.figures := rfl
@[simp] theorem State.partsLeft_setPocket (s : State) (k : PocketIx) (v : Pocket) : (s.setPocket k v).partsLeft = s.partsLeft := rfl
@[simp] theorem State.mountedTool_setPocket (s : State) (k : PocketIx) (v : Pocket) : (s.setPocket k v).mountedTool = s.mountedTool := rfl

/-! ## setChan -/

@[simp] theorem State.chan_setChan (s : State) (x : PosIx) (c : Channel) (j : PosIx) :
    (s.setChan x c).chan j = if x = j then c else s.chan j := by
  simp only [State.setChan, State.chan]; exact getFin_set _ _ _ _

@[simp] theorem State.pos_setChan (s : State) (x : PosIx) (c : Channel) : (s.setChan x c).pos = s.pos := rfl
@[simp] theorem State.tool_setChan (s : State) (x : PosIx) (c : Channel) : (s.setChan x c).tool = s.tool := rfl
@[simp] theorem State.typ_setChan (s : State) (x : PosIx) (c : Channel) : (s.setChan x c).typ = s.typ := rfl
@[simp] theorem State.pocket_setChan (s : State) (x : PosIx) (c : Channel) : (s.setChan x c).pocket = s.pocket := rfl
@[simp] theorem State.route_setChan (s : State) (x : PosIx) (c : Channel) : (s.setChan x c).route = s.route := rfl
@[simp] theorem State.port_setChan (s : State) (x : PosIx) (c : Channel) : (s.setChan x c).port = s.port := rfl
@[simp] theorem State.types_setChan (s : State) (x : PosIx) (c : Channel) : (s.setChan x c).ret.types = s.ret.types := rfl
@[simp] theorem State.tools_setChan (s : State) (x : PosIx) (c : Channel) : (s.setChan x c).ret.tools = s.ret.tools := rfl
@[simp] theorem State.pockets_setChan (s : State) (x : PosIx) (c : Channel) : (s.setChan x c).ret.pockets = s.ret.pockets := rfl
@[simp] theorem State.positions_setChan (s : State) (x : PosIx) (c : Channel) : (s.setChan x c).ret.positions = s.ret.positions := rfl
@[simp] theorem State.waiting_setChan (s : State) (x : PosIx) (c : Channel) : (s.setChan x c).ret.waiting = s.ret.waiting := rfl
@[simp] theorem State.queue_setChan (s : State) (x : PosIx) (c : Channel) : (s.setChan x c).ret.queue = s.ret.queue := rfl
@[simp] theorem State.backlog_setChan (s : State) (x : PosIx) (c : Channel) : (s.setChan x c).ret.backlog = s.ret.backlog := rfl
@[simp] theorem State.counter_setChan (s : State) (x : PosIx) (c : Channel) : (s.setChan x c).ret.counter = s.ret.counter := rfl
@[simp] theorem State.timeout_setChan (s : State) (x : PosIx) (c : Channel) : (s.setChan x c).ret.timeout = s.ret.timeout := rfl
@[simp] theorem State.expired_setChan (s : State) (x : PosIx) (c : Channel) : (s.setChan x c).ret.expired = s.ret.expired := rfl
@[simp] theorem State.routes_setChan (s : State) (x : PosIx) (c : Channel) : (s.setChan x c).ret.routes = s.ret.routes := rfl
@[simp] theorem State.ms_setChan (s : State) (x : PosIx) (c : Channel) : (s.setChan x c).vol.ms = s.vol.ms := rfl
@[simp] theorem State.swapDeadline_setChan (s : State) (x : PosIx) (c : Channel) : (s.setChan x c).vol.swapDeadline = s.vol.swapDeadline := rfl
@[simp] theorem State.lock_setChan (s : State) (x : PosIx) (c : Channel) : (s.setChan x c).vol.lock = s.vol.lock := rfl
@[simp] theorem State.lockCount_setChan (s : State) (x : PosIx) (c : Channel) : (s.setChan x c).vol.lockCount = s.vol.lockCount := rfl
@[simp] theorem State.lossDeadline_setChan (s : State) (x : PosIx) (c : Channel) : (s.setChan x c).vol.lossDeadline = s.vol.lossDeadline := rfl
@[simp] theorem State.errors_setChan (s : State) (x : PosIx) (c : Channel) : (s.setChan x c).vol.errors = s.vol.errors := rfl
@[simp] theorem State.lastSamples_setChan (s : State) (x : PosIx) (c : Channel) : (s.setChan x c).vol.lastSamples = s.vol.lastSamples := rfl
@[simp] theorem State.line_setChan (s : State) (x : PosIx) (c : Channel) : (s.setChan x c).vol.line = s.vol.line := rfl
@[simp] theorem State.ports_setChan (s : State) (x : PosIx) (c : Channel) : (s.setChan x c).vol.ports = s.vol.ports := rfl
@[simp] theorem State.ret_setChan (s : State) (x : PosIx) (c : Channel) : (s.setChan x c).ret = s.ret := rfl
@[simp] theorem State.marker_setChan (s : State) (x : PosIx) (c : Channel) : (s.setChan x c).marker = s.marker := rfl
@[simp] theorem State.checkByte_setChan (s : State) (x : PosIx) (c : Channel) : (s.setChan x c).checkByte = s.checkByte := rfl
@[simp] theorem State.vbatLatch_setChan (s : State) (x : PosIx) (c : Channel) : (s.setChan x c).vbatLatch = s.vbatLatch := rfl
@[simp] theorem State.lastStart_setChan (s : State) (x : PosIx) (c : Channel) : (s.setChan x c).lastStart = s.lastStart := rfl
@[simp] theorem State.supplyOn_setChan (s : State) (x : PosIx) (c : Channel) : (s.setChan x c).supplyOn = s.supplyOn := rfl
@[simp] theorem State.started_setChan (s : State) (x : PosIx) (c : Channel) : (s.setChan x c).started = s.started := rfl
@[simp] theorem State.resetHeld_setChan (s : State) (x : PosIx) (c : Channel) : (s.setChan x c).resetHeld = s.resetHeld := rfl
@[simp] theorem State.pins_setChan (s : State) (x : PosIx) (c : Channel) : (s.setChan x c).pins = s.pins := rfl
@[simp] theorem State.strap_setChan (s : State) (x : PosIx) (c : Channel) : (s.setChan x c).strap = s.strap := rfl
@[simp] theorem State.inhibit_setChan (s : State) (x : PosIx) (c : Channel) : (s.setChan x c).inhibit = s.inhibit := rfl
@[simp] theorem State.pending_setChan (s : State) (x : PosIx) (c : Channel) : (s.setChan x c).pending = s.pending := rfl
@[simp] theorem State.present_setChan (s : State) (x : PosIx) (c : Channel) : (s.setChan x c).present = s.present := rfl
@[simp] theorem State.enabled_setChan (s : State) (x : PosIx) (c : Channel) : (s.setChan x c).enabled = s.enabled := rfl
@[simp] theorem State.running_setChan (s : State) (x : PosIx) (c : Channel) : (s.setChan x c).running = s.running := rfl
@[simp] theorem State.figures_setChan (s : State) (x : PosIx) (c : Channel) : (s.setChan x c).figures = s.figures := rfl
@[simp] theorem State.partsLeft_setChan (s : State) (x : PosIx) (c : Channel) : (s.setChan x c).partsLeft = s.partsLeft := rfl
@[simp] theorem State.mountedTool_setChan (s : State) (x : PosIx) (c : Channel) : (s.setChan x c).mountedTool = s.mountedTool := rfl

/-! ## setRoute -/

@[simp] theorem State.route_setRoute (s : State) (h : HwSlot) (g : Option Target) (j : HwSlot) :
    (s.setRoute h g).route j = if h = j then g else s.route j := by
  simp only [State.setRoute, State.route]; exact getFin_set _ _ _ _

@[simp] theorem State.pos_setRoute (s : State) (h : HwSlot) (g : Option Target) : (s.setRoute h g).pos = s.pos := rfl
@[simp] theorem State.tool_setRoute (s : State) (h : HwSlot) (g : Option Target) : (s.setRoute h g).tool = s.tool := rfl
@[simp] theorem State.typ_setRoute (s : State) (h : HwSlot) (g : Option Target) : (s.setRoute h g).typ = s.typ := rfl
@[simp] theorem State.pocket_setRoute (s : State) (h : HwSlot) (g : Option Target) : (s.setRoute h g).pocket = s.pocket := rfl
@[simp] theorem State.chan_setRoute (s : State) (h : HwSlot) (g : Option Target) : (s.setRoute h g).chan = s.chan := rfl
@[simp] theorem State.port_setRoute (s : State) (h : HwSlot) (g : Option Target) : (s.setRoute h g).port = s.port := rfl
@[simp] theorem State.types_setRoute (s : State) (h : HwSlot) (g : Option Target) : (s.setRoute h g).ret.types = s.ret.types := rfl
@[simp] theorem State.tools_setRoute (s : State) (h : HwSlot) (g : Option Target) : (s.setRoute h g).ret.tools = s.ret.tools := rfl
@[simp] theorem State.pockets_setRoute (s : State) (h : HwSlot) (g : Option Target) : (s.setRoute h g).ret.pockets = s.ret.pockets := rfl
@[simp] theorem State.positions_setRoute (s : State) (h : HwSlot) (g : Option Target) : (s.setRoute h g).ret.positions = s.ret.positions := rfl
@[simp] theorem State.waiting_setRoute (s : State) (h : HwSlot) (g : Option Target) : (s.setRoute h g).ret.waiting = s.ret.waiting := rfl
@[simp] theorem State.queue_setRoute (s : State) (h : HwSlot) (g : Option Target) : (s.setRoute h g).ret.queue = s.ret.queue := rfl
@[simp] theorem State.backlog_setRoute (s : State) (h : HwSlot) (g : Option Target) : (s.setRoute h g).ret.backlog = s.ret.backlog := rfl
@[simp] theorem State.counter_setRoute (s : State) (h : HwSlot) (g : Option Target) : (s.setRoute h g).ret.counter = s.ret.counter := rfl
@[simp] theorem State.timeout_setRoute (s : State) (h : HwSlot) (g : Option Target) : (s.setRoute h g).ret.timeout = s.ret.timeout := rfl
@[simp] theorem State.expired_setRoute (s : State) (h : HwSlot) (g : Option Target) : (s.setRoute h g).ret.expired = s.ret.expired := rfl
@[simp] theorem State.vol_setRoute (s : State) (h : HwSlot) (g : Option Target) : (s.setRoute h g).vol = s.vol := rfl
@[simp] theorem State.marker_setRoute (s : State) (h : HwSlot) (g : Option Target) : (s.setRoute h g).marker = s.marker := rfl
@[simp] theorem State.checkByte_setRoute (s : State) (h : HwSlot) (g : Option Target) : (s.setRoute h g).checkByte = s.checkByte := rfl
@[simp] theorem State.vbatLatch_setRoute (s : State) (h : HwSlot) (g : Option Target) : (s.setRoute h g).vbatLatch = s.vbatLatch := rfl
@[simp] theorem State.lastStart_setRoute (s : State) (h : HwSlot) (g : Option Target) : (s.setRoute h g).lastStart = s.lastStart := rfl
@[simp] theorem State.supplyOn_setRoute (s : State) (h : HwSlot) (g : Option Target) : (s.setRoute h g).supplyOn = s.supplyOn := rfl
@[simp] theorem State.started_setRoute (s : State) (h : HwSlot) (g : Option Target) : (s.setRoute h g).started = s.started := rfl
@[simp] theorem State.resetHeld_setRoute (s : State) (h : HwSlot) (g : Option Target) : (s.setRoute h g).resetHeld = s.resetHeld := rfl
@[simp] theorem State.pins_setRoute (s : State) (h : HwSlot) (g : Option Target) : (s.setRoute h g).pins = s.pins := rfl
@[simp] theorem State.strap_setRoute (s : State) (h : HwSlot) (g : Option Target) : (s.setRoute h g).strap = s.strap := rfl
@[simp] theorem State.inhibit_setRoute (s : State) (h : HwSlot) (g : Option Target) : (s.setRoute h g).inhibit = s.inhibit := rfl
@[simp] theorem State.pending_setRoute (s : State) (h : HwSlot) (g : Option Target) : (s.setRoute h g).pending = s.pending := rfl
@[simp] theorem State.present_setRoute (s : State) (h : HwSlot) (g : Option Target) : (s.setRoute h g).present = s.present := rfl
@[simp] theorem State.enabled_setRoute (s : State) (h : HwSlot) (g : Option Target) : (s.setRoute h g).enabled = s.enabled := rfl
@[simp] theorem State.running_setRoute (s : State) (h : HwSlot) (g : Option Target) : (s.setRoute h g).running = s.running := rfl
@[simp] theorem State.figures_setRoute (s : State) (h : HwSlot) (g : Option Target) : (s.setRoute h g).figures = s.figures := rfl
@[simp] theorem State.partsLeft_setRoute (s : State) (h : HwSlot) (g : Option Target) : (s.setRoute h g).partsLeft = s.partsLeft := rfl
@[simp] theorem State.mountedTool_setRoute (s : State) (h : HwSlot) (g : Option Target) : (s.setRoute h g).mountedTool = s.mountedTool := rfl

/-! ## setPort -/

@[simp] theorem State.port_setPort (s : State) (q : Port) (v : PortState) (j : Port) :
    (s.setPort q v).port j = if q = j then v else s.port j := by
  simp only [State.setPort, State.port, getFin_set, Port.ix_inj]

@[simp] theorem State.pos_setPort (s : State) (q : Port) (v : PortState) : (s.setPort q v).pos = s.pos := rfl
@[simp] theorem State.tool_setPort (s : State) (q : Port) (v : PortState) : (s.setPort q v).tool = s.tool := rfl
@[simp] theorem State.typ_setPort (s : State) (q : Port) (v : PortState) : (s.setPort q v).typ = s.typ := rfl
@[simp] theorem State.pocket_setPort (s : State) (q : Port) (v : PortState) : (s.setPort q v).pocket = s.pocket := rfl
@[simp] theorem State.chan_setPort (s : State) (q : Port) (v : PortState) : (s.setPort q v).chan = s.chan := rfl
@[simp] theorem State.route_setPort (s : State) (q : Port) (v : PortState) : (s.setPort q v).route = s.route := rfl
@[simp] theorem State.types_setPort (s : State) (q : Port) (v : PortState) : (s.setPort q v).ret.types = s.ret.types := rfl
@[simp] theorem State.tools_setPort (s : State) (q : Port) (v : PortState) : (s.setPort q v).ret.tools = s.ret.tools := rfl
@[simp] theorem State.pockets_setPort (s : State) (q : Port) (v : PortState) : (s.setPort q v).ret.pockets = s.ret.pockets := rfl
@[simp] theorem State.positions_setPort (s : State) (q : Port) (v : PortState) : (s.setPort q v).ret.positions = s.ret.positions := rfl
@[simp] theorem State.waiting_setPort (s : State) (q : Port) (v : PortState) : (s.setPort q v).ret.waiting = s.ret.waiting := rfl
@[simp] theorem State.queue_setPort (s : State) (q : Port) (v : PortState) : (s.setPort q v).ret.queue = s.ret.queue := rfl
@[simp] theorem State.backlog_setPort (s : State) (q : Port) (v : PortState) : (s.setPort q v).ret.backlog = s.ret.backlog := rfl
@[simp] theorem State.counter_setPort (s : State) (q : Port) (v : PortState) : (s.setPort q v).ret.counter = s.ret.counter := rfl
@[simp] theorem State.timeout_setPort (s : State) (q : Port) (v : PortState) : (s.setPort q v).ret.timeout = s.ret.timeout := rfl
@[simp] theorem State.expired_setPort (s : State) (q : Port) (v : PortState) : (s.setPort q v).ret.expired = s.ret.expired := rfl
@[simp] theorem State.routes_setPort (s : State) (q : Port) (v : PortState) : (s.setPort q v).ret.routes = s.ret.routes := rfl
@[simp] theorem State.ms_setPort (s : State) (q : Port) (v : PortState) : (s.setPort q v).vol.ms = s.vol.ms := rfl
@[simp] theorem State.swapDeadline_setPort (s : State) (q : Port) (v : PortState) : (s.setPort q v).vol.swapDeadline = s.vol.swapDeadline := rfl
@[simp] theorem State.lock_setPort (s : State) (q : Port) (v : PortState) : (s.setPort q v).vol.lock = s.vol.lock := rfl
@[simp] theorem State.lockCount_setPort (s : State) (q : Port) (v : PortState) : (s.setPort q v).vol.lockCount = s.vol.lockCount := rfl
@[simp] theorem State.lossDeadline_setPort (s : State) (q : Port) (v : PortState) : (s.setPort q v).vol.lossDeadline = s.vol.lossDeadline := rfl
@[simp] theorem State.errors_setPort (s : State) (q : Port) (v : PortState) : (s.setPort q v).vol.errors = s.vol.errors := rfl
@[simp] theorem State.lastSamples_setPort (s : State) (q : Port) (v : PortState) : (s.setPort q v).vol.lastSamples = s.vol.lastSamples := rfl
@[simp] theorem State.line_setPort (s : State) (q : Port) (v : PortState) : (s.setPort q v).vol.line = s.vol.line := rfl
@[simp] theorem State.channels_setPort (s : State) (q : Port) (v : PortState) : (s.setPort q v).vol.channels = s.vol.channels := rfl
@[simp] theorem State.ret_setPort (s : State) (q : Port) (v : PortState) : (s.setPort q v).ret = s.ret := rfl
@[simp] theorem State.marker_setPort (s : State) (q : Port) (v : PortState) : (s.setPort q v).marker = s.marker := rfl
@[simp] theorem State.checkByte_setPort (s : State) (q : Port) (v : PortState) : (s.setPort q v).checkByte = s.checkByte := rfl
@[simp] theorem State.vbatLatch_setPort (s : State) (q : Port) (v : PortState) : (s.setPort q v).vbatLatch = s.vbatLatch := rfl
@[simp] theorem State.lastStart_setPort (s : State) (q : Port) (v : PortState) : (s.setPort q v).lastStart = s.lastStart := rfl
@[simp] theorem State.supplyOn_setPort (s : State) (q : Port) (v : PortState) : (s.setPort q v).supplyOn = s.supplyOn := rfl
@[simp] theorem State.started_setPort (s : State) (q : Port) (v : PortState) : (s.setPort q v).started = s.started := rfl
@[simp] theorem State.resetHeld_setPort (s : State) (q : Port) (v : PortState) : (s.setPort q v).resetHeld = s.resetHeld := rfl
@[simp] theorem State.pins_setPort (s : State) (q : Port) (v : PortState) : (s.setPort q v).pins = s.pins := rfl
@[simp] theorem State.strap_setPort (s : State) (q : Port) (v : PortState) : (s.setPort q v).strap = s.strap := rfl
@[simp] theorem State.inhibit_setPort (s : State) (q : Port) (v : PortState) : (s.setPort q v).inhibit = s.inhibit := rfl
@[simp] theorem State.pending_setPort (s : State) (q : Port) (v : PortState) : (s.setPort q v).pending = s.pending := rfl
@[simp] theorem State.present_setPort (s : State) (q : Port) (v : PortState) : (s.setPort q v).present = s.present := rfl
@[simp] theorem State.enabled_setPort (s : State) (q : Port) (v : PortState) : (s.setPort q v).enabled = s.enabled := rfl
@[simp] theorem State.running_setPort (s : State) (q : Port) (v : PortState) : (s.setPort q v).running = s.running := rfl
@[simp] theorem State.figures_setPort (s : State) (q : Port) (v : PortState) : (s.setPort q v).figures = s.figures := rfl
@[simp] theorem State.partsLeft_setPort (s : State) (q : Port) (v : PortState) : (s.setPort q v).partsLeft = s.partsLeft := rfl
@[simp] theorem State.mountedTool_setPort (s : State) (q : Port) (v : PortState) : (s.setPort q v).mountedTool = s.mountedTool := rfl

/-! ## The working copy of an event -/

@[simp] theorem Ev.st_start (s : State) : (Ev.start s).st = s := rfl
@[simp] theorem Ev.touched_start (s : State) : (Ev.start s).touched = [] := rfl
@[simp] theorem Ev.st_upd (f : State → State) (e : Ev) : (e.upd f).st = f e.st := rfl
@[simp] theorem Ev.touched_upd (f : State → State) (e : Ev) : (e.upd f).touched = e.touched := rfl
@[simp] theorem Ev.st_updPos (x : PosIx) (f : Position → Position) (e : Ev) :
    (e.updPos x f).st = e.st.setPos x (f (e.st.pos x)) := rfl
@[simp] theorem Ev.st_updTool (i : EntryIx) (f : Tool → Tool) (e : Ev) :
    (e.updTool i f).st = e.st.setTool i ((e.st.tool i).map f) := rfl
@[simp] theorem Ev.touched_updTool (i : EntryIx) (f : Tool → Tool) (e : Ev) : (e.updTool i f).touched = e.touched := rfl
@[simp] theorem Ev.st_setPocket (k : PocketIx) (v : Pocket) (e : Ev) : (e.setPocket k v).st = e.st.setPocket k v := rfl
@[simp] theorem Ev.touched_setPocket (k : PocketIx) (v : Pocket) (e : Ev) :
    (e.setPocket k v).touched = e.touched := rfl
@[simp] theorem Ev.st_notify (p : Port) (n : Notice) (e : Ev) : (e.notify p n).st = e.st.notify p n := rfl
@[simp] theorem Ev.touched_notify (p : Port) (n : Notice) (e : Ev) : (e.notify p n).touched = e.touched := rfl
@[simp] theorem Ev.st_notifySlot (x : PosIx) (n : Slot → Notice) (e : Ev) :
    (e.notifySlot x n).st = e.st.notifySlot x n := rfl
@[simp] theorem Ev.touched_notifySlot (x : PosIx) (n : Slot → Notice) (e : Ev) :
    (e.notifySlot x n).touched = e.touched := rfl
@[simp] theorem Ev.st_leaveWaiting (x : PosIx) (e : Ev) :
    (e.leaveWaiting x).st = { e.st with ret.waiting := e.st.ret.waiting.filter (· ≠ x) } := rfl

/-! ## Notices -/

/-- A notice changes the notice set of its port, and nothing else. -/
theorem State.notify_eq (s : State) (p : Port) (n : Notice) :
    s.notify p n = if s.enabled p then s.setPort p { s.port p with notices := (s.port p).notices ||| n.mask } else s := rfl

@[simp] theorem State.pos_notify (s : State) (p : Port) (n : Notice) : (s.notify p n).pos = s.pos := by
  unfold State.notify; split <;> rfl
@[simp] theorem State.pos_notifySlot (s : State) (x : PosIx) (n : Slot → Notice) : (s.notifySlot x n).pos = s.pos :=
  State.pos_notify _ _ _

@[simp] theorem State.tool_notify (s : State) (p : Port) (n : Notice) : (s.notify p n).tool = s.tool := by
  unfold State.notify; split <;> rfl
@[simp] theorem State.tool_notifySlot (s : State) (x : PosIx) (n : Slot → Notice) : (s.notifySlot x n).tool = s.tool :=
  State.tool_notify _ _ _

@[simp] theorem State.typ_notify (s : State) (p : Port) (n : Notice) : (s.notify p n).typ = s.typ := by
  unfold State.notify; split <;> rfl
@[simp] theorem State.typ_notifySlot (s : State) (x : PosIx) (n : Slot → Notice) : (s.notifySlot x n).typ = s.typ :=
  State.typ_notify _ _ _

@[simp] theorem State.pocket_notify (s : State) (p : Port) (n : Notice) : (s.notify p n).pocket = s.pocket := by
  unfold State.notify; split <;> rfl
@[simp] theorem State.pocket_notifySlot (s : State) (x : PosIx) (n : Slot → Notice) : (s.notifySlot x n).pocket = s.pocket :=
  State.pocket_notify _ _ _

@[simp] theorem State.chan_notify (s : State) (p : Port) (n : Notice) : (s.notify p n).chan = s.chan := by
  unfold State.notify; split <;> rfl
@[simp] theorem State.chan_notifySlot (s : State) (x : PosIx) (n : Slot → Notice) : (s.notifySlot x n).chan = s.chan :=
  State.chan_notify _ _ _

@[simp] theorem State.route_notify (s : State) (p : Port) (n : Notice) : (s.notify p n).route = s.route := by
  unfold State.notify; split <;> rfl
@[simp] theorem State.route_notifySlot (s : State) (x : PosIx) (n : Slot → Notice) : (s.notifySlot x n).route = s.route :=
  State.route_notify _ _ _

@[simp] theorem State.ret_notify (s : State) (p : Port) (n : Notice) : (s.notify p n).ret = s.ret := by
  unfold State.notify; split <;> rfl
@[simp] theorem State.ret_notifySlot (s : State) (x : PosIx) (n : Slot → Notice) : (s.notifySlot x n).ret = s.ret :=
  State.ret_notify _ _ _

@[simp] theorem State.strap_notify (s : State) (p : Port) (n : Notice) : (s.notify p n).strap = s.strap := by
  unfold State.notify; split <;> rfl
@[simp] theorem State.strap_notifySlot (s : State) (x : PosIx) (n : Slot → Notice) : (s.notifySlot x n).strap = s.strap :=
  State.strap_notify _ _ _

@[simp] theorem State.resetHeld_notify (s : State) (p : Port) (n : Notice) : (s.notify p n).resetHeld = s.resetHeld := by
  unfold State.notify; split <;> rfl
@[simp] theorem State.resetHeld_notifySlot (s : State) (x : PosIx) (n : Slot → Notice) : (s.notifySlot x n).resetHeld = s.resetHeld :=
  State.resetHeld_notify _ _ _

@[simp] theorem State.checkByte_notify (s : State) (p : Port) (n : Notice) : (s.notify p n).checkByte = s.checkByte := by
  unfold State.notify; split <;> rfl
@[simp] theorem State.checkByte_notifySlot (s : State) (x : PosIx) (n : Slot → Notice) : (s.notifySlot x n).checkByte = s.checkByte :=
  State.checkByte_notify _ _ _

@[simp] theorem State.inhibit_notify (s : State) (p : Port) (n : Notice) : (s.notify p n).inhibit = s.inhibit := by
  unfold State.notify; split <;> rfl
@[simp] theorem State.inhibit_notifySlot (s : State) (x : PosIx) (n : Slot → Notice) : (s.notifySlot x n).inhibit = s.inhibit :=
  State.inhibit_notify _ _ _

@[simp] theorem State.pending_notify (s : State) (p : Port) (n : Notice) : (s.notify p n).pending = s.pending := by
  unfold State.notify; split <;> rfl
@[simp] theorem State.pending_notifySlot (s : State) (x : PosIx) (n : Slot → Notice) : (s.notifySlot x n).pending = s.pending :=
  State.pending_notify _ _ _

@[simp] theorem State.present_notify (s : State) (p : Port) (n : Notice) : (s.notify p n).present = s.present := by
  unfold State.notify; split <;> rfl
@[simp] theorem State.present_notifySlot (s : State) (x : PosIx) (n : Slot → Notice) : (s.notifySlot x n).present = s.present :=
  State.present_notify _ _ _

@[simp] theorem State.enabled_notify (s : State) (p : Port) (n : Notice) : (s.notify p n).enabled = s.enabled := by
  unfold State.notify; split <;> rfl
@[simp] theorem State.enabled_notifySlot (s : State) (x : PosIx) (n : Slot → Notice) : (s.notifySlot x n).enabled = s.enabled :=
  State.enabled_notify _ _ _

@[simp] theorem State.running_notify (s : State) (p : Port) (n : Notice) : (s.notify p n).running = s.running := by
  unfold State.notify; split <;> rfl
@[simp] theorem State.running_notifySlot (s : State) (x : PosIx) (n : Slot → Notice) : (s.notifySlot x n).running = s.running :=
  State.running_notify _ _ _

@[simp] theorem State.figures_notify (s : State) (p : Port) (n : Notice) : (s.notify p n).figures = s.figures := by
  unfold State.notify; split <;> rfl
@[simp] theorem State.figures_notifySlot (s : State) (x : PosIx) (n : Slot → Notice) : (s.notifySlot x n).figures = s.figures :=
  State.figures_notify _ _ _

@[simp] theorem State.partsLeft_notify (s : State) (p : Port) (n : Notice) : (s.notify p n).partsLeft = s.partsLeft := by
  unfold State.notify; split <;> rfl
@[simp] theorem State.partsLeft_notifySlot (s : State) (x : PosIx) (n : Slot → Notice) : (s.notifySlot x n).partsLeft = s.partsLeft :=
  State.partsLeft_notify _ _ _

@[simp] theorem State.mountedTool_notify (s : State) (p : Port) (n : Notice) : (s.notify p n).mountedTool = s.mountedTool := by
  unfold State.notify; split <;> rfl
@[simp] theorem State.mountedTool_notifySlot (s : State) (x : PosIx) (n : Slot → Notice) : (s.notifySlot x n).mountedTool = s.mountedTool :=
  State.mountedTool_notify _ _ _

@[simp] theorem State.marker_notify (s : State) (p : Port) (n : Notice) : (s.notify p n).marker = s.marker := by
  unfold State.notify; split <;> rfl
@[simp] theorem State.marker_notifySlot (s : State) (x : PosIx) (n : Slot → Notice) : (s.notifySlot x n).marker = s.marker :=
  State.marker_notify _ _ _

@[simp] theorem State.vbatLatch_notify (s : State) (p : Port) (n : Notice) : (s.notify p n).vbatLatch = s.vbatLatch := by
  unfold State.notify; split <;> rfl
@[simp] theorem State.vbatLatch_notifySlot (s : State) (x : PosIx) (n : Slot → Notice) : (s.notifySlot x n).vbatLatch = s.vbatLatch :=
  State.vbatLatch_notify _ _ _

@[simp] theorem State.lastStart_notify (s : State) (p : Port) (n : Notice) : (s.notify p n).lastStart = s.lastStart := by
  unfold State.notify; split <;> rfl
@[simp] theorem State.lastStart_notifySlot (s : State) (x : PosIx) (n : Slot → Notice) : (s.notifySlot x n).lastStart = s.lastStart :=
  State.lastStart_notify _ _ _

@[simp] theorem State.supplyOn_notify (s : State) (p : Port) (n : Notice) : (s.notify p n).supplyOn = s.supplyOn := by
  unfold State.notify; split <;> rfl
@[simp] theorem State.supplyOn_notifySlot (s : State) (x : PosIx) (n : Slot → Notice) : (s.notifySlot x n).supplyOn = s.supplyOn :=
  State.supplyOn_notify _ _ _

@[simp] theorem State.started_notify (s : State) (p : Port) (n : Notice) : (s.notify p n).started = s.started := by
  unfold State.notify; split <;> rfl
@[simp] theorem State.started_notifySlot (s : State) (x : PosIx) (n : Slot → Notice) : (s.notifySlot x n).started = s.started :=
  State.started_notify _ _ _

@[simp] theorem State.pins_notify (s : State) (p : Port) (n : Notice) : (s.notify p n).pins = s.pins := by
  unfold State.notify; split <;> rfl
@[simp] theorem State.pins_notifySlot (s : State) (x : PosIx) (n : Slot → Notice) : (s.notifySlot x n).pins = s.pins :=
  State.pins_notify _ _ _

end Sys2Proof.Machine
end

