-- ==== Sys2Proof/Laws/FollowUp.lean ====
section
/-! SUPPORT. The work that follows an event changes nothing but what `Follows` allows: one lemma for each shared
operation of that work. -/
namespace Sys2Proof.Machine

/-! ## The relation -/

theorem Follows.refl (s : State) : Follows s s where
  types := rfl
  routes := rfl
  timeout := rfl
  expired := rfl
  positions _ := rfl
  racks _ _ := rfl
  idle _ _ := rfl
  tools _ := rfl
  taken _ _ := rfl
  free _ h := .inl h
  needs _ h := ⟨h, rfl⟩
  orders _ h := .inl h
  kept q h := .inl ⟨q, h, rfl⟩
  vol := rfl
  mailbox _ := rfl
  reception _ := rfl
  sent _ := rfl
  flags q := by simp
  others _ := rfl
  disabled _ _ := rfl
  marker := rfl
  vbatLatch := rfl
  lastStart := rfl
  supplyOn := rfl
  started := rfl
  resetHeld := rfl
  pins := rfl
  strap := rfl
  pending := rfl

theorem Follows.present {a b : State} (h : Follows a b) : b.present = a.present := by
  funext x; simp [State.present, h.strap]

theorem Follows.enabled {a b : State} (h : Follows a b) : b.enabled = a.enabled := by
  funext q; cases q <;> simp [State.enabled, h.strap]

theorem Follows.suspended {a b : State} (h : Follows a b) (x : PosIx) : (b.pos x).suspended = (a.pos x).suspended :=
  show (b.pos x).settled.suspended = (a.pos x).settled.suspended by rw [h.positions x]

theorem Follows.active {a b : State} (h : Follows a b) {x : PosIx} (hx : Active a x) : Active b x := by
  rw [Active, h.present, h.suspended]; exact hx

theorem Follows.service {a b : State} (h : Follows a b) (x : PosIx) : (b.pos x).service = (a.pos x).service :=
  show (b.pos x).settled.service = (a.pos x).settled.service by rw [h.positions x]

theorem Follows.active_iff {a b : State} (h : Follows a b) (x : PosIx) : Active b x ↔ Active a x := by
  rw [Active, Active, h.present, h.suspended]

theorem Order.task_pos {o q : Order} (h : q.task = o.task) : q.pos = o.pos :=
  show q.task.pos = o.task.pos by rw [h]

theorem Follows.trans {a b c : State} (h : Follows a b) (g : Follows b c) : Follows a c where
  types := g.types.trans h.types
  routes := g.routes.trans h.routes
  timeout := g.timeout.trans h.timeout
  expired := g.expired.trans h.expired
  positions x := (g.positions x).trans (h.positions x)
  racks x hx := (g.racks x (by rw [h.racks x hx]; exact hx)).trans (h.racks x hx)
  idle x hx := by
    refine (g.idle x ?_).trans (h.idle x hx)
    rw [h.present, h.idle x hx]; exact hx
  tools i := (g.tools i).trans (h.tools i)
  taken k hk := (g.taken k (by rw [h.taken k hk]; exact hk)).trans (h.taken k hk)
  free k hk := by
    rcases h.free k hk with e | ⟨n, e⟩
    · exact g.free k e
    · exact .inr ⟨n, by rw [g.taken k (by simp [e]), e]⟩
  needs x hx := ⟨(g.needs x (h.needs x hx).1).1, ((g.needs x (h.needs x hx).1).2).trans (h.needs x hx).2⟩
  orders o ho := by
    rcases g.orders o ho with ho | ⟨q, hq, ht, hb, hc, hu⟩ | ⟨hb, hx⟩
    · exact h.orders o ho
    · rcases h.orders q hq with hq | ⟨r, hr, ht', hb', _, hu'⟩ | ⟨_, hx⟩
      · exact .inr (.inl ⟨q, hq, ht, hb, hc, hu⟩)
      · exact .inr (.inl ⟨r, hr, ht'.trans ht, hb', hc, fun e => hu (hu' e)⟩)
      · exact .inr (.inr ⟨hc, by rw [← Order.task_pos ht]; exact hx⟩)
    · exact .inr (.inr ⟨hb, (h.active_iff _).mp hx⟩)
  kept q hq := by
    rcases h.kept q hq with ⟨o, ho, e⟩ | hx
    · rcases g.kept o ho with ⟨o', ho', e'⟩ | ⟨x, hx, hs⟩
      · exact .inl ⟨o', ho', e'.trans e⟩
      · exact .inr ⟨x, (h.active_iff x).mp hx, by rw [← h.service x]; exact hs⟩
    · exact .inr hx
  vol := by rw [g.vol, h.vol]
  mailbox q := (g.mailbox q).trans (h.mailbox q)
  reception q := (g.reception q).trans (h.reception q)
  sent q := (g.sent q).trans (h.sent q)
  flags q := by rw [← g.flags q, BitVec.or_assoc, h.flags q]
  others q := (g.others q).trans (h.others q)
  disabled q hq := (g.disabled q (by rw [h.enabled]; exact hq)).trans (h.disabled q hq)
  marker := g.marker.trans h.marker
  vbatLatch := g.vbatLatch.trans h.vbatLatch
  lastStart := g.lastStart.trans h.lastStart
  supplyOn := g.supplyOn.trans h.supplyOn
  started := g.started.trans h.started
  resetHeld := g.resetHeld.trans h.resetHeld
  pins := g.pins.trans h.pins
  strap := g.strap.trans h.strap
  pending := g.pending.trans h.pending

/-! ## Single changes -/

/-- A change of a present position's rack (if claimable), need, sister, urgent flag and return-waiting flag. -/
theorem Follows.setPos (s : State) {x : PosIx} {p : Position} (hx : Active s x)
    (hp : p.settled = (s.pos x).settled) (hr : (s.pos x).rack.claimable = false → p.rack = (s.pos x).rack)
    (hn : (s.pos x).need ≠ .noNeed → p.need ≠ .noNeed ∧ p.urgent = (s.pos x).urgent) : Follows s (s.setPos x p) :=
  { Follows.refl s with
    positions := fun y => by
      rw [State.pos_setPos]; split
      · subst y; exact hp
      · rfl
    racks := fun y hy => by
      rw [State.pos_setPos]; split
      · subst y; exact hr hy
      · rfl
    idle := fun y hy => by
      rw [State.pos_setPos]; split
      · subst y; simp [hx.1, hx.2] at hy
      · rfl
    needs := fun y hy => by
      rw [State.pos_setPos]; split
      · subst y; exact hn hy
      · exact ⟨hy, rfl⟩
    tools := fun _ => rfl
    taken := fun _ _ => rfl
    free := fun _ h => .inl h
    flags := (Follows.refl s).flags }

/-- A tool in the store becomes RESERVED, or its promise changes. -/
theorem Follows.setTool (s : State) {i : EntryIx} {t : Option Tool}
    (ht : t.map Tool.settled = (s.tool i).map Tool.settled) : Follows s (s.setTool i t) :=
  { Follows.refl s with
    positions := fun _ => rfl
    tools := fun j => by
      rw [State.tool_setTool]; split
      · subst j; exact ht
      · rfl
    racks := fun _ _ => rfl
    idle := fun _ _ => rfl
    needs := fun _ h => ⟨h, rfl⟩
    orders := fun _ h => .inl h
    kept := fun q h => .inl ⟨q, h, rfl⟩
    taken := fun _ _ => rfl
    free := fun _ h => .inl h
    flags := (Follows.refl s).flags }

/-- A FREE pocket is booked. -/
theorem Follows.bookPocket (s : State) {k : PocketIx} (n : Nat) (hk : s.pocket k = .free) :
    Follows s (s.setPocket k (.booked n)) :=
  { Follows.refl s with
    positions := fun _ => rfl
    racks := fun _ _ => rfl
    idle := fun _ _ => rfl
    needs := fun _ h => ⟨h, rfl⟩
    orders := fun _ h => .inl h
    kept := fun q h => .inl ⟨q, h, rfl⟩
    tools := fun _ => rfl
    taken := fun j hj => by
      rw [State.pocket_setPocket]; split
      · subst j; exact absurd hk hj
      · rfl
    free := fun j hj => by
      rw [State.pocket_setPocket]; split
      · exact .inr ⟨n, rfl⟩
      · exact .inl hj
    flags := (Follows.refl s).flags }

/-- The waiting list, the queue, the backlog and the order counter change as that work may change them. -/
theorem Follows.lists (s : State) (w : List PosIx) {q b : List Order} (c : Nat)
    (h : ∀ o ∈ q ++ b, o ∈ s.standing ∨
      (∃ r ∈ s.standing, r.task = o.task ∧ r.busy = false ∧ o.busy = false ∧ (r.urgent = true → o.urgent = true)) ∨
      o.busy = false ∧ Active s o.pos)
    (hk : ∀ r ∈ s.standing, (∃ o ∈ q ++ b, o.number = r.number) ∨
      ∃ x, Active s x ∧ (s.pos x).service = .released) :
    Follows s { s with ret.waiting := w, ret.queue := q, ret.backlog := b, ret.counter := c } :=
  { Follows.refl s with
    positions := fun _ => rfl
    racks := fun _ _ => rfl
    idle := fun _ _ => rfl
    needs := fun _ h => ⟨h, rfl⟩
    tools := fun _ => rfl
    taken := fun _ _ => rfl
    free := fun _ h => .inl h
    orders := h
    kept := hk
    flags := (Follows.refl s).flags }

/-- The waiting list changes. -/
theorem Follows.waiting (s : State) (w : List PosIx) : Follows s { s with ret.waiting := w } :=
  Follows.lists s w s.ret.counter (fun _ h => .inl h) fun q h => .inl ⟨q, h, rfl⟩

/-- Who stands in a collection after an order has entered it. -/
theorem mem_insertOrder {o p : Order} {q : List Order} : p ∈ insertOrder o q ↔ p = o ∨ p ∈ q := by
  unfold insertOrder
  split
  · have := List.takeWhile_append_dropWhile (p := Order.ahead) (l := q)
    constructor
    · intro h
      rw [List.mem_append, List.mem_cons] at h
      rcases h with h | h | h
      · exact .inr ((List.takeWhile_sublist _).subset h)
      · exact .inl h
      · exact .inr ((List.dropWhile_sublist _).subset h)
    · rintro (rfl | h)
      · simp
      · rw [← this, List.mem_append] at h
        simp only [List.mem_append, List.mem_cons]; tauto
  · simp [or_comm]

theorem mem_dropNumber {o : Order} {n : Nat} {q : List Order} : o ∈ dropNumber n q ↔ o ∈ q ∧ o.number ≠ n := by
  simp [dropNumber]

/-- A notice of that work is set. -/
theorem Follows.notify (s : State) {p : Port} {n : Notice} (hn : n.mask &&& ~~~(followNotices p) = 0) :
    Follows s (s.notify p n) := by
  rw [State.notify_eq]
  split
  · rename_i hp
    refine
      { Follows.refl s with
        positions := fun _ => rfl
        racks := fun _ _ => rfl
        idle := fun _ _ => rfl
        needs := fun _ h => ⟨h, rfl⟩
        orders := fun _ h => .inl h
        kept := fun q h => .inl ⟨q, h, rfl⟩
        tools := fun _ => rfl
        taken := fun _ _ => rfl
        free := fun _ h => .inl h
        vol := rfl
        mailbox := fun q => ?_
        reception := fun q => ?_
        sent := fun q => ?_
        flags := fun q => ?_
        others := fun q => ?_
        disabled := fun q hq => ?_ } <;> rw [State.port_setPort] <;> split <;> try subst q
    all_goals try rfl
    · rw [BitVec.or_assoc, BitVec.or_comm n.mask, ← BitVec.or_assoc]; simp
    · simp
    · show ((s.port p).notices ||| n.mask) &&& ~~~(followNotices p) = _
      rw [BitVec.and_or_distrib_right, hn]; simp
    · simp [hp] at hq
  · exact Follows.refl s

/-! ## The choice of a sister (R99, R100) -/

/-- An eligible entry is live and STORED. -/
theorem eligible_stored {s : State} {t : TypeIx} {i : EntryIx} (h : s.eligible t i = true) :
    ∃ u, s.tool i = some u ∧ u.state = .stored := by
  unfold State.eligible at h
  split at h
  · rename_i u hu; simp at h; exact ⟨u, hu, h.1.1.2⟩
  · cases h

/-- A fold of the policy's comparison answers one of the entries it compares. -/
theorem better_foldl_mem (s : State) (t : TypeIx) (l : List EntryIx) (i : EntryIx) :
    l.foldl (s.better t) i = i ∨ l.foldl (s.better t) i ∈ l := by
  induction l generalizing i with
  | nil => exact .inl rfl
  | cons j l ih =>
    rw [List.foldl_cons]
    have hb : s.better t i j = i ∨ s.better t i j = j := by unfold State.better; split <;> simp
    rcases ih (s.better t i j) with h | h
    · rcases hb with hb | hb
      · exact .inl (h.trans hb)
      · exact .inr (by rw [h, hb]; exact List.mem_cons_self)
    · exact .inr (List.mem_cons_of_mem _ h)

/-- The chosen entry is eligible. -/
theorem choose_eligible {s : State} {t : TypeIx} {i : EntryIx} (h : s.choose t = some i) : s.eligible t i = true := by
  unfold State.choose at h
  split at h
  · cases h
  · rename_i j l hl
    have hm : i ∈ allEntries.filter (s.eligible t) := by
      rw [hl]
      rcases better_foldl_mem s t l j with e | e
      · simp at h; rw [← h, e]; exact List.mem_cons_self
      · simp at h; rw [← h]; exact List.mem_cons_of_mem _ e
    exact (List.mem_filter.mp hm).2

/-! ## Reservation, waiting, arbitration -/

theorem Ev.follows_leaveWaiting (x : PosIx) (e : Ev) : Follows e.st (e.leaveWaiting x).st := Follows.waiting _ _

/-- A change of a present position's rack (if claimable), need and flags. -/
theorem Ev.follows_updPos {x : PosIx} {f : Position → Position} {e : Ev} (hx : Active e.st x)
    (hf : (f (e.st.pos x)).settled = (e.st.pos x).settled)
    (hr : (e.st.pos x).rack.claimable = false → (f (e.st.pos x)).rack = (e.st.pos x).rack)
    (hn : (e.st.pos x).need ≠ .noNeed →
      (f (e.st.pos x)).need ≠ .noNeed ∧ (f (e.st.pos x)).urgent = (e.st.pos x).urgent) :
    Follows e.st (e.updPos x f).st := Follows.setPos e.st hx hf hr hn

/-- A change of a present position's need. -/
theorem Ev.follows_setNeed {x : PosIx} {f : Position → Position} {e : Ev} (hx : Active e.st x)
    (hf : (f (e.st.pos x)).settled = (e.st.pos x).settled) (hr : (f (e.st.pos x)).rack = (e.st.pos x).rack)
    (hn : (f (e.st.pos x)).need ≠ .noNeed ∧ (f (e.st.pos x)).urgent = (e.st.pos x).urgent) :
    Follows e.st (e.setNeed x f).st :=
  (Ev.follows_updPos hx hf (fun _ => hr) fun _ => hn).trans (Ev.follows_leaveWaiting x (e.updPos x f))

theorem Ev.follows_reserve {x : PosIx} {i : EntryIx} {e : Ev} (hx : Active e.st x)
    (hi : ∃ u, e.st.tool i = some u ∧ u.state = .stored) : Follows e.st (e.reserve x i).st := by
  obtain ⟨u, hu, hs⟩ := hi
  refine Follows.trans (Follows.setTool e.st (i := i) ?_)
    (Ev.follows_setNeed (e := e.updTool i fun t => { t with state := .reserved, promised := some x }) ?_ rfl rfl ⟨by simp [Position.reserve], rfl⟩)
  · simp [hu, Tool.settled, hs]
  · exact hx

theorem State.follows_joinWaiting (s : State) (x : PosIx) : Follows s (s.joinWaiting x) := by
  unfold State.joinWaiting
  dsimp only
  split <;> exact Follows.waiting _ _

theorem Ev.follows_wait {x : PosIx} {e : Ev} (hx : Active e.st x) : Follows e.st (e.wait x).st :=
  ((Ev.follows_updPos (f := Position.wait) hx rfl (fun _ => rfl) fun _ => ⟨by simp [Position.wait], rfl⟩).trans (State.follows_joinWaiting _ x)).trans
    (Follows.notify (p := .ps) (n := .waiting) _ (by decide))

theorem candidate_active {s : State} {t : TypeIx} {x : PosIx} (h : s.candidate t = some x) : Active s x := by
  have := List.find?_some h
  simp at this; exact this.1

theorem Ev.follows_arbitrateLoop (t : TypeIx) (n : Nat) (e : Ev) : Follows e.st (e.arbitrateLoop t n).st := by
  induction n generalizing e with
  | zero => exact Follows.refl _
  | succ n ih =>
    rw [Ev.arbitrateLoop]
    split
    · rename_i x i hx hi
      exact (Ev.follows_reserve (candidate_active hx) (eligible_stored (choose_eligible hi))).trans (ih _)
    · exact Follows.refl _

theorem Ev.follows_arbitrate (t : TypeIx) (e : Ev) : Follows e.st (e.arbitrate t).st :=
  Ev.follows_arbitrateLoop t _ e

theorem Ev.follows_offerTool (i : EntryIx) (e : Ev) : Follows e.st (e.offerTool i).st := by
  unfold Ev.offerTool
  split
  · split
    · exact Ev.follows_arbitrate _ _
    · exact Follows.refl _
  · exact Follows.refl _

theorem Ev.follows_arbitrateIfWaited (t : TypeIx) (e : Ev) : Follows e.st (e.arbitrateIfWaited t).st := by
  unfold Ev.arbitrateIfWaited
  split
  · exact Ev.follows_arbitrate _ _
  · exact Follows.refl _

/-! ## The need test (R93, R101) -/

theorem needFor_some {s : State} {x : PosIx} {t : TypeIx} (h : s.needFor x = some t) :
    s.present x = true ∧ (s.pos x).need = .noNeed ∧ (s.pos x).suspended = false ∧ (s.pos x).service.mayNeed = true ∧
      (s.pos x).required = some t ∧ ((s.pos x).service = .vacant ∨ s.mountedCalls x t = true) := by
  unfold State.needFor at h
  dsimp only at h
  split at h
  · cases h
  · rename_i t' ht
    split at h
    · rename_i hc; cases h; simp at hc; simp [hc, ht]
    · cases h

theorem Ev.follows_raiseNeed {x : PosIx} (t : TypeIx) {e : Ev} (hx : Active e.st x) (hn : (e.st.pos x).need = .noNeed) :
    Follows e.st (e.raiseNeed x t).st := by
  unfold Ev.raiseNeed
  dsimp only
  have h1 : Follows e.st (e.updPos x (·.setUrgent (e.st.mountedBroken x))).st :=
    Follows.setPos e.st hx rfl (fun _ => rfl) fun h => absurd hn h
  split
  · rename_i i hi
    exact h1.trans (Ev.follows_reserve (h1.active hx) (eligible_stored (choose_eligible hi)))
  · exact h1.trans (Ev.follows_wait (h1.active hx))

theorem Ev.follows_needTest (x : PosIx) (e : Ev) : Follows e.st (e.needTest x).st := by
  unfold Ev.needTest
  split
  · rename_i t ht
    have h := needFor_some ht
    exact Ev.follows_raiseNeed t ⟨h.1, h.2.2.1⟩ h.2.1
  · exact Follows.refl _

/-! ## Posting (R116 to R119) -/

theorem State.follows_enqueue (s : State) (o : Order) (hx : Active s o.pos) : Follows s (s.enqueue o) := by
  unfold State.enqueue
  split <;> refine Follows.lists s _ _ (fun p hp => ?_) fun q hq => .inl ⟨q, ?_, rfl⟩
  · rw [List.mem_append, mem_insertOrder] at hp
    rw [State.standing, List.mem_append]
    rcases hp with (rfl | h) | h
    · exact .inr (.inr ⟨by simp [Order.busy], hx⟩)
    · exact .inl (.inl h)
    · exact .inl (.inr h)
  · rw [State.standing, List.mem_append] at hq
    rw [List.mem_append, mem_insertOrder]; tauto
  · rw [List.mem_append, mem_insertOrder] at hp
    rw [State.standing, List.mem_append]
    rcases hp with h | rfl | h
    · exact .inl (.inl h)
    · exact .inr (.inr ⟨by simp [Order.busy], hx⟩)
    · exact .inl (.inr h)
  · rw [State.standing, List.mem_append] at hq
    rw [List.mem_append, mem_insertOrder]; tauto

/-- A RETURN into a FREE pocket, or to the chute, is posted. -/
theorem Ev.follows_postReturn {x : PosIx} (i : EntryIx) {k : Option PocketIx} {e : Ev} (hx : Active e.st x)
    (hk : ∀ k', k = some k' → e.st.pocket k' = .free) : Follows e.st (e.postReturn x i k).st := by
  unfold Ev.postReturn
  split
  · dsimp only
    generalize ho : Order.mk e.st.nextNumber .return_ false x none (some i) k .ready = ord
    have h1 := State.follows_enqueue e.st ord (by subst ho; exact hx)
    have h2 : Follows e.st ((e.upd fun s => s.enqueue ord).updPos x fun p => { p with returnWaiting := false }).st :=
      h1.trans (Follows.setPos _ (h1.active hx) rfl (fun _ => rfl) fun h => ⟨h, rfl⟩)
    cases k with
    | none => exact h2
    | some k =>
      refine h2.trans (Follows.bookPocket _ _ ?_)
      have hp : (e.st.enqueue ord).pocket k = e.st.pocket k := by unfold State.enqueue; split <;> rfl
      exact hp.trans (hk k rfl)
  · exact Follows.refl _

theorem Ev.follows_awaitPocket {x : PosIx} {e : Ev} (hx : Active e.st x) : Follows e.st (e.awaitPocket x).st := by
  unfold Ev.awaitPocket
  split
  · exact Follows.refl _
  · exact (Ev.follows_updPos (f := fun p => { p with returnWaiting := true }) hx rfl (fun _ => rfl) fun h => ⟨h, rfl⟩).trans
      (Follows.notify (p := .ps) (n := .storeFull) _ (by decide))

theorem freePocket_free {s : State} {k : PocketIx} (h : s.freePocket = some k) : s.pocket k = .free := by
  have := List.find?_some h; simpa using this

theorem Ev.follows_callReturn {x : PosIx} (i : EntryIx) {e : Ev} (hx : Active e.st x) :
    Follows e.st (e.callReturn x i).st := by
  unfold Ev.callReturn
  split
  · exact Ev.follows_postReturn i hx (by simp)
  · split
    · rename_i k hk
      exact Ev.follows_postReturn i hx (by rintro _ ⟨rfl⟩; exact freePocket_free hk)
    · exact Ev.follows_awaitPocket hx

theorem Ev.follows_postOrder {x : PosIx} (kind : OrderKind) (u : Bool) (i o : Option EntryIx) (k : Option PocketIx) {e : Ev}
    (hx : Active e.st x) (hr : kind.booksRackAtPosting = true → (e.st.pos x).rack.claimable = true) :
    Follows e.st (e.postOrder x kind u i o k).st := by
  unfold Ev.postOrder
  split
  · dsimp only
    generalize ho : Order.mk e.st.nextNumber kind u x i o k .ready = ord
    have h1 := State.follows_enqueue e.st ord (by subst ho; exact hx)
    have hpos : (e.st.enqueue ord).pos = e.st.pos := by unfold State.enqueue; split <;> rfl
    have h2 : Follows e.st (if kind.booksRackAtPosting = true then
        (e.upd fun s => s.enqueue ord).updPos x (·.setRack (.booked e.st.nextNumber)) else e.upd fun s => s.enqueue ord).st := by
      split
      · rename_i hb
        refine h1.trans (Follows.setPos _ (h1.active hx) rfl (fun hc => ?_) fun h => ⟨h, rfl⟩)
        simp [hpos, hr hb] at hc
      · exact h1
    split
    · exact h2.trans (Ev.follows_setNeed (h2.active hx) rfl rfl ⟨by simp [Position.progress], rfl⟩)
    · exact h2
  · exact Follows.refl _

theorem Ev.follows_replaceStage {x : PosIx} (i : EntryIx) (o : Order) (j : Option EntryIx) {e : Ev}
    (hx : Active e.st x) (hr : (e.st.pos x).rack.claimable = true) (hv : (e.st.pos x).service = .released) :
    Follows e.st (e.replaceStage x i o j).st := by
  unfold Ev.replaceStage
  dsimp only
  split
  · refine Follows.trans (Follows.lists e.st e.st.ret.waiting (q := insertOrder _ (dropNumber o.number e.st.ret.queue))
      (b := e.st.ret.backlog) _ (fun p hp => ?_) fun _ _ => .inr ⟨x, hx, hv⟩)
      (Follows.setPos _ hx rfl (fun hc => ?_) fun h => ⟨h, rfl⟩)
    · rw [List.mem_append, mem_insertOrder, mem_dropNumber] at hp
      rw [State.standing, List.mem_append]
      rcases hp with (rfl | h) | h
      · exact .inr (.inr ⟨by simp [Order.busy], hx⟩)
      · exact .inl (.inl h.1)
      · exact .inl (.inr h)
    · have hc : (e.st.pos x).rack.claimable = false := hc
      simp [hr] at hc
  · refine Follows.trans (Follows.lists e.st e.st.ret.waiting (q := e.st.ret.queue)
      (b := insertOrder _ (dropNumber o.number e.st.ret.backlog)) _ (fun p hp => ?_) fun _ _ => .inr ⟨x, hx, hv⟩)
      (Follows.setPos _ hx rfl (fun hc => ?_) fun h => ⟨h, rfl⟩)
    · rw [List.mem_append, mem_insertOrder, mem_dropNumber] at hp
      rw [State.standing, List.mem_append]
      rcases hp with h | rfl | h
      · exact .inl (.inl h)
      · exact .inr (.inr ⟨by simp [Order.busy], hx⟩)
      · exact .inl (.inr h.1)
    · have hc : (e.st.pos x).rack.claimable = false := hc
      simp [hr] at hc

theorem callsDirect_released {s : State} {x : PosIx} {r : EntryIx × Option Order} (h : s.callsDirect x = some r) :
    (s.pos x).service = .released := by
  unfold State.callsDirect at h
  dsimp only at h
  split at h
  · split at h
    · rename_i hc; simp at hc; exact hc.1.2
    · cases h
  · cases h

theorem callsDirect_claimable {s : State} {x : PosIx} {r : EntryIx × Option Order} (h : s.callsDirect x = some r) :
    (s.pos x).rack.claimable = true := by
  unfold State.callsDirect at h
  dsimp only at h
  split at h
  · split at h
    · split at h
      · rename_i hc; rw [hc.2]; rfl
      · split at h
        · unfold State.waitingStage at h
          split at h
          · rename_i n hn; rw [hn]; rfl
          · simp at h
        · cases h
    · cases h
  · cases h

theorem Ev.follows_handOff (e : Ev) (x : PosIx) : Follows e.st (e.handOff x).st := by
  unfold Ev.handOff
  dsimp only
  have hpres : ∀ c, e.st.callFor x = some c → Active e.st x := by
    intro c h
    unfold State.callFor at h
    split at h
    · cases h
    · rename_i hc; simpa using hc
  cases hc : e.st.callFor x with
  | none => exact Follows.refl _
  | some c =>
    have hx := hpres c hc
    have hcases : (∃ i, c = .return_ i) ∨ (∃ i o, c = .direct i o ∧ e.st.callsDirect x = some (i, o)) ∨
        (∃ i, c = .stage i ∧ e.st.callsStage x = some i) ∨ (∃ i, c = .exchange i) ∨
        (∃ j, c = .remove j ∧ e.st.callsRemove x = some j) := by
      unfold State.callFor at hc
      split at hc
      · cases hc
      · split at hc
        · cases hc; exact .inl ⟨_, rfl⟩
        · split at hc
          · rename_i i o h; cases hc; exact .inr (.inl ⟨i, o, rfl, h⟩)
          · split at hc
            · rename_i i h; cases hc; exact .inr (.inr (.inl ⟨i, rfl, h⟩))
            · split at hc
              · cases hc; exact .inr (.inr (.inr (.inl ⟨_, rfl⟩)))
              · cases hr : e.st.callsRemove x with
                | none => simp [hr] at hc
                | some j => simp [hr] at hc; exact .inr (.inr (.inr (.inr ⟨j, hc.symm, rfl⟩)))
    rcases hcases with ⟨i, rfl⟩ | ⟨i, o, rfl, h⟩ | ⟨i, rfl, h⟩ | ⟨i, rfl⟩ | ⟨j, rfl, h⟩
    · exact Ev.follows_callReturn i hx
    · cases o with
      | none => exact Ev.follows_postOrder _ _ _ _ _ hx fun _ => callsDirect_claimable h
      | some o => exact Ev.follows_replaceStage _ _ _ hx (callsDirect_claimable h) (callsDirect_released h)
    · refine Ev.follows_postOrder _ _ _ _ _ hx fun _ => ?_
      unfold State.callsStage at h
      dsimp only at h
      split at h
      · rename_i hb; rw [hb.2]; rfl
      · cases h
    · exact Ev.follows_postOrder _ _ _ _ _ hx (by intro h; cases h)
    · refine Ev.follows_postOrder _ _ _ _ _ hx fun _ => ?_
      unfold State.callsRemove at h
      dsimp only at h
      split at h
      · rename_i hb; rw [hb.2.2]; rfl
      · cases h

/-- A fold of steps that each follow follows. -/
theorem Ev.follows_foldl {α : Type} (f : Ev → α → Ev) (hf : ∀ e a, Follows e.st (f e a).st) (l : List α) (e : Ev) :
    Follows e.st (l.foldl f e).st := by
  induction l generalizing e with
  | nil => exact Follows.refl _
  | cons a l ih => exact (hf e a).trans (ih _)

theorem Ev.follows_handOffs (e : Ev) : Follows e.st e.handOffs.st := Ev.follows_foldl _ Ev.follows_handOff _ _

theorem Ev.follows_offerPocket (e : Ev) (k : PocketIx) : Follows e.st (e.offerPocket k).st := by
  unfold Ev.offerPocket
  split
  · rename_i hk
    split
    · rename_i x hx
      have hp : Active e.st x := by
        have := List.find?_some hx; simp at this; exact this.1
      split
      · exact Ev.follows_postReturn _ hp (by rintro _ ⟨rfl⟩; exact hk)
      · exact Follows.refl _
    · exact Follows.refl _
  · exact Follows.refl _

theorem Ev.follows_offerPockets (before : State) (e : Ev) : Follows e.st (e.offerPockets before).st :=
  Ev.follows_foldl _ Ev.follows_offerPocket _ _

/-! ## The end of an event -/

theorem State.follows_raiseOrderReady (q : List Order) (s : State) : Follows s (s.raiseOrderReady q) := by
  unfold State.raiseOrderReady
  split
  · exact Follows.notify (p := .pc) (n := .orderReady) _ (by decide)
  · exact Follows.refl _

theorem State.follows_commit (s : State) : Follows s s.commit :=
  { Follows.refl s with
    positions := fun _ => rfl
    racks := fun _ _ => rfl
    idle := fun _ _ => rfl
    needs := fun _ h => ⟨h, rfl⟩
    orders := fun _ h => .inl h
    kept := fun q h => .inl ⟨q, h, rfl⟩
    tools := fun _ => rfl
    taken := fun _ _ => rfl
    free := fun _ h => .inl h
    flags := (Follows.refl s).flags }

/-- The port records after the lines have taken their levels. -/
@[simp] theorem State.port_drive (s : State) (q : Port) :
    s.drive.port q = { s.port q with attn := s.attnLevel q.ix } := by
  simp [State.drive, State.port]

theorem State.follows_drive (s : State) : Follows s s.drive :=
  { Follows.refl s with
    positions := fun _ => rfl
    racks := fun _ _ => rfl
    idle := fun _ _ => rfl
    needs := fun _ h => ⟨h, rfl⟩
    orders := fun _ h => .inl h
    kept := fun q h => .inl ⟨q, h, rfl⟩
    tools := fun _ => rfl
    taken := fun _ _ => rfl
    free := fun _ h => .inl h
    vol := rfl
    mailbox := fun q => by simp
    reception := fun q => by simp
    sent := fun q => by simp
    flags := fun q => by simp
    others := fun q => by simp
    disabled := fun q _ => by simp }

/-- The end of an event follows from what the event did. -/
theorem finish_follows (before : State) (e : Ev) : Follows e.st (finish before e) :=
  ((((Ev.follows_handOffs e).trans (Ev.follows_offerPockets before _)).trans
    (State.follows_raiseOrderReady _ _)).trans (State.follows_commit _)).trans (State.follows_drive _)

/-- An event ends with the check byte current (R40). -/
theorem finish_committed (before : State) (e : Ev) : (finish before e).checkByte = checkByteOf (finish before e).ret := rfl

end Sys2Proof.Machine
end

