-- ==== Sys2Proof/Laws/Congruence.lean ====
section
/-! SUPPORT. `Follows` is kept when both states take the same change: one lemma for each kind of change that a command
may make after some of the work that follows has been done. -/
namespace Sys2Proof.Machine

/-! ## What `Follows` leaves as it was -/

theorem Follows.typ {a b : State} (h : Follows a b) : b.typ = a.typ := by
  funext t; simp [State.typ, h.types]

theorem Follows.figures {a b : State} (h : Follows a b) : b.figures = a.figures := by
  funext t; simp [State.figures, h.typ]

theorem Follows.partsLeft {a b : State} (h : Follows a b) : b.partsLeft = a.partsLeft := by
  funext t; simp [State.partsLeft, h.figures]

theorem Follows.chan {a b : State} (h : Follows a b) : b.chan = a.chan := by
  funext x; simp only [State.chan]; rw [h.vol]

theorem Follows.route {a b : State} (h : Follows a b) : b.route = a.route := by
  funext x; simp only [State.route]; rw [h.routes]

theorem Follows.ms {a b : State} (h : Follows a b) : b.vol.ms = a.vol.ms := by rw [h.vol]

/-- A settled tool tells whether a tool is neither STORED nor RESERVED. -/
theorem Tool.settled_eq {t : Tool} (h : t.state ≠ .stored) (g : t.state ≠ .reserved) : t.settled = t := by
  simp [Tool.settled, h, g]

theorem Tool.settled_state {t : Tool} : t.settled.state = if t.state = .reserved then .stored else t.state := by
  unfold Tool.settled; split
  · rename_i h; rcases h with h | h <;> simp [h]
  · rename_i h; simp at h; simp [h]

/-- A tool that is neither STORED nor RESERVED is untouched by the work that follows. -/
theorem Follows.tool_eq {a b : State} (h : Follows a b) {i : EntryIx} {t : Tool} (ht : a.tool i = some t)
    (h1 : t.state ≠ .stored) (h2 : t.state ≠ .reserved) : b.tool i = some t := by
  have h := h.tools i
  rw [ht, Option.map_some, Tool.settled_eq h1 h2] at h
  cases hb : b.tool i with
  | none => simp [hb] at h
  | some u =>
    simp [hb] at h
    have hs := congrArg Tool.state h
    rw [Tool.settled_state] at hs
    split at hs
    · exact absurd hs.symm h1
    · rw [Tool.settled_eq (by rw [hs]; exact h1) (by rw [hs]; exact h2)] at h; rw [h]

theorem Follows.mounted {a b : State} (h : Follows a b) (x : PosIx) : (b.pos x).mounted = (a.pos x).mounted :=
  show (b.pos x).settled.mounted = (a.pos x).settled.mounted by rw [h.positions x]

theorem Follows.mountedTool {a b : State} (h : Follows a b) : b.mountedTool = a.mountedTool := by
  funext x
  have hi : ∀ i, (match b.tool i with
      | some t => if t.state = .mounted then some (i, t) else none
      | none => none) = (match a.tool i with
      | some t => if t.state = .mounted then some (i, t) else none
      | none => none : Option (EntryIx × Tool)) := by
    intro i
    have ht := h.tools i
    cases ha : a.tool i with
    | none => rw [ha] at ht; simp at ht; simp [ht]
    | some t =>
      cases hb : b.tool i with
      | none => simp [ha, hb] at ht
      | some u =>
        simp only
        by_cases hm : t.state = .mounted
        · have := h.tool_eq ha (by simp [hm]) (by simp [hm])
          rw [hb] at this; cases this; rfl
        · rw [if_neg hm, if_neg]
          intro hu
          simp [ha, hb] at ht
          have hs := congrArg Tool.state ht
          rw [Tool.settled_state, Tool.settled_state, hu] at hs
          simp only [reduceCtorEq, if_false] at hs
          split at hs
          · cases hs
          · exact hm hs.symm
  unfold State.mountedTool
  rw [h.mounted x]
  split
  · exact hi _
  · rfl

theorem Follows.mountedFigures {a b : State} (h : Follows a b) : b.mountedFigures = a.mountedFigures := by
  funext x; simp [State.mountedFigures, h.mountedTool, h.figures]

theorem Follows.hasFinding {a b : State} (h : Follows a b) (x : PosIx) :
    (b.pos x).hasFinding = (a.pos x).hasFinding := by
  simp [Position.hasFinding, h.service]

theorem Follows.sampleFor {a b : State} (h : Follows a b) : b.sampleFor = a.sampleFor := by
  funext w x g; simp [State.sampleFor, State.slotFor, h.route]

theorem Follows.watched {a b : State} (h : Follows a b) : b.watched = a.watched := by
  funext x
  simp only [State.watched, State.available, State.slotFor, h.route, h.present]
  rw [h.vol]

/-! ## The same change on both sides -/

/-- Both states take a position record, alike but for what the work that follows may change. -/
theorem Follows.setPos_congr {a b : State} (h : Follows a b) (x : PosIx) {p q : Position}
    (hs : q.settled = p.settled) (hr : p.rack.claimable = false → q.rack = p.rack)
    (hi : a.present x = false ∨ p.suspended = true → q = p) (hn : p.need ≠ .noNeed → q.need ≠ .noNeed ∧ q.urgent = p.urgent)
    (hv : Active a x → p.suspended = false ∧ ((a.pos x).service = .released → p.service = .released)) :
    Follows (a.setPos x p) (b.setPos x q) := by
  have act : ∀ y, Active a y → Active (a.setPos x p) y := by
    intro y hy
    refine ⟨hy.1, ?_⟩
    rw [State.pos_setPos]; split
    · rename_i e; exact (hv (e ▸ hy)).1
    · exact hy.2
  exact
    { h with
      positions := fun y => by
        simp only [State.pos_setPos]; split
        · exact hs
        · exact h.positions y
      racks := fun y hy => by
        simp only [State.pos_setPos] at hy ⊢; split at hy
        · rename_i e; simp [e, hr hy]
        · rename_i e; simp [e, h.racks y hy]
      idle := fun y hy => by
        simp only [State.pos_setPos, State.present_setPos] at hy ⊢; split at hy
        · rename_i e; subst e; simp [hi hy]
        · rename_i e; simp [e, h.idle y hy]
      needs := fun y hy => by
        simp only [State.pos_setPos] at hy ⊢; split at hy
        · rename_i e; simp [e, hn hy]
        · rename_i e; simp [e, h.needs y hy]
      orders := fun o ho => by
        rcases h.orders o ho with ho | ho | ⟨hb, hx⟩
        · exact .inl ho
        · exact .inr (.inl ho)
        · exact .inr (.inr ⟨hb, act _ hx⟩)
      kept := fun o ho => by
        rcases h.kept o ho with ho | ⟨y, hy, hs⟩
        · exact .inl ho
        · refine .inr ⟨y, act y hy, ?_⟩
          rw [State.pos_setPos]; split
          · rename_i e; subst e; exact (hv hy).2 hs
          · exact hs
      tools := h.tools
      taken := h.taken
      free := h.free
      flags := h.flags }

/-- Both states apply to a position a change that does not look at what the work that follows may change, nor change it. -/
theorem Follows.apply_congr {a b : State} (h : Follows a b) (x : PosIx) (f : Position → Position)
    (hs : ∀ p q : Position, q.settled = p.settled → (f q).settled = (f p).settled)
    (hr : ∀ p, (f p).rack = p.rack) (hn : ∀ p, (f p).need = p.need ∧ (f p).urgent = p.urgent) (hu : ∀ p, (f p).suspended = p.suspended)
    (hv : ∀ p, p.service = .released → (f p).service = .released) :
    Follows (a.setPos x (f (a.pos x))) (b.setPos x (f (b.pos x))) :=
  h.setPos_congr x (hs _ _ (h.positions x)) (by rw [hr, hr]; exact h.racks x)
    (by rw [hu]; intro e; rw [h.idle x e]) (by rw [(hn _).1, (hn _).1, (hn _).2, (hn _).2]; exact h.needs x)
    (fun e => ⟨by rw [hu]; exact e.2, hv _⟩)

/-- Both states take a tool entry, alike but for what the work that follows may change. -/
theorem Follows.setTool_congr {a b : State} (h : Follows a b) (i : EntryIx) {t u : Option Tool}
    (ht : u.map Tool.settled = t.map Tool.settled) : Follows (a.setTool i t) (b.setTool i u) :=
  { h with
    positions := h.positions
    racks := h.racks
    idle := h.idle
    needs := h.needs
    orders := h.orders
    kept := h.kept
    tools := fun j => by
      simp only [State.tool_setTool]; split
      · exact ht
      · exact h.tools j
    taken := h.taken
    free := h.free
    flags := h.flags }

/-- Both states give a pocket the same state. -/
theorem Follows.setPocket_congr {a b : State} (h : Follows a b) (k : PocketIx) (v : Pocket) :
    Follows (a.setPocket k v) (b.setPocket k v) :=
  { h with
    positions := h.positions
    racks := h.racks
    idle := h.idle
    needs := h.needs
    orders := h.orders
    kept := h.kept
    tools := h.tools
    taken := fun j hj => by
      simp only [State.pocket_setPocket] at hj ⊢; split at hj
      · rename_i e; simp [e]
      · rename_i e; simp [e, h.taken j hj]
    free := fun j hj => by
      simp only [State.pocket_setPocket] at hj ⊢; split at hj
      · rename_i e; simp [e, hj]
      · rename_i e; simp only [e, if_false]; exact h.free j hj
    flags := h.flags }

/-- Both states take the same type record. -/
theorem Follows.setType_congr {a b : State} (h : Follows a b) (k : TypeIx) (r : Option TypeRec) :
    Follows (a.setType k r) (b.setType k r) :=
  { h with
    types := by simp [State.setType, h.types]
    positions := h.positions
    racks := h.racks
    idle := h.idle
    needs := h.needs
    orders := h.orders
    kept := h.kept
    tools := h.tools
    taken := h.taken
    free := h.free
    flags := h.flags }

/-- Both states take the same channel record. -/
theorem Follows.setChan_congr {a b : State} (h : Follows a b) (x : PosIx) (c : Channel) :
    Follows (a.setChan x c) (b.setChan x c) :=
  { h with
    positions := h.positions
    racks := h.racks
    idle := h.idle
    needs := h.needs
    orders := h.orders
    kept := h.kept
    tools := h.tools
    taken := h.taken
    free := h.free
    vol := by
      show { b.vol with channels := b.vol.channels.set x c } = _
      rw [h.vol]; rfl
    flags := h.flags }

/-- Both states set the same notice. -/
theorem Follows.notify_congr {a b : State} (h : Follows a b) (p : Port) (n : Notice) :
    Follows (a.notify p n) (b.notify p n) := by
  rw [State.notify_eq, State.notify_eq, h.enabled]
  split
  · rename_i hp
    refine
      { h with
        positions := h.positions
        racks := h.racks
        idle := h.idle
        needs := h.needs
        orders := h.orders
        kept := h.kept
        tools := h.tools
        taken := h.taken
        free := h.free
        vol := ?_
        mailbox := fun q => ?_
        reception := fun q => ?_
        sent := fun q => ?_
        flags := fun q => ?_
        others := fun q => ?_
        disabled := fun q hq => ?_ }
    · simp only [State.setPort]
      rw [h.vol]
    all_goals simp only [State.port_setPort]
    all_goals split
    all_goals try subst q
    · exact h.mailbox p
    · exact h.mailbox q
    · exact h.reception p
    · exact h.reception q
    · exact h.sent p
    · exact h.sent q
    · have := h.flags p
      calc ((b.port p).notices ||| n.mask) ||| ((a.port p).notices ||| n.mask)
          = ((b.port p).notices ||| (a.port p).notices) ||| (n.mask ||| n.mask) := by ac_rfl
        _ = (b.port p).notices ||| n.mask := by rw [this]; simp
    · exact h.flags q
    · show ((b.port p).notices ||| n.mask) &&& _ = ((a.port p).notices ||| n.mask) &&& _
      rw [BitVec.and_or_distrib_right, BitVec.and_or_distrib_right, h.others p]
    · exact h.others q
    · have hq : a.enabled p = false := hq
      simp [hp] at hq
    · exact h.disabled q hq
  · exact h

/-- Both states set the same slot notice. -/
theorem Follows.notifySlot_congr {a b : State} (h : Follows a b) (x : PosIx) (n : Slot → Notice) :
    Follows (a.notifySlot x n) (b.notifySlot x n) := h.notify_congr _ _

/-- Both states take the wear trigger of a position. -/
theorem Follows.wearAt_congr {a b : State} (h : Follows a b) (x : PosIx) : Follows (wearAt x a) (wearAt x b) := by
  unfold wearAt
  rw [h.mountedTool, h.partsLeft, h.hasFinding]
  split
  · exact h
  · split
    · have h1 := (h.setTool_congr (i := ‹EntryIx›)
        (t := some { ‹Tool› with condition := .worn }) rfl).apply_congr x (Position.finding .worn)
        (by
          intro p q e
          have es : q.service = p.service := show q.settled.service = p.settled.service by rw [e]
          unfold Position.finding
          rw [es]
          split <;> simp_all [Position.settled])
        (by intro p; unfold Position.finding; split <;> rfl)
        (by intro p; unfold Position.finding; split <;> exact ⟨rfl, rfl⟩)
        (by intro p; unfold Position.finding; split <;> rfl)
        (by intro p e; unfold Position.finding; simp [e])
      dsimp only
      split
      · exact h1.notifySlot_congr x .due
      · exact h1
    · exact h

end Sys2Proof.Machine
end

