-- ==== Sys2Proof/Laws/Events.lean ====
section
/-! SUPPORT. What each shared operation of an event does, as its own changes and the work that follows them; and the ways
an accepted request ends. -/
namespace Sys2Proof.Machine

/-! ## The triggers (R56 to R58) -/

theorem Ev.st_finding (x : PosIx) (i : EntryIx) (t : Tool) (c : Condition) (d : DueCause) (e : Ev)
    (h : e.st.tool i = some t) :
    (e.finding x i c d).st =
      (let m := (e.st.setTool i (some { t with condition := c })).setPos x ((e.st.pos x).finding d)
       if (e.st.pos x).hasFinding then m.notifySlot x .due else m) := by
  unfold Ev.finding
  dsimp only
  split <;> simp [h]

theorem mountedTool_tool {s : State} {x : PosIx} {i : EntryIx} {t : Tool} (h : s.mountedTool x = some (i, t)) :
    s.tool i = some t ∧ t.state = .mounted ∧ (s.pos x).mounted = .entry i := by
  unfold State.mountedTool at h
  split at h
  · rename_i j hj
    split at h
    · rename_i u hu
      split at h
      · cases h; exact ⟨hu, ‹_›, hj⟩
      · cases h
    · cases h
  · cases h

/-- The evaluation of the triggers makes the change of the wear trigger; the rest is work that follows. -/
theorem Ev.follows_evalTriggers (x : PosIx) (e : Ev) : Follows (wearAt x e.st) (e.evalTriggers x).st := by
  unfold Ev.evalTriggers wearAt
  cases hm : e.st.mountedTool x with
  | none => exact Follows.refl _
  | some m =>
    obtain ⟨i, t⟩ := m
    have ht := (mountedTool_tool hm).1
    dsimp only
    have key : ∀ e' : Ev, Follows e'.st
        (if e.st.partsLeft t ≤ (e'.st.figures t.type).stage then e'.needTest x else e').st := by
      intro e'; split
      · exact Ev.follows_needTest x e'
      · exact Follows.refl _
    split
    · have := key (e.finding x i .worn .worn)
      exact (Ev.st_finding x i t _ _ e ht) ▸ this
    · exact key e

/-- The re-evaluation of a type's mounted tools makes the changes of their wear triggers. -/
theorem Ev.follows_reevaluate (t : TypeIx) (but : Option EntryIx) (e : Ev) :
    Follows (wearAll t but e.st) (e.reevaluate t but).st := by
  unfold Ev.reevaluate wearAll
  have key : ∀ (l : List PosIx) (m : State) (e : Ev), Follows m e.st →
      Follows (l.foldl (fun s x => if s.reevaluated t but x then wearAt x s else s) m)
        (l.foldl (fun e x => if e.st.reevaluated t but x then e.evalTriggers x else e) e).st := by
    intro l
    induction l with
    | nil => intro m e h; exact h
    | cons x l ih =>
      intro m e h
      rw [List.foldl_cons, List.foldl_cons]
      apply ih
      have hr : e.st.reevaluated t but x = m.reevaluated t but x := by
        simp [State.reevaluated, h.present, h.hasFinding, h.mountedTool]
      rw [hr]
      split
      · exact (h.wearAt_congr x).trans (Ev.follows_evalTriggers x e)
      · exact h
  exact key _ _ _ (Follows.refl _)

/-! ## Needs that become urgent or are cancelled -/

/-- Orders of a list after some have become urgent: each was there, as it is or normal and waiting. -/
theorem mem_makeUrgent {i : EntryIx} {q : List Order} {o : Order} (h : o ∈ makeUrgent (Order.hastens i) q) :
    o ∈ q ∨ ∃ r ∈ q, r.task = o.task ∧ r.busy = false ∧ o.busy = false ∧ (r.urgent = true → o.urgent = true) := by
  unfold makeUrgent at h
  split at h
  · rename_i r hr
    rw [mem_insertOrder, mem_dropNumber] at h
    rcases h with rfl | h
    · have hp := List.find?_some hr
      simp [Order.hastens] at hp
      have hb : r.busy = false := hp.1.2
      exact .inr ⟨r, List.mem_of_find?_eq_some hr, rfl, hb, hb, fun _ => rfl⟩
    · exact .inl h.1
  · exact .inl h

/-- No number leaves a list when orders become urgent. -/
theorem makeUrgent_kept {pick : Order → Bool} {q : List Order} {r : Order} (h : r ∈ q) :
    ∃ o ∈ makeUrgent pick q, o.number = r.number := by
  unfold makeUrgent
  split
  · rename_i p hp
    by_cases e : r.number = p.number
    · exact ⟨_, mem_insertOrder.mpr (.inl rfl), e.symm⟩
    · exact ⟨r, mem_insertOrder.mpr (.inr (mem_dropNumber.mpr ⟨h, e⟩)), rfl⟩
  · exact ⟨r, h, rfl⟩

theorem State.follows_hasten (s : State) (i : EntryIx) : Follows s (s.hasten i) := by
  refine Follows.lists s s.ret.waiting s.ret.counter (fun o ho => ?_) fun q hq => ?_
  · rw [List.mem_append] at ho
    rcases ho with ho | ho <;> rcases mem_makeUrgent ho with h | ⟨r, hr, h⟩
    · exact .inl (List.mem_append.mpr (.inl h))
    · exact .inr (.inl ⟨r, List.mem_append.mpr (.inl hr), h⟩)
    · exact .inl (List.mem_append.mpr (.inr h))
    · exact .inr (.inl ⟨r, List.mem_append.mpr (.inr hr), h⟩)
  · rw [State.standing, List.mem_append] at hq
    rcases hq with hq | hq <;> obtain ⟨o, ho, e⟩ := makeUrgent_kept (pick := Order.hastens i) hq
    · exact .inl ⟨o, List.mem_append.mpr (.inl ho), e⟩
    · exact .inl ⟨o, List.mem_append.mpr (.inr ho), e⟩

/-- A standing need becomes urgent; the waiting list and the class of its order follow (R104, R111, R122). -/
theorem Ev.follows_makeNeedUrgent (x : PosIx) (e : Ev) :
    Follows (if (e.st.pos x).need = .noNeed ∨ (e.st.pos x).urgent = true then e.st
      else e.st.setPos x { e.st.pos x with urgent := true }) (e.makeNeedUrgent x).st := by
  unfold Ev.makeNeedUrgent
  dsimp only
  split
  · exact Follows.refl _
  · split
    · exact State.follows_joinWaiting (e.updPos x (·.setUrgent true)).st x
    · exact State.follows_hasten (e.updPos x (·.setUrgent true)).st _
    · exact Follows.refl _

/-- The need of a position is cleared. -/
theorem Ev.follows_clearNeed (x : PosIx) (e : Ev) :
    Follows (e.st.setPos x { e.st.pos x with need := .noNeed, sister := none, urgent := false }) (e.clearNeed x).st :=
  Ev.follows_leaveWaiting x (e.updPos x Position.noNeed)

/-- A sister goes back to STORED and is offered. -/
theorem Ev.follows_releaseSister (i : EntryIx) (e : Ev) :
    Follows (e.st.setTool i ((e.st.tool i).map fun t => { t with state := .stored, promised := none }))
      (e.releaseSister i).st :=
  Ev.follows_offerTool i (e.updTool i fun t => { t with state := .stored, promised := none })

/-- The state after a withdrawal. -/
theorem Ev.st_withdraw (o : Order) (e : Ev) : (e.withdraw o).st = withdrawn o e.st := by
  unfold Ev.withdraw withdrawn
  dsimp only
  split <;> rfl

theorem State.tool_dropOrder (s : State) (n : Nat) : (s.dropOrder n).tool = s.tool := by
  unfold State.dropOrder State.promote
  split
  · dsimp only; split
    · rfl
    · split <;> rfl
  · rfl

theorem tool_withdrawn (o : Order) (s : State) : (withdrawn o s).tool = s.tool := by
  unfold withdrawn
  dsimp only
  split
  · rw [State.tool_setPos, State.tool_dropOrder]
  · exact State.tool_dropOrder s _

/-- What a position's need was cancelled for does not depend on who waits. -/
theorem withdrawn_waiting (o : Order) (s : State) (w : List PosIx) :
    withdrawn o { s with ret.waiting := w } = { withdrawn o s with ret.waiting := w } := by
  have h : ∀ n, State.dropOrder { s with ret.waiting := w } n = { s.dropOrder n with ret.waiting := w } := by
    intro n
    unfold State.dropOrder State.promote
    dsimp only
    split
    · split
      · rfl
      · split <;> rfl
    · rfl
  unfold withdrawn
  rw [h]
  dsimp only
  split <;> rfl

/-- The withdrawal of the order that carried the sister of a position whose need is cleared. -/
theorem Ev.follows_withdraw_clearNeed (x : PosIx) (o : Order) (e : Ev) :
    Follows (withdrawn o (e.st.setPos x { e.st.pos x with need := .noNeed, sister := none, urgent := false }))
      ((e.clearNeed x).withdraw o).st := by
  rw [Ev.st_withdraw]
  have h := withdrawn_waiting o
    (e.st.setPos x { e.st.pos x with need := .noNeed, sister := none, urgent := false })
    (e.st.ret.waiting.filter (· ≠ x))
  refine Eq.mpr (congrArg (Follows _) h) (Follows.waiting _ _)

/-- The cancellation of a need (R94, R108 to R110). -/
theorem Ev.follows_cancelNeed (x : PosIx) (e : Ev) : Follows (needCancelled x e.st) (e.cancelNeed x).st := by
  have clear := Ev.follows_clearNeed x e
  have hst : ∀ i, (e.clearNeed x).st.tool i = e.st.tool i := fun _ => rfl
  have stored : ∀ i, Follows ((e.st.setPos x { e.st.pos x with need := .noNeed, sister := none, urgent := false }).setTool i
      ((e.st.tool i).map fun v => { v with state := .stored, promised := none })) ((e.clearNeed x).releaseSister i).st :=
    fun i => (clear.setTool_congr i rfl).trans (Ev.follows_releaseSister i (e.clearNeed x))
  unfold Ev.cancelNeed needCancelled
  dsimp only
  cases (e.st.pos x).need <;> cases hs : (e.st.pos x).sister <;> dsimp only
  case noNeed.none => exact Follows.refl _
  case noNeed.some => exact Follows.refl _
  case reserved.some i => exact stored i
  case staging.some i =>
    unfold Ev.cancelStaging
    have hc : (e.clearNeed x).st.carrierOf i = e.st.carrierOf i := rfl
    rw [hc]
    cases e.st.carrierOf i with
    | none => exact stored i
    | some o =>
      dsimp only
      split
      · exact clear.setTool_congr i rfl
      · refine Follows.trans ?_ (Ev.follows_releaseSister i ((e.clearNeed x).withdraw o))
        refine (Ev.follows_withdraw_clearNeed x o e).setTool_congr i ?_
        rw [Ev.st_withdraw, tool_withdrawn, tool_withdrawn]; rfl
  case staged.some i =>
    unfold Ev.cancelStaged
    have hc : (e.clearNeed x).st.exchangeFor x = e.st.exchangeFor x := rfl
    rw [hc]
    cases e.st.exchangeFor x with
    | none => exact clear.setTool_congr i rfl
    | some o =>
      dsimp only
      split
      · exact clear.setTool_congr i rfl
      · refine (Ev.follows_withdraw_clearNeed x o e).setTool_congr i ?_
        rw [Ev.st_withdraw, tool_withdrawn, tool_withdrawn]; rfl
  all_goals exact clear

/-- A sister is lost (R94): where the position has it, its need is cleared and the need test runs. -/
theorem Ev.follows_loseSister (x : PosIx) (i : EntryIx) (e : Ev) :
    Follows (if (e.st.pos x).sister = some i then
        e.st.setPos x { e.st.pos x with need := .noNeed, sister := none, urgent := false } else e.st)
      (e.loseSister x i).st := by
  unfold Ev.loseSister
  split
  · exact (Ev.follows_clearNeed x e).trans (Ev.follows_needTest x (e.clearNeed x))
  · exact Follows.refl _

/-- The learning update (R65 to R67). -/
theorem Ev.follows_learnFrom (j but : Option EntryIx) (e : Ev) :
    Follows (learned j but e.st) (e.learnFrom j but).st := by
  unfold Ev.learnFrom learned
  cases j with
  | none => exact Follows.refl _
  | some j =>
    dsimp only
    unfold Ev.learn
    cases e.st.tool j with
    | none => exact Follows.refl _
    | some t =>
      dsimp only
      cases e.st.typ t.type with
      | none => exact Follows.refl _
      | some f =>
        dsimp only
        have hc : f.teaches t = true ↔ t.condition = .worn ∧ t.fullHistory = true ∧ f.lnew / 2 ≤ t.nnom := by
          simp [TypeRec.teaches, and_assoc]
        by_cases h : f.teaches t = true
        · rw [if_pos h, if_pos (hc.mp h)]
          change Follows ((wearAll t.type but (e.st.setType t.type (some (f.learn t)))).notify .ps .learned) _
          have h1 := Ev.follows_reevaluate t.type but (e.upd fun s => s.setType t.type (some (f.learn t)))
          exact (h1.trans (Ev.follows_arbitrateIfWaited t.type _)).notify_congr .ps .learned
        · rw [if_neg h, if_neg (fun g => h (hc.mpr g))]
          exact Follows.refl _

/-- After a need test whose conditions hold, the position has a need, urgent when its mounted tool is BROKEN (R93, R101). -/
theorem Ev.needTest_raises {x : PosIx} {k : TypeIx} {e : Ev} (h : e.st.needFor x = some k) :
    ((e.needTest x).st.pos x).need ≠ .noNeed ∧ ((e.needTest x).st.pos x).urgent = e.st.mountedBroken x := by
  unfold Ev.needTest
  rw [h]
  dsimp only
  unfold Ev.raiseNeed
  dsimp only
  split
  · simp [Ev.reserve, Ev.setNeed, Ev.leaveWaiting, Ev.updPos, Ev.updTool, Ev.upd, Position.reserve, Position.setUrgent,
      State.pos, State.setPos, State.setTool]
  · have hj : ∀ (s : State), (s.joinWaiting x).pos = s.pos := by
      intro s; unfold State.joinWaiting; dsimp only; split <;> rfl
    simp [Ev.wait, Ev.notify, Ev.updPos, Ev.upd, hj, Position.wait, Position.setUrgent]

/-! ## How an accepted request ends -/

/-- An event that touches no field of R95, no order and no pocket leaves nothing to follow. -/
theorem finish_quiet {before : State} {e : Ev} (ht : e.touched = []) (hq : e.st.ret.queue = before.ret.queue)
    (hp : e.st.ret.pockets = before.ret.pockets) : finish before e = e.st.commit.drive := by
  have h1 : e.handOffs = e := by simp [Ev.handOffs, ht]
  have h2 : before.freedSince e.st = [] := by
    unfold State.freedSince
    rw [List.filter_eq_nil_iff]
    intro k _
    simp only [State.pocket, hp, Bool.and_eq_true, decide_eq_true_eq, not_and]
    exact fun h g => of_decide_eq_true g h
  have h3 : e.offerPockets before = e := by simp [Ev.offerPockets, h2]
  simp [finish, h1, h3, State.raiseOrderReady, hq]

/-- An accepted request settles: its own changes, then the work that follows. -/
theorem settles_finish {m before : State} {e : Ev} (h : Follows m e.st) : Settles m (finish before e) :=
  ⟨h.trans (finish_follows before e), finish_committed before e⟩

/-- An accepted request at a port that listens. -/
theorem serve_ok {p : Port} {code : Nat} {s m t : State} {result : State → List Byte} (hl : s.listening p = true)
    (h : Settles m t) :
    ∃ t', serve p code (.ok (t, result t)) s = .next (t'.answer p ⟨code, .accepted, result t'⟩) ∧ Settles m t' :=
  ⟨t, by simp [serve, hl], h⟩

end Sys2Proof.Machine
end

