-- ==== Sys2Proof/Laws/Delivery.lean ====
section
/-! SUPPORT. What a delivery does to a channel, said once: the own changes of `delivered` and `tripped` of Safety.lean, and
after them only the work that follows an event. -/
namespace Sys2Proof.Machine

/-- `Follows` along equal states. -/
theorem Follows.cast {a a' b b' : State} (h : Follows a b) (ha : a' = a) (hb : b' = b) : Follows a' b' := by
  subst ha hb; exact h

/-- A change that keeps the fields the work that follows may change goes through `Tool.settled`. -/
theorem settled_map {f : Tool → Tool} (hf : ∀ t, (f t).settled = f t.settled) {t u : Option Tool}
    (h : u.map Tool.settled = t.map Tool.settled) : (u.map f).map Tool.settled = (t.map f).map Tool.settled := by
  have : ∀ v : Option Tool, (v.map f).map Tool.settled = (v.map Tool.settled).map f := by
    intro v; cases v <;> simp [hf]
  rw [this, this, h]

/-- The trip counter. -/
def countTrip (w : Tool) : Tool := { w with trips := min 255 (w.trips + 1) }

theorem settled_countTrip (w : Tool) : (countTrip w).settled = countTrip w.settled := by
  unfold countTrip Tool.settled; dsimp only; split <;> rfl

theorem Position.settled_service {p q : Position} (h : q.settled = p.settled) : q.service = p.service :=
  show q.settled.service = p.settled.service by rw [h]

theorem Position.settled_hold (c : HoldCause) {p q : Position} (h : q.settled = p.settled) :
    (q.hold c).settled = (p.hold c).settled := by
  have hs := Position.settled_service h
  unfold Position.hold
  rw [hs]
  split <;> simp_all [Position.settled]

/-- A hold on both sides, with the need test of one. -/
theorem Ev.follows_hold {m : State} {e : Ev} (h : Follows m e.st) (x : PosIx) (c : HoldCause) :
    Follows ((m.setPos x ((m.pos x).hold c)).notifySlot x .held) (e.hold x c).st := by
  refine Follows.trans ?_ (Ev.follows_needTest x _)
  refine Follows.notifySlot_congr ?_ x .held
  refine h.apply_congr x (Position.hold c) (fun p q => Position.settled_hold c) ?_ ?_ ?_ ?_
  · intro p; unfold Position.hold; split <;> rfl
  · intro p; unfold Position.hold; split <;> exact ⟨rfl, rfl⟩
  · intro p; unfold Position.hold; split <;> rfl
  · intro p hp; unfold Position.hold; simp [hp]

/-- Counting a retry on both sides. -/
theorem Follows.countRetry {a b : State} (h : Follows a b) (x : PosIx) :
    Follows (a.setPos x { a.pos x with retryCount := (a.pos x).retryCount + 1 })
      (b.setPos x { b.pos x with retryCount := (b.pos x).retryCount + 1 }) := by
  refine h.apply_congr x (fun p => { p with retryCount := p.retryCount + 1 }) ?_ (fun _ => rfl) (fun _ => ⟨rfl, rfl⟩)
    (fun _ => rfl) fun _ hp => hp
  intro p q e
  have hr : q.retryCount = p.retryCount := show q.settled.retryCount = p.settled.retryCount by rw [e]
  simp_all [Position.settled]

/-- What the mode makes of a trip (R158 to R160), on both sides. -/
theorem Ev.follows_tripByMode {n : State} {e : Ev} (h : Follows n e.st) (x : PosIx) :
    Follows
      (if (n.pos x).mode = .hold ∨ (n.pos x).mode = .retry ∧ (n.pos x).retryLimit ≤ (n.pos x).retryCount then
        (n.setPos x ((n.pos x).hold .trip)).notifySlot x .held
      else if (n.pos x).mode = .retry then
        ((n.setPos x (Position.hold .retry { n.pos x with retryCount := (n.pos x).retryCount + 1 })).setChan x
          { n.chan x with
            retryTimer := some (n.vol.ms + BitVec.ofNat 32 ((n.pos x).retryTime * 1000)) }).notifySlot x .held
      else n) (e.tripByMode x).st := by
  have hs := h.positions x
  have hm : (e.st.pos x).mode = (n.pos x).mode := show (e.st.pos x).settled.mode = (n.pos x).settled.mode by rw [hs]
  have hl : (e.st.pos x).retryLimit = (n.pos x).retryLimit :=
    show (e.st.pos x).settled.retryLimit = (n.pos x).settled.retryLimit by rw [hs]
  have hc : (e.st.pos x).retryCount = (n.pos x).retryCount :=
    show (e.st.pos x).settled.retryCount = (n.pos x).settled.retryCount by rw [hs]
  have ht : (e.st.pos x).retryTime = (n.pos x).retryTime :=
    show (e.st.pos x).settled.retryTime = (n.pos x).settled.retryTime by rw [hs]
  unfold Ev.tripByMode
  dsimp only
  rw [hm, hl, hc, ht]
  cases hmd : (n.pos x).mode with
  | off => simpa using h
  | report => simpa using h
  | hold => simpa using Ev.follows_hold h x .trip
  | retry =>
    by_cases hlt : (n.pos x).retryCount < (n.pos x).retryLimit
    · rw [if_neg (by simp; omega), if_pos rfl, if_pos hlt]
      have h1 := (h.countRetry x).setChan_congr x { n.chan x with
        retryTimer := some (n.vol.ms + BitVec.ofNat 32 ((n.pos x).retryTime * 1000)) }
      have h2 : (((e.updPos x fun p => { p with retryCount := p.retryCount + 1 }).upd fun s => s.setChan x
          { s.chan x with retryTimer := some (s.vol.ms + BitVec.ofNat 32 ((n.pos x).retryTime * 1000)) })).st =
          (e.st.setPos x { e.st.pos x with retryCount := (e.st.pos x).retryCount + 1 }).setChan x { n.chan x with
            retryTimer := some (n.vol.ms + BitVec.ofNat 32 ((n.pos x).retryTime * 1000)) } := by
        rw [← h.chan, ← h.ms]; rfl
      have h3 := Ev.follows_hold (e := ((e.updPos x fun p => { p with retryCount := p.retryCount + 1 }).upd fun s =>
        s.setChan x { s.chan x with retryTimer := some (s.vol.ms + BitVec.ofNat 32 ((n.pos x).retryTime * 1000)) }))
        (h2 ▸ h1) x .retry
      refine h3.cast ?_ rfl
      simp only [State.pos_setChan, State.pos_setPos, if_true, hmd]
      congr 1
      simp [State.setPos, State.setChan]
    · rw [if_pos (.inr ⟨rfl, by omega⟩), if_neg hlt]
      exact Ev.follows_hold h x .trip

/-- A trip (R157 to R160): the own changes, then the need test of a hold. -/
theorem Ev.follows_trip {m : State} {e : Ev} (h : Follows m e.st) (x : PosIx) (i : EntryIx) :
    Follows (tripped x i m) (e.trip x i).st := by
  have h1 := (((h.setChan_congr x { m.chan x with state := .spent, aeCount := 0, powerCount := 0 }).setTool_congr i
    (settled_map settled_countTrip (h.tools i))).notifySlot_congr x .trip).notify_congr .ps .anyTrip
  have h2 : (((((e.upd fun s => s.setChan x { s.chan x with state := .spent, aeCount := 0, powerCount := 0 }).updTool i
      fun t => { t with trips := min 255 (t.trips + 1) }).notifySlot x .trip).notify .ps .anyTrip)).st =
      (((e.st.setChan x { m.chan x with state := .spent, aeCount := 0, powerCount := 0 }).setTool i
        ((e.st.tool i).map countTrip)).notifySlot x .trip).notify .ps .anyTrip := by
    rw [← h.chan]; rfl
  have h3 := Ev.follows_tripByMode (h2 ▸ h1) x
  refine h3.cast ?_ rfl
  unfold tripped
  simp only [State.pos_notify, State.pos_notifySlot, State.pos_setTool, State.pos_setChan]
  rfl

theorem peak_eq (a : Bool) (n v : Nat) :
    (if a = true ∧ n < v then v else n) = if a = true then max n v else n := by
  cases a <;> simp
  split <;> omega

/-- What one delivery does to one channel (R153 to R157): the own changes of `delivered`, then the need test of a hold. -/
theorem Ev.follows_deliverTo {m : State} {e : Ev} (h : Follows m e.st) (words : Vector SampleWord 16) (x : PosIx) :
    Follows (delivered words x m) (e.deliverTo words x).st := by
  unfold Ev.deliverTo delivered
  dsimp only
  rw [h.present, h.chan]
  cases hp : m.present x with
  | false => simpa using h
  | true =>
    simp only [if_true, Bool.true_eq_false, if_false]
    cases hc : (m.chan x).state with
    | idle => exact h
    | spent => exact h
    | blanking =>
      dsimp only
      have h1 := h.setChan_congr x (((m.chan x).countBlank (m.mountedFigures x).blank))
      refine h1.cast ?_ ?_
      · unfold Channel.countBlank; rw [hc]
      · simp only [Ev.st_upd]; rw [h.chan, h.mountedFigures]
    | watching =>
      dsimp only
      unfold Ev.evaluate
      rw [h.mountedTool]
      cases ht : m.mountedTool x with
      | none => exact h
      | some q =>
        obtain ⟨i, w⟩ := q
        dsimp only
        obtain ⟨hi, hmt, -⟩ := mountedTool_tool ht
        have hw := h.tool_eq hi (by rw [hmt]; decide) (by rw [hmt]; decide)
        rw [h.sampleFor, h.figures, h.chan]
        have hwat : ∀ f g, (Ev.upd (fun s => s.setChan x g) (e.updTool i f)).st.watched x = m.watched x := by
          intro f g; rw [← h.watched]; rfl
        have h1 := (h.setTool_congr i (t := some { w with
            peakAE := peakAfter (m.sampleFor words x .ae) w.peakAE
            peakPower := peakAfter (m.sampleFor words x .power) w.peakPower }) rfl).setChan_congr x { m.chan x with
          aeCount := deglitchCount (m.figures w.type).aeLimit (m.sampleFor words x .ae) (m.chan x).aeCount
          powerCount := deglitchCount (m.figures w.type).powerLimit (m.sampleFor words x .power) (m.chan x).powerCount }
        have hsample : ∀ g : Signal, ((allHwSlots.find? fun k => decide (m.route k = some ⟨x, g⟩)).map fun k =>
            (words[k].getLsbD 15, words[k].toNat % 32768)) = m.sampleFor words x g := fun _ => rfl
        simp only [hsample, hwat]
        generalize hce : (Ev.upd _ (e.updTool i _)) = e'
        have h2 : Follows _ e'.st := h1.cast rfl (by
          rw [← hce]; simp only [Ev.st_upd, Ev.st_updTool, hw, Option.map_some])
        clear hce h1
        by_cases hq : m.watched x = true ∧
            ((m.figures w.type).deglitch ≤
                deglitchCount (m.figures w.type).aeLimit (m.sampleFor words x .ae) (m.chan x).aeCount ∨
              (m.figures w.type).deglitch ≤
                deglitchCount (m.figures w.type).powerLimit (m.sampleFor words x .power) (m.chan x).powerCount)
        · rw [if_pos hq]
          replace h2 := Ev.follows_trip h2 x i
          generalize m.sampleFor words x .ae = a at h2 hq ⊢
          generalize m.sampleFor words x .power = b at h2 hq ⊢
          rcases a with _ | ⟨a, v⟩ <;> rcases b with _ | ⟨b, w'⟩ <;>
            simp only [deglitchCount, peakAfter, Bool.and_eq_true, decide_eq_true_eq, peak_eq, hc] at h2 hq ⊢ <;>
            rw [if_pos hq] <;> exact h2
        · rw [if_neg hq]
          generalize m.sampleFor words x .ae = a at h2 hq ⊢
          generalize m.sampleFor words x .power = b at h2 hq ⊢
          rcases a with _ | ⟨a, v⟩ <;> rcases b with _ | ⟨b, w'⟩ <;>
            simp only [deglitchCount, peakAfter, Bool.and_eq_true, decide_eq_true_eq, peak_eq, hc] at h2 hq ⊢ <;>
            rw [if_neg hq] <;> exact h2

/-- A delivery to every channel in position order (R144, R157). -/
theorem Ev.follows_deliver (words : Vector SampleWord 16) {m : State} {e : Ev} (h : Follows m e.st) :
    Follows ((List.finRange 12).foldl (fun m x => delivered words x m) m) (e.deliver words).st := by
  unfold Ev.deliver allPositions
  have key : ∀ (l : List PosIx) (m : State) (e : Ev), Follows m e.st →
      Follows (l.foldl (fun m x => delivered words x m) m) (l.foldl (Ev.deliverTo words) e).st := by
    intro l
    induction l with
    | nil => intro m e h; exact h
    | cons x l ih => intro m e h; exact ih _ _ (Ev.follows_deliverTo h words x)
  exact key _ m e h

end Sys2Proof.Machine
end

