-- ==== Sys2Proof/Laws/PerInstr.lean ====
section
/-! SUPPORT. For every command, as syntax: the record its frame carries has the length Table 9-2 gives its request code, and
a command with a record comes in by a port. -/
namespace Sys2Proof.Laws

open Sys2Proof Sys2Proof.Machine

/-- The length of a number's bytes. -/
@[simp] theorem length_be (n v : Nat) : (be n v).length = n := by
  induction n with
  | zero => rfl
  | succ n ih => simp [be, ih]

/-- A command that has a record comes in by a port, and its record has the length Table 9-2 gives its code (R175). -/
def FramedLength.Statement (i : Instr) : Prop :=
  ∀ r, recordOf i = some r → i.port.isSome = true ∧ recordLength (field r 0 1) = some r.length

/-- The record of TYPE SET has 30 bytes, the code first. -/
theorem length_typeSetRecord (c : Nat) (f : TypeSetOperands) :
    (typeSetRecord c f).length = 30 ∧ field (typeSetRecord c f) 0 1 = 32 := by
  constructor
  · simp [typeSetRecord]
  · rfl

theorem FramedLength.check (p : Port) : FramedLength.Statement (.check p) := by
  rintro _ ⟨⟩; exact ⟨rfl, rfl⟩
theorem FramedLength.openWindow (p : Port) (slot : Nat) : FramedLength.Statement (.openWindow p slot) := by
  rintro _ ⟨⟩; exact ⟨rfl, rfl⟩
theorem FramedLength.closeWindow (p : Port) (slot : Nat) : FramedLength.Statement (.closeWindow p slot) := by
  rintro _ ⟨⟩; exact ⟨rfl, rfl⟩
theorem FramedLength.parts (p : Port) (slot n : Nat) : FramedLength.Statement (.parts p slot n) := by
  rintro _ ⟨⟩; exact ⟨rfl, rfl⟩
theorem FramedLength.dress (p : Port) (slot n : Nat) : FramedLength.Statement (.dress p slot n) := by
  rintro _ ⟨⟩; exact ⟨rfl, rfl⟩
theorem FramedLength.gauge (p : Port) (slot diameter : Nat) : FramedLength.Statement (.gauge p slot diameter) := by
  rintro _ ⟨⟩; exact ⟨rfl, rfl⟩
theorem FramedLength.release (p : Port) (slot : Nat) : FramedLength.Statement (.release p slot) := by
  rintro _ ⟨⟩; exact ⟨rfl, rfl⟩
theorem FramedLength.reclaim (p : Port) (slot : Nat) : FramedLength.Statement (.reclaim p slot) := by
  rintro _ ⟨⟩; exact ⟨rfl, rfl⟩
theorem FramedLength.verdictOk (p : Port) (slot : Nat) : FramedLength.Statement (.verdictOk p slot) := by
  rintro _ ⟨⟩; exact ⟨rfl, rfl⟩
theorem FramedLength.verdictBroken (p : Port) (slot : Nat) : FramedLength.Statement (.verdictBroken p slot) := by
  rintro _ ⟨⟩; exact ⟨rfl, rfl⟩
theorem FramedLength.takeOrder (p : Port) : FramedLength.Statement (.takeOrder p) := by
  rintro _ ⟨⟩; exact ⟨rfl, rfl⟩
theorem FramedLength.doneOrder (p : Port) (number : Nat) : FramedLength.Statement (.doneOrder p number) := by
  rintro _ ⟨⟩; exact ⟨rfl, rfl⟩
theorem FramedLength.failOrder (p : Port) (number reason entry : Nat) : FramedLength.Statement (.failOrder p number reason entry) := by
  rintro _ ⟨⟩; exact ⟨rfl, rfl⟩
theorem FramedLength.typeSet (p : Port) (code : Nat) (f : TypeSetOperands) : FramedLength.Statement (.typeSet p code f) := by
  rintro _ ⟨⟩
  exact ⟨rfl, by rw [(length_typeSetRecord code f).1, (length_typeSetRecord code f).2]; rfl⟩
theorem FramedLength.typeErase (p : Port) (code : Nat) : FramedLength.Statement (.typeErase p code) := by
  rintro _ ⟨⟩; exact ⟨rfl, rfl⟩
theorem FramedLength.enrol (p : Port) (serial code placeKind placeNumber lifeMode r : Nat) : FramedLength.Statement (.enrol p serial code placeKind placeNumber lifeMode r) := by
  rintro _ ⟨⟩; exact ⟨rfl, rfl⟩
theorem FramedLength.withdraw (p : Port) (entry : Nat) : FramedLength.Statement (.withdraw p entry) := by
  rintro _ ⟨⟩; exact ⟨rfl, rfl⟩
theorem FramedLength.reinstate (p : Port) (entry code placeKind placeNumber lifeMode r : Nat) : FramedLength.Statement (.reinstate p entry code placeKind placeNumber lifeMode r) := by
  rintro _ ⟨⟩; exact ⟨rfl, rfl⟩
theorem FramedLength.declarePocket (p : Port) (number : Nat) : FramedLength.Statement (.declarePocket p number) := by
  rintro _ ⟨⟩; exact ⟨rfl, rfl⟩
theorem FramedLength.declarePosition (p : Port) (position : Nat) : FramedLength.Statement (.declarePosition p position) := by
  rintro _ ⟨⟩; exact ⟨rfl, rfl⟩
theorem FramedLength.assign (p : Port) (position code : Nat) : FramedLength.Statement (.assign p position code) := by
  rintro _ ⟨⟩; exact ⟨rfl, rfl⟩
theorem FramedLength.monitorSet (p : Port) (position mode retryTime retryLimit : Nat) : FramedLength.Statement (.monitorSet p position mode retryTime retryLimit) := by
  rintro _ ⟨⟩; exact ⟨rfl, rfl⟩
theorem FramedLength.clearRetries (p : Port) (position : Nat) : FramedLength.Statement (.clearRetries p position) := by
  rintro _ ⟨⟩; exact ⟨rfl, rfl⟩
theorem FramedLength.routeSet (p : Port) (slot position signal : Nat) : FramedLength.Statement (.routeSet p slot position signal) := by
  rintro _ ⟨⟩; exact ⟨rfl, rfl⟩
theorem FramedLength.timeoutSet (p : Port) (seconds : Nat) : FramedLength.Statement (.timeoutSet p seconds) := by
  rintro _ ⟨⟩; exact ⟨rfl, rfl⟩
theorem FramedLength.resume (p : Port) (position : Nat) : FramedLength.Statement (.resume p position) := by
  rintro _ ⟨⟩; exact ⟨rfl, rfl⟩
theorem FramedLength.restart (p : Port) : FramedLength.Statement (.restart p) := by
  rintro _ ⟨⟩; exact ⟨rfl, rfl⟩
theorem FramedLength.queryType (p : Port) (code : Nat) : FramedLength.Statement (.queryType p code) := by
  rintro _ ⟨⟩; exact ⟨rfl, rfl⟩
theorem FramedLength.queryTool (p : Port) (entry : Nat) : FramedLength.Statement (.queryTool p entry) := by
  rintro _ ⟨⟩; exact ⟨rfl, rfl⟩
theorem FramedLength.queryPosition (p : Port) (operand : Nat) : FramedLength.Statement (.queryPosition p operand) := by
  rintro _ ⟨⟩; exact ⟨rfl, rfl⟩
theorem FramedLength.queryOrder (p : Port) (number : Nat) : FramedLength.Statement (.queryOrder p number) := by
  rintro _ ⟨⟩; exact ⟨rfl, rfl⟩
theorem FramedLength.queryWaiting (p : Port) : FramedLength.Statement (.queryWaiting p) := by
  rintro _ ⟨⟩; exact ⟨rfl, rfl⟩
theorem FramedLength.queryCell (p : Port) : FramedLength.Statement (.queryCell p) := by
  rintro _ ⟨⟩; exact ⟨rfl, rfl⟩
theorem FramedLength.undecodedRequest (p : Port) (sent : Transfer) : FramedLength.Statement (.undecodedRequest p sent) := by
  rintro _ ⟨⟩
theorem FramedLength.fetchReply (p : Port) : FramedLength.Statement (.fetchReply p) := by
  rintro _ ⟨⟩
theorem FramedLength.fetchNotices (p : Port) : FramedLength.Statement (.fetchNotices p) := by
  rintro _ ⟨⟩
theorem FramedLength.wellFormedFrame (words : Vector SampleWord 16) : FramedLength.Statement (.wellFormedFrame words) := by
  rintro _ ⟨⟩
theorem FramedLength.malformedFrame (how : Malformed) : FramedLength.Statement (.malformedFrame how) := by
  rintro _ ⟨⟩
theorem FramedLength.lossDeadlineReached : FramedLength.Statement .lossDeadlineReached := by
  rintro _ ⟨⟩
theorem FramedLength.swapDeadlineExpiry : FramedLength.Statement .swapDeadlineExpiry := by
  rintro _ ⟨⟩
theorem FramedLength.retryTimerExpiry (x : PosIx) : FramedLength.Statement (.retryTimerExpiry x) := by
  rintro _ ⟨⟩
theorem FramedLength.millisecondTick : FramedLength.Statement .millisecondTick := by
  rintro _ ⟨⟩
theorem FramedLength.resetAssert : FramedLength.Statement .resetAssert := by
  rintro _ ⟨⟩
theorem FramedLength.resetRelease (pins : Strap) : FramedLength.Statement (.resetRelease pins) := by
  rintro _ ⟨⟩
theorem FramedLength.powerOnStart (pins : Strap) : FramedLength.Statement (.powerOnStart pins) := by
  rintro _ ⟨⟩
theorem FramedLength.mainSupplyFail : FramedLength.Statement .mainSupplyFail := by
  rintro _ ⟨⟩
theorem FramedLength.vbatLowLatch : FramedLength.Statement .vbatLowLatch := by
  rintro _ ⟨⟩

end Sys2Proof.Laws
end

