-- ==== Sys2Proof/Laws/Transactions.lean ====
section
/-! SUPPORT. What one byte of a transaction and one bit of the highway can do, said once, and what a run of bytes does to a
transaction that is collecting or ignored. -/
namespace Sys2Proof.Machine

/-! ## Port records -/

/-- The later of two writes of a port stands. -/
theorem State.setPort_setPort (s : State) (p : Port) (v w : PortState) : (s.setPort p v).setPort p w = s.setPort p w := by
  simp [State.setPort]

/-- Writing back what is there changes nothing. -/
theorem State.setPort_self (s : State) (p : Port) : s.setPort p (s.port p) = s := by
  simp [State.setPort, State.port]

/-- A transaction that is already over ends without a change. -/
theorem State.endReception_idle {s : State} {p : Port} (h : (s.port p).reception = .idle) : s.endReception p = s := by
  have : ({ s.port p with reception := .idle } : PortState) = s.port p := by rw [← h]
  rw [State.endReception, this, State.setPort_self]

@[simp] theorem State.port_setReception (s : State) (p : Port) (r : Reception) :
    (s.setReception p r).port p = { s.port p with reception := r } := by simp [State.setReception]

@[simp] theorem State.fetches_setReception (s : State) (p q : Port) (r : Reception) :
    (s.setReception p r).fetches q = s.fetches q := rfl

/-- Of two transactions written at a port the later stands. -/
theorem State.setReception_setReception (s : State) (p : Port) (r r' : Reception) :
    (s.setReception p r).setReception p r' = s.setReception p r' := by
  rw [State.setReception, State.port_setReception, State.setReception, State.setPort_setPort, State.setReception]

/-- A transaction written as it stands changes nothing. -/
theorem State.setReception_self {s : State} {p : Port} {r : Reception} (h : (s.port p).reception = r) :
    s.setReception p r = s := by
  subst h
  exact State.setPort_self s p

/-! ## One byte (R173) -/

/-- What one byte does to the transaction at a port: it is ignored at a port that takes none; it is the kind byte of a new
one; it joins the bytes of a REQUEST; it takes the next byte of a fetch's copy; or it changes nothing. -/
theorem State.clockByte_cases (p : Port) (s : State) (b : Byte) :
    (s.fetches p = false ∧ s.clockByte p b = s.setReception p .discarded) ∨
    s.fetches p = true ∧
      ((s.port p).reception = .idle ∧ s.clockByte p b = s.kindByte p b ∨
        (∃ bytes, (s.port p).reception = .receiving bytes ∧
          s.clockByte p b = s.setReception p (.receiving (bytes ++ [b]))) ∨
        (∃ c rest, (s.port p).reception = .sending (c :: rest) ∧
          s.clockByte p b = s.setPort p { s.port p with sent := (s.port p).sent ++ [c], reception := .sending rest }) ∨
        ((s.port p).reception = .sending [] ∨ (s.port p).reception = .discarded) ∧ s.clockByte p b = s) := by
  unfold State.clockByte
  cases hf : s.fetches p
  · exact .inl ⟨rfl, rfl⟩
  · refine .inr ⟨rfl, ?_⟩
    simp only [if_true]
    cases hr : (s.port p).reception with
    | idle => exact .inl ⟨rfl, rfl⟩
    | receiving bytes => exact .inr (.inl ⟨bytes, rfl, rfl⟩)
    | sending rest =>
      cases rest with
      | nil => exact .inr (.inr (.inr ⟨.inl rfl, rfl⟩))
      | cons c rest => exact .inr (.inr (.inl ⟨c, rest, rfl, rfl⟩))
    | discarded => exact .inr (.inr (.inr ⟨.inr rfl, rfl⟩))

/-- The bytes of a REQUEST collect. -/
theorem State.clockBytes_receiving (p : Port) (bytes : List Byte) :
    ∀ (s : State) (got : List Byte), s.fetches p = true → (s.port p).reception = .receiving got →
      bytes.foldl (State.clockByte p) s = s.setReception p (.receiving (got ++ bytes)) := by
  induction bytes with
  | nil => intro s got _ h; simpa using (State.setReception_self h).symm
  | cons b rest ih =>
    intro s got hf h
    have hb : s.clockByte p b = s.setReception p (.receiving (got ++ [b])) := by simp [State.clockByte, hf, h]
    rw [List.foldl_cons, hb, ih _ (got ++ [b]) (by simpa using hf) (by simp), State.setReception_setReception]
    simp

/-- The bytes of a transaction that is ignored change nothing. -/
theorem State.clockBytes_discarded (p : Port) (bytes : List Byte) (s : State)
    (h : (s.port p).reception = .discarded) : bytes.foldl (State.clockByte p) s = s := by
  induction bytes with
  | nil => rfl
  | cons b rest ih =>
    have hb : s.clockByte p b = s := by
      unfold State.clockByte
      split
      · simp [h]
      · exact State.setReception_self h
    rw [List.foldl_cons, hb, ih]

/-! ## One bit (R139) -/

/-- What one bit makes of the frame in progress: a strobe begins one, and ends one in progress as malformed; a low bit is
ignored, is an overrun, joins the frame, or completes it. -/
theorem HwLine.sample_cases (b : LineBit) (l : HwLine) :
    (b.strobe = true ∧ (l.sample b).1 = .receiving [b.data] ∧
      ((∃ bits, l = .receiving bits ∧ (l.sample b).2 = some .malformed) ∨
        (∀ bits, l ≠ .receiving bits) ∧ (l.sample b).2 = none)) ∨
    b.strobe = false ∧
      (l = .quiet ∧ l.sample b = (.quiet, none) ∨
        l = .complete ∧ l.sample b = (.quiet, some .malformed) ∨
        ∃ bits, l = .receiving bits ∧
          (bits.length + 1 < frameLength ∧ l.sample b = (.receiving (bits ++ [b.data]), none) ∨
            frameLength ≤ bits.length + 1 ∧
              l.sample b = (.complete, some (.wellFormed (wordsOf (bits ++ [b.data])))))) := by
  obtain ⟨strobe, data⟩ := b
  cases strobe with
  | true =>
    refine .inl ⟨rfl, ?_⟩
    cases l with
    | quiet => exact ⟨rfl, .inr ⟨nofun, rfl⟩⟩
    | receiving bits => exact ⟨rfl, .inl ⟨bits, rfl, rfl⟩⟩
    | complete => exact ⟨rfl, .inr ⟨nofun, rfl⟩⟩
  | false =>
    refine .inr ⟨rfl, ?_⟩
    cases l with
    | quiet => exact .inl ⟨rfl, rfl⟩
    | complete => exact .inr (.inl ⟨rfl, rfl⟩)
    | receiving bits =>
      refine .inr (.inr ⟨bits, rfl, ?_⟩)
      by_cases h : bits.length + 1 < frameLength
      · exact .inl ⟨h, by simp [HwLine.sample, h]⟩
      · exact .inr ⟨by omega, by simp [HwLine.sample, h]⟩

end Sys2Proof.Machine
end

