-- ==== Sys2Proof/Tests/Slice0.lean ====
section
/-! SUPPORT. The model's own tests: what WellFormed refuses, the spec's worked values one command at a time, and a witness
for the hypotheses of every statement. -/
namespace Sys2Proof.Tests

open Sys2Proof Sys2Proof.Machine

/-! ## The state of the tests -/

/-- Type 3 of Table 3-2, with its F. -/
def type3 (factor : Nat) : TypeRec where
  kind := .wheel
  dnew := 600000
  dscrap := 590000
  lnew := 50000
  dd := 20
  wp := 1
  ppd := 12
  rchg := 400
  stage := 600
  pmin := 2000
  policy := .leastFirst
  k := 4
  z := 5000
  g := 300
  aeLimit := 9000
  powerLimit := 14000
  blank := 250
  deglitch := 1
  factor := factor
  learnCount := 7

/-- Type 9 of Table 3-2. -/
def type9 : TypeRec where
  kind := .dresser
  dnew := 120000
  dscrap := 100000
  lnew := 100000
  dd := 3
  wp := 0
  ppd := 12
  rchg := 2000
  stage := 300
  pmin := 5000
  policy := .leastFirst
  k := 4
  z := 10000
  g := 500
  aeLimit := 9000
  powerLimit := 14000
  blank := 250
  deglitch := 1
  factor := 980
  learnCount := 0

/-- A SOUND tool with the counts that 3.8.2 gives entry 14. -/
def tool (serial : Nat) (k : TypeIx) (st : ToolState) (pl : Place) (r : Nat) : Tool where
  serial := serial
  type := k
  state := st
  condition := .sound
  place := pl
  promised := none
  r := r
  rem := 0
  nnom := 19500
  fullHistory := true
  parts := 7200
  dresses := 600
  gauged := none
  doubts := 0
  trips := 0
  peakAE := 0
  peakPower := 0

/-- The wheel of 3.8.2. -/
def wheel : Tool := tool 810014 2 .mounted (.spindle 0) 30000

/-- The roll of 3.8.2. -/
def roll : Tool := tool 910030 8 .mounted (.spindle 2) 60000

/-- A stored wheel of type 3. -/
def stored (serial : Nat) (k : PocketIx) (r : Nat) : Tool := tool serial 2 .stored (.pocket k) r

/-- A position with a tool on its spindle and no required type. -/
def holding (i : EntryIx) : Position := { Position.cold with service := .serving, mounted := .entry i }

/-- The cell of 3.8.2, with two stored wheels of type 3: entry 20 in pocket 5 and entry 41 in pocket 17. -/
def base : State :=
  let s := (State.reset.setType 2 (some (type3 1040))).setType 8 (some type9)
  let s := ((s.setTool 14 (some wheel)).setPos 0 (holding 14)).setTool 30 (some roll)
  let s := ((s.setPos 2 (holding 30)).setTool 20 (some (stored 810020 4 20000))).setPocket 4 (.holds 20)
  (s.setTool 41 (some (stored 810041 16 5900))).setPocket 16 (.holds 41)

/-- The state after a command, the same state where it gives none. -/
def after (c : Instr) (s : State) : State :=
  match exec c s with
  | .next t => t
  | _ => s

/-- The code and the status of the reply that a command leaves at a port. -/
def answerTo (p : Port) (c : Instr) (s : State) : Option (Nat × Status) :=
  match ((after c s).port p).mailbox with
  | .fresh r => some (r.code, r.status)
  | _ => none

/-- A property of the live tools, by one check of every entry. -/
theorem all_tools {s : State} {P : Tool → Prop} [DecidablePred P]
    (h : ∀ i, (s.tool i).all (fun u => decide (P u)) = true) : ∀ i u, s.tool i = some u → P u := by
  intro i u hi
  have := h i
  simpa [hi] using this

/-- The operands that define type 3 (Table 3-2). -/
def operands3 : TypeSetOperands where
  dnew := 600000
  ddiff := 10000
  dd := 20
  wp := 1
  ppd := 12
  rchg := 400
  stage := 600
  pmin := 2000
  k := 4
  z := 5000
  g := 300
  flags := 0
  aeLimit := 9000
  powerLimit := 14000
  blank := 250
  deglitch := 1
  factor := 0

/-! ## WellFormed refuses -/

theorem test_wf_slot_refused : (Instr.openWindow (.station 0) 256).wf = false := by decide
theorem test_wf_count_refused : (Instr.parts (.station 0) 0 256).wf = false := by decide
theorem test_wf_diameter_refused : (Instr.gauge (.station 0) 0 16777216).wf = false := by decide
theorem test_wf_number_refused :
    (Instr.doneOrder .pc 65536).wf = false ∧ (Instr.queryOrder .pc 65536).wf = false ∧
    (Instr.failOrder .pc 1 256 0).wf = false ∧ (Instr.failOrder .pc 1 0 256).wf = false := by decide
theorem test_wf_type_refused :
    (Instr.typeErase .ps 256).wf = false ∧ (Instr.typeSet .ps 256 operands3).wf = false ∧
    (Instr.typeSet .ps 3 { operands3 with dnew := 16777216 }).wf = false ∧
    (Instr.typeSet .ps 3 { operands3 with ddiff := 65536 }).wf = false ∧
    (Instr.typeSet .ps 3 { operands3 with dd := 512 }).wf = false ∧
    (Instr.typeSet .ps 3 { operands3 with wp := 128 }).wf = false ∧
    (Instr.typeSet .ps 3 { operands3 with ppd := 256 }).wf = false ∧
    (Instr.typeSet .ps 3 { operands3 with rchg := 65536 }).wf = false ∧
    (Instr.typeSet .ps 3 { operands3 with stage := 65536 }).wf = false ∧
    (Instr.typeSet .ps 3 { operands3 with pmin := 65536 }).wf = false := by decide
theorem test_wf_type_limits_refused :
    (Instr.typeSet .ps 3 { operands3 with k := 256 }).wf = false ∧
    (Instr.typeSet .ps 3 { operands3 with z := 65536 }).wf = false ∧
    (Instr.typeSet .ps 3 { operands3 with g := 8192 }).wf = false ∧
    (Instr.typeSet .ps 3 { operands3 with flags := 8 }).wf = false ∧
    (Instr.typeSet .ps 3 { operands3 with aeLimit := 65536 }).wf = false ∧
    (Instr.typeSet .ps 3 { operands3 with powerLimit := 65536 }).wf = false ∧
    (Instr.typeSet .ps 3 { operands3 with blank := 65536 }).wf = false ∧
    (Instr.typeSet .ps 3 { operands3 with deglitch := 256 }).wf = false ∧
    (Instr.typeSet .ps 3 { operands3 with factor := 65536 }).wf = false := by decide
theorem test_wf_tool_refused :
    (Instr.enrol .ps 4294967296 3 1 1 0 0).wf = false ∧ (Instr.enrol .ps 1 256 1 1 0 0).wf = false ∧
    (Instr.enrol .ps 1 3 256 1 0 0).wf = false ∧ (Instr.enrol .ps 1 3 1 256 0 0).wf = false ∧
    (Instr.enrol .ps 1 3 1 1 256 0).wf = false ∧ (Instr.enrol .ps 1 3 1 1 1 16777216).wf = false ∧
    (Instr.reinstate .ps 256 3 1 1 0 0).wf = false ∧ (Instr.reinstate .ps 1 3 1 1 1 16777216).wf = false ∧
    (Instr.withdraw .ps 256).wf = false ∧ (Instr.queryTool .ps 256).wf = false := by decide
theorem test_wf_cell_refused :
    (Instr.declarePocket .ps 256).wf = false ∧ (Instr.declarePosition .ps 256).wf = false ∧
    (Instr.assign .ps 0 256).wf = false ∧ (Instr.monitorSet .ps 0 256 1 1).wf = false ∧
    (Instr.routeSet .ps 0 256 0).wf = false ∧ (Instr.timeoutSet .ps 65536).wf = false := by decide
theorem test_wf_accepts :
    (Instr.typeSet .ps 3 operands3).wf = true ∧ (Instr.gauge (.station 0) 2 1048575).wf = true := by decide

/-! ## The spec's worked values -/

/-- 3.8.1. -/
theorem test_partsLeft_worked :
    (type3 1000).partsLeft 50000 = 18597 ∧ (type3 1040).partsLeft 50000 = 17880 ∧ type9.partsLeft 60000 = 65535 ∧
    type9.partsLeft 12000 = 40816 ∧ (type3 1019).partsLeft 5900 = 2023 ∧ (type3 1040).partsLeft 5900 = 1982 := by decide

/-- 3.8.2: PARTS A, n = 12. -/
theorem test_parts_worked :
    ((after (.parts (.station 0) 0 12) base).tool 14).map (fun t => (t.r, t.rem, t.nnom, t.parts)) =
      some (29988, 480, 19512, 7212) := by decide

/-- 3.8.2: DRESS A, n = 1 charges the wheel and the roll. -/
theorem test_dress_worked :
    ((after (.dress (.station 0) 0 1) (after (.parts (.station 0) 0 12) base)).tool 14).map
      (fun t => (t.r, t.rem, t.nnom, t.dresses)) = some (29967, 280, 19532, 601) ∧
    ((after (.dress (.station 0) 0 1) base).tool 30).map (fun t => (t.r, t.rem)) = some (59998, 940) := by decide

/-- 3.8.3: 595,600 µm is blended. -/
theorem test_gauge_blends_worked :
    ((after (.gauge (.station 0) 0 595600) base).tool 14).map (fun t => (t.r, t.doubts, t.gauged)) =
      some (29500, 0, some 595600) := by decide

/-- 3.8.3: 596,060 µm is blended with a step of 75, 596,061 µm is doubted. -/
theorem test_gauge_boundary_worked :
    ((after (.gauge (.station 0) 0 596060) base).tool 14).map (fun t => (t.r, t.doubts)) = some (30075, 0) ∧
    ((after (.gauge (.station 0) 0 596061) base).tool 14).map (fun t => (t.r, t.doubts)) = some (30000, 1) := by decide

/-- The wheel of 3.8.5 before its last part, at S0A. -/
def nearlyWorn : State :=
  (base.setTool 14 (some { wheel with r := 403, rem := 320 })).setPos 0 { holding 14 with required := some 2 }

/-- 3.8.5: with R = 403 and remainder 320, the last part makes the wheel WORN and the position DUE, and sets DUE(A). -/
theorem test_last_part_worked :
    (nearlyWorn.setPos 0 { nearlyWorn.pos 0 with mode := .off }).cycleCode 0 = 7 ∧
    (let t := after (.parts (.station 0) 0 1) nearlyWorn
     (t.tool 14).map (·.condition) = some .worn ∧ (t.pos 0).service = .due ∧ (t.pos 0).dueCause = some .worn ∧
       (t.port (.station 0)).notices = (Notice.due .a).mask) := by decide

/-- An order of S0A. -/
def order (n : Nat) (k : OrderKind) (st : OrderState) (inc out : Option EntryIx) (pocket : Option PocketIx) : Order where
  number := n
  kind := k
  urgent := false
  pos := 0
  incoming := inc
  outgoing := out
  pocket := pocket
  state := st

/-- A cell with one order in its queue and a swap deadline. -/
def withOrder (o : Order) (s : State) : State :=
  { s with ret.queue := [o], ret.counter := 7, vol.swapDeadline := some 600000 }

/-- Entry 20 promised to S0A. -/
def sister (st : ToolState) (pl : Place) : Tool := { stored 810020 4 50000 with state := st, place := pl, promised := some 0 }

/-- The worn wheel of 3.8.6, with the life it comes off with. -/
def worn (st : ToolState) (pl : Place) : Tool :=
  { wheel with state := st, place := pl, condition := .worn, r := 400, nnom := 52000 }

/-- S0A with a need carried by an order. -/
def needing (sv : Service) (n : Need) : Position :=
  { holding 14 with service := sv, required := some 2, need := n, sister := some 20 }

/-- A STAGE of entry 20 to the rack of S0A, not yet taken. -/
def stageReady : State :=
  let s := (base.setTool 20 (some (sister .reserved (.pocket 4)))).setPos 0 { needing .serving .staging with rack := .booked 1 }
  withOrder (order 1 .stage .ready (some 20) none (some 4)) s

/-- The same STAGE, taken. -/
def stageTaken : State :=
  let s := (base.setTool 20 (some (sister .moving .gripper))).setPocket 4 (.booked 1)
  withOrder (order 1 .stage .taken (some 20) none (some 4)) (s.setPos 0 { needing .serving .staging with rack := .booked 1 })

/-- An EXCHANGE of the worn wheel of S0A for entry 20, taken. -/
def exchangeTaken : State :=
  let s := (base.setTool 20 (some (sister .moving .gripper))).setTool 14 (some (worn .moving .gripper))
  let s := s.setPocket 4 .free
  withOrder (order 2 .exchange .taken (some 20) (some 14) none)
    (s.setPos 0 { needing .exchanging .staged with mounted := .booked 2, rack := .booked 2, dueCause := some .worn })

/-- A DIRECT of entry 20 to S0A, taken. -/
def directTaken : State :=
  let s := (base.setTool 20 (some (sister .moving .gripper))).setTool 14 (some (worn .moving .gripper))
  let s := s.setPocket 4 (.booked 3)
  withOrder (order 3 .direct .taken (some 20) (some 14) (some 4))
    (s.setPos 0 { needing .exchanging .staging with
      mounted := .booked 3, rack := .booked 3, dueCause := some .broken, urgent := true })

/-- A REMOVE of the wheel of S0A, taken. -/
def removeTaken : State :=
  withOrder (order 4 .remove .taken none (some 14) none)
    ((base.setTool 14 (some (worn .moving .gripper))).setPos 0
      { holding 14 with service := .exchanging, mounted := .booked 4, rack := .booked 4, dueCause := some .worn })

/-- A RETURN of the worn wheel from the rack of S0A, taken, to pocket 30 or to the chute. -/
def returnTaken (pocket : Option PocketIx) : State :=
  let s := base.setTool 14 (some (worn .moving .gripper))
  let s := pocket.elim s fun k => s.setPocket k (.booked 5)
  withOrder (order 5 .return_ .taken none (some 14) pocket)
    (s.setPos 0 { Position.cold with service := .vacant, rack := .booked 5 })

/-- R99, R100: of equal sisters the lower pocket is chosen; a wheel below Pmin is not eligible (3.8.6: R = 5,900). -/
theorem test_choice_lowest_pocket :
    base.choose 2 = some 20 ∧ base.eligible 2 41 = false ∧
    (base.setTool 41 (some (stored 810041 16 20000))).choose 2 = some 20 := by decide

/-- R93, R114 to R116: ASSIGN of a type whose wheel is at its stage threshold raises a need and posts a STAGE. -/
theorem test_assign_raises_need :
    let t := after (.assign .ps 0 3) (base.setTool 14 (some { wheel with r := 2000 }))
    (t.pos 0).need = .staging ∧ (t.pos 0).rack = .booked 1 ∧ (t.tool 20).map (·.state) = some .reserved ∧
      t.ret.queue.map (fun o => (o.number, o.kind, o.state)) = [(1, .stage, .ready)] := by decide

/-- R124: TAKE hands out the STAGE: the sister is at the GRIPPER and its pocket BOOKED, the deadline 600 s ahead. -/
theorem test_take_stage :
    let t := after (.takeOrder .pc) stageReady
    (t.tool 20).map (fun u => (u.state, u.place)) = some (.moving, .gripper) ∧ t.pocket 4 = .booked 1 ∧
      t.vol.swapDeadline = some 600000 ∧ t.ret.queue.map (·.state) = [.taken] := by decide

/-- R126: the DONE of the STAGE. -/
theorem test_done_stage :
    let t := after (.doneOrder .pc 1) stageTaken
    (t.tool 20).map (fun u => (u.state, u.place)) = some (.staged, .rack 0) ∧ t.pocket 4 = .free ∧
      (t.pos 0).need = .staged ∧ t.ret.queue = [] ∧ (t.port (.station 0)).notices = (Notice.staged .a).mask := by decide

/-- 3.8.6: the DONE of the EXCHANGE teaches type 3. -/
theorem test_done_exchange_learns :
    let t := after (.doneOrder .pc 2) exchangeTaken
    (t.typ 2).map (fun f => (f.factor, f.learnCount)) = some (1019, 8) ∧ (t.pos 0).service = .serving ∧
      (t.pos 0).mounted = .entry 20 ∧ (t.tool 14).map (·.state) = some .offloaded := by decide +kernel

/-- R129: a FAIL with GRIP puts the tools of the EXCHANGE back. -/
theorem test_fail_exchange :
    let t := after (.failOrder .pc 2 0 0) exchangeTaken
    (t.tool 20).map (fun u => (u.state, u.place)) = some (.staged, .rack 0) ∧
      (t.tool 14).map (fun u => (u.state, u.place)) = some (.mounted, .spindle 0) ∧ (t.pos 0).service = .released ∧
      (t.pos 0).failed = 1 := by decide

/-- R133: the expiry of the REMOVE. -/
theorem test_swap_expiry :
    let t := after .swapDeadlineExpiry { removeTaken with vol.ms := 600000 }
    (t.tool 14).map (fun u => (u.state, u.place)) = some (.quarantined, .unknown) ∧ (t.pos 0).service = .uncertain ∧
      (t.pos 0).mounted = .unknown ∧ (t.pos 0).rack = .unknown ∧ t.ret.expired = [4] := by decide

/-- The monitor's limits of 8.10, its two routes given to S0A, the highway LOCKED and the window open. -/
def grinding : State :=
  let s := base.setType 2 (some { type3 1040 with aeLimit := 8000, powerLimit := 12000, blank := 3, deglitch := 3 })
  let s := ((s.setRoute 6 (some ⟨0, .ae⟩)).setRoute 7 (some ⟨0, .power⟩)).setTool 14
    (some { wheel with trips := 4, peakAE := 9700, peakPower := 12900 })
  { (s.setPos 0 { holding 14 with mode := .retry, retryTime := 2, retryLimit := 1, window := true }).setChan 0
      ⟨.watching, 3, 0, 2, none⟩ with vol.lock := .locked }

/-- A frame with the two samples of 8.10, both valid. -/
def frame (ae power : SampleWord) : Vector SampleWord 16 :=
  ((Vector.replicate 16 0x8000).set 6 (0x8000 ||| ae)).set 7 (0x8000 ||| power)

/-- 8.10, delivery 9: the power count reaches 3, the channel trips, and S0A is held for 2,000 ms. -/
theorem test_delivery_trips :
    let t := after (.wellFormedFrame (frame 10300 13400)) grinding
    (t.chan 0).state = .spent ∧ (t.tool 14).map (fun u => (u.trips, u.peakAE, u.peakPower)) = some (5, 10300, 13400) ∧
      (t.pos 0).holdCause = some .retry ∧ (t.chan 0).retryTimer = some 2000 ∧ t.inhibit[0] = true := by decide +kernel

/-- 8.10, delivery 3: the blank count reaches 3, and the frame that ends blanking is not evaluated. -/
theorem test_delivery_ends_blanking :
    let t := after (.wellFormedFrame (frame 9999 13400)) (grinding.setChan 0 ⟨.blanking, 2, 0, 0, none⟩)
    t.chan 0 = ⟨.watching, 3, 0, 0, none⟩ ∧ (t.tool 14).map (·.peakAE) = some 9700 := by decide +kernel

/-- 7.8: a short frame counts as an error, drops the lock and sets HIGHWAY and BLIND. -/
theorem test_short_frame :
    let t := after (.malformedFrame (.short false)) grinding
    t.vol.lock = .hunt ∧ t.vol.errors = 1 ∧ (t.port (.station 0)).notices = Notice.blind.mask ∧
      (t.port .ps).notices = Notice.restarted.mask ||| Notice.retentionLost.mask ||| Notice.highway.mask := by decide

/-- R139: the first low bit after a well-formed frame is an overrun, the next one is ignored. -/
theorem test_overrun_once :
    let t := after (.malformedFrame .overrun) { grinding with vol.line := .complete }
    t.vol.errors = 1 ∧ t.vol.line = .quiet ∧ (after (.malformedFrame .overrun) t).vol.errors = 1 := by decide

/-- R139: the 256 bits of a frame, most significant bit of slot 0 first, are that frame. -/
theorem test_bits_make_a_frame :
    let bits := bitsOf (frame 10300 13400)
    let t := after (.malformedFrame (.sampled (⟨true, bits.headD false⟩ :: bits.tail.map fun d => ⟨false, d⟩))) grinding
    bits.length = 256 ∧ t.vol.line = .complete ∧ (t.tool 14).map (·.peakPower) = some 13400 := by decide +kernel

/-- 8.10: 2,000 ms after the trip the position resumes. -/
theorem test_retry_expiry :
    let t := after (.retryTimerExpiry 0) { after (.wellFormedFrame (frame 10300 13400)) grinding with vol.ms := 2000 }
    (t.pos 0).service = .serving ∧ t.inhibit[0] = false ∧ (t.chan 0).state = .blanking := by decide +kernel

/-- R85, R87: RELEASE, RECLAIM and a VERDICT. -/
theorem test_release_reclaim :
    ((after (.release (.station 0) 0) base).pos 0).service = .released ∧
    ((after (.reclaim (.station 0) 0) (after (.release (.station 0) 0) base)).pos 0).service = .serving := by decide

/-- The check value of the CRC with polynomial x⁸ + x² + x + 1 over the nine digits. -/
theorem test_crc : crc8 [0x31, 0x32, 0x33, 0x34, 0x35, 0x36, 0x37, 0x38, 0x39] = 0xF4 := by decide +kernel

/-- R176, Table 9-1: with an empty mailbox the part sends four zeros and their CRC; FETCH NOTICES empties the set. -/
theorem test_fetches :
    ((after (.fetchReply (.station 0)) base).port (.station 0)).sent = [0, 0, 0, 0, 0] ∧
    ((after (.fetchNotices .ps) base).port .ps).sent.take 2 = [0x00, 0xC0] ∧
    ((after (.fetchNotices .ps) base).port .ps).attn = false := by decide +kernel

/-- R173: a fetch by bytes sends its copy one byte at a time; a transaction of an unknown kind is ignored to its end. -/
theorem test_transactions :
    let t := after (.undecodedRequest .ps ⟨[3, 0, 0], false⟩) base
    (t.port .ps).sent = [0x00, 0xC0] ∧ t.nextByte .ps = some (crc8 [0x00, 0xC0]) ∧ (t.port .ps).notices = 0 ∧
      ((after (.undecodedRequest .ps ⟨[4, 2, 16], false⟩) base).port .ps).reception = .discarded := by decide +kernel

/-- R188: RESET stops a fetch, and the part sends zeros from then on; RESTART lets it go on. R172: the port of an absent
station sends nothing. -/
theorem test_fetch_cut :
    let t := after (.undecodedRequest .pc ⟨[2, 0], false⟩)
      (base.setPort .pc { base.port .pc with mailbox := .fresh ⟨16, .noOrder, []⟩ })
    t.nextByte .pc = some 16 ∧ (after .resetAssert t).nextByte .pc = some 0 ∧
      (after (.restart .ps) t).nextByte .pc = some 16 ∧
      ({ t with strap := ⟨false, false⟩ } : State).nextByte (.station 3) = none := by
  decide +kernel

/-- R9, Table 1-1: TYPE SET stores Lnew = 50,000 and F = 1,000. -/
theorem test_typeSet_defines :
    ((after (.typeSet .ps 3 operands3) State.reset).typ 2).map (fun f => (f.dscrap, f.lnew, f.factor)) =
      some (590000, 50000, 1000) := by decide

/-- R31: ENROL takes the lowest free entry; R33: WITHDRAW frees it. -/
theorem test_enrol_withdraw :
    ((after (.enrol .ps 810003 3 1 1 0 0) base).tool 0).map (fun u => (u.serial, u.r, u.state)) =
      some (810003, 50000, .stored) ∧
    (after (.withdraw .ps 20) base).pocket 4 = .free := by decide

/-- R82, Table 4-5: a position in mode HOLD that is not watched answers STOP_BLIND, an UNCERTAIN one its own code; the P of
entry 14 is 10,670 (3.8.2). -/
theorem test_check_answers :
    base.checkAnswer 0 = [4, 3, 0, 0x29, 0xAE] ∧ base.cycleCode 1 = 1 := by decide

/-- R151, R152: OPEN opens the window and begins blanking; CLOSE makes the channel IDLE. -/
theorem test_open_close :
    let t := after (.openWindow (.station 0) 0) base
    (t.pos 0).window = true ∧ t.chan 0 = ⟨.blanking, 0, 0, 0, none⟩ ∧
      ((after (.closeWindow (.station 0) 0) t).chan 0).state = .idle := by decide

/-- R138: RESTART puts the TAKEN order in doubt with a full deadline from the new count 0. -/
theorem test_restart_in_doubt :
    let t := after (.restart .ps) { stageTaken with vol.ms := 5000 }
    t.ret.queue.map (·.state) = [.inDoubt] ∧ t.vol.swapDeadline = some 600000 ∧ t.vol.ms = 0 := by decide +kernel

/-- R41, R71: a power-on with the VBAT latch set is cold, and a strap of NST0 high and NST1 low gives 2 stations. -/
theorem test_powerOn_cold :
    let t := after (.powerOnStart ⟨true, false⟩) { after .mainSupplyFail base with vbatLatch := true }
    t.tool 14 = none ∧ t.lastStart = .cold ∧ t.present 5 = true ∧ t.present 6 = false ∧ t.vbatLatch = false := by
  decide +kernel

/-- R44, R170: RESET asserts every INHIBIT line. -/
theorem test_reset_inhibits : ∀ n : Fin 4, (after .resetAssert base).inhibit[n] = true := by decide

/-! ## Witnesses: each statement's hypotheses, met by a concrete state and operands

A theorem here spells the hypotheses of the statement it is named after, with boundary values where a clause has a range. -/

/-- S0A in another service state, the causes as given. -/
def s0a (sv : Service) (due : Option DueCause) (hold : Option HoldCause) (res : Option Resume) : State :=
  base.setPos 0 { holding 14 with service := sv, dueCause := due, holdCause := hold, resume := res }

theorem witness_PartsCharges :
    base.listening (.station 0) = true ∧ (Slot.a ≠ .d ∧ 1 ≤ 1 ∧ 15 ≤ 15) ∧ (base.pos (posAt 0 .a)).service = .serving ∧
    base.mountedTool (posAt 0 .a) = some (14, wheel) := by decide

/-- The clause of the stage trigger: after its last part the wheel of 3.8.5 is at its stage threshold. -/
theorem witness_PartsCharges_need :
    nearlyWorn.listening (.station 0) = true ∧ (nearlyWorn.pos (posAt 0 .a)).required.isSome = true ∧
    (nearlyWorn.pos (posAt 0 .a)).suspended = false ∧
    nearlyWorn.mountedTool (posAt 0 .a) = some (14, { wheel with r := 403, rem := 320 }) ∧
    nearlyWorn.partsLeft { wheel with r := 400, rem := 0 } ≤ (nearlyWorn.figures wheel.type).stage := by decide

theorem witness_DressChargesBoth :
    base.listening (.station 0) = true ∧ ((14 : EntryIx) ≠ 30 ∧ 1 ≤ 1 ∧ 15 ≤ 15) ∧
    (base.pos (posAt 0 .a)).service = .serving ∧ (base.pos (posAt 0 .d)).service = .serving ∧
    base.mountedTool (posAt 0 .a) = some (14, wheel) ∧ base.mountedTool (posAt 0 .d) = some (30, roll) := by decide

theorem witness_GaugeBlends :
    base.listening (.station 0) = true ∧ 596060 ≤ 1048575 ∧ (base.pos (posAt 0 .a)).service = .serving ∧
    base.mountedTool (posAt 0 .a) = some (14, wheel) ∧
    (let f := base.figures wheel.type
     (¬596060 ≤ f.dscrap ∧ ¬f.dnew ≤ 596060) ∧ 5 * (596060 - f.dscrap) = wheel.r + f.g) := by decide

theorem witness_GaugeDoubts :
    base.listening (.station 0) = true ∧ 596061 ≤ 1048575 ∧ (base.pos (posAt 0 .a)).service = .serving ∧
    base.mountedTool (posAt 0 .a) = some (14, wheel) ∧
    (let f := base.figures wheel.type
     (¬596061 ≤ f.dscrap ∧ ¬f.dnew ≤ 596061) ∧ wheel.r + f.g < 5 * (596061 - f.dscrap)) := by decide

theorem witness_OpenStartsChannel :
    base.listening (.station 0) = true ∧ (base.pos (posAt 0 .a)).window = false ∧
    (base.pos (posAt 0 .a)).service = .serving := by decide

theorem witness_CloseIdlesChannel :
    (base.listening .pc = true ∧ base.listening .ps = true) ∧
    base.listening (.station 3) = true ∧ 3 ≤ 3 ∧ (grinding.pos (posAt 0 .a)).window = true := by decide

/-- S0A requires type 3. -/
def requiring : State := base.setPos 0 { holding 14 with required := some 2 }

theorem witness_SpindleIsGivenAndTakenBack :
    (base.listening (.station 0) = true ∧ (base.pos (posAt 0 .a)).service = .serving ∧
      (base.pos (posAt 0 .a)).window = false) ∧
    (nearlyWorn.mountedTool (posAt 0 .a) = some (14, { wheel with r := 403, rem := 320 }) ∧
      (nearlyWorn.pos (posAt 0 .a)).required = some 2 ∧ (nearlyWorn.pos (posAt 0 .a)).suspended = false ∧
      nearlyWorn.partsLeft { wheel with r := 403, rem := 320 } ≤ (nearlyWorn.figures 2).stage) ∧
    (s0a .released (some .worn) none none).listening (.station 0) = true ∧
    ((s0a .released (some .worn) none none).pos (posAt 0 .a)).service = .released := by decide

/-- S0A is SERVING with its sister STAGED. -/
def stagedWhileServing : State :=
  ((base.setTool 20 (some (sister .staged (.rack 0)))).setPocket 4 .free).setPos 0
    { needing .serving .staged with rack := .entry 20 }

/-- R95, R116: the RELEASE of a position with a STAGED sister posts its EXCHANGE, one without required type its REMOVE. -/
theorem witness_SpindleIsGivenAndTakenBack_posts :
    (stagedWhileServing.listening (.station 0) = true ∧
      (let p := stagedWhileServing.pos (posAt 0 .a)
       p.service = .serving ∧ p.window = false ∧ p.suspended = false ∧ p.need = .staged ∧ p.sister = some 20 ∧
         p.rack = .entry 20) ∧
      (stagedWhileServing.tool 20).map (·.state) = some .staged ∧ stagedWhileServing.standing = []) ∧
    (let t := after (.release (.station 0) 0) stagedWhileServing
     t.ret.queue.map (fun o => (o.kind, o.incoming, o.outgoing)) = [(.exchange, some 20, some 14)]) ∧
    ((base.pos 0).required = none ∧ (base.pos 0).rack = .bare ∧ (base.pos 0).need = .noNeed) ∧
    (let t := after (.release (.station 0) 0) base
     t.ret.queue.map (fun o => (o.kind, o.outgoing)) = [(.remove, some 14)] ∧ (t.pos 0).rack = .booked 1) := by decide

/-- R75: a RECLAIM of a position with a due cause makes it DUE with the notice DUE(A). -/
theorem test_reclaim_sets_due :
    let t := after (.reclaim (.station 0) 0) (s0a .released (some .worn) none none)
    (t.pos 0).service = .due ∧ (t.port (.station 0)).notices = (Notice.due .a).mask := by decide

theorem witness_VerdictsJudge :
    ((s0a .held (some .worn) (some .trip) (some .due)).listening (.station 0) = true ∧
      ((s0a .held (some .worn) (some .trip) (some .due)).pos (posAt 0 .a)).service = .held) ∧
    requiring.listening (.station 0) = true ∧ (requiring.pos (posAt 0 .a)).service = .serving ∧
    requiring.mountedTool (posAt 0 .a) = some (14, wheel) ∧ (requiring.pos (posAt 0 .a)).required.isSome = true ∧
    (requiring.pos (posAt 0 .a)).suspended = false := by decide

theorem witness_MonitorSetStores :
    base.listening .ps = true ∧ base.present 11 = true ∧ (8 = 1 ∨ 8 = 2 ∨ 8 = 4 ∨ 8 = 8) ∧ 1 ≤ 7 ∧ 7 ≤ 7 := by decide

/-- S0A after two failed orders. -/
def suspended : State := base.setPos 0 { holding 14 with suspended := true, failed := 2 }

theorem witness_TypeSetDefines :
    base.listening .ps = true ∧ typeSetInRange operands3 = true ∧ (∀ i u, base.tool i = some u → u.type ≠ 15) ∧
    (∀ x, (base.pos x).required ≠ some 15) ∧ base.typ 15 = none :=
  ⟨by decide, by decide, all_tools (by decide), by decide, by decide⟩

theorem witness_TypeSetEdits :
    base.listening .ps = true ∧ typeSetInRange operands3 = true ∧ base.typ 2 = some (type3 1040) ∧
    (type3 1040).kind = kindOf operands3 ∧ (type3 1040).dnew = operands3.dnew ∧
    (type3 1040).dscrap = operands3.dnew - operands3.ddiff := by decide

/-- Type 16 DEFINED, and in use by nothing. -/
def spareType : State := base.setType 15 (some (type3 1000))

theorem witness_TypeEraseChecksAndErases :
    spareType.listening .ps = true ∧ (17 = 0 ∨ 16 < 17) ∧ spareType.typ 0 = none ∧
    (spareType.typ 2 ≠ none ∧ ∃ i u, spareType.tool i = some u ∧ u.type = 2) ∧
    spareType.typ 15 ≠ none ∧ (∀ i u, spareType.tool i = some u → u.type ≠ 15) ∧
    ∀ x, (spareType.pos x).required ≠ some 15 :=
  ⟨by decide, by decide, by decide, ⟨by decide, 14, wheel, by decide, by decide⟩, by decide, all_tools (by decide),
    by decide⟩

theorem witness_EnrolMakesLive :
    base.listening .ps = true ∧ (1 ≤ 4294967295 ∧ 4294967295 ≤ 4294967295) ∧ 50000 ≤ (type3 1040).lnew ∧
    base.typ 2 = some (type3 1040) ∧ (∀ j u, base.tool j = some u → u.serial ≠ 4294967295) ∧ base.tool 0 = none ∧
    (∀ j : EntryIx, j < 0 → base.tool j ≠ none) ∧ base.pocket 47 = .free ∧
    (base.present 10 = true ∧ (slotOf 10).kind = ToolKind.wheel ∧ (base.pos 10).rack = .bare) ∧
    (base.pos 10).service = .uncertain ∧ ∀ j, (base.pos 10).mounted ≠ .entry j :=
  ⟨by decide, by decide, by decide, by decide, all_tools (by decide), by decide, by decide, by decide, by decide,
    by decide, by decide⟩

/-- S0A is VACANT and waits for a wheel of type 3, and so does S1A behind it; no wheel is eligible. -/
def waitsForWheel (s : State) : State :=
  let p : Position := { Position.cold with service := .vacant, required := some 2, need := .waiting }
  { (s.setPos 0 p).setPos 3 p with ret.waiting := [0, 3] }

/-- No wheel of type 3 is in store. -/
def noWheels : State := waitsForWheel (((base.setTool 20 none).setPocket 4 .free).setTool 14 none)

/-- R32, R105: the new wheel becomes the sister of the first candidate. -/
theorem witness_EnrolMakesLive_serves :
    (noWheels.listening .ps = true ∧ (type3 1040).pmin ≤ (type3 1040).partsLeft (type3 1040).lnew ∧
      (∀ j, noWheels.eligible 2 j = false) ∧ noWheels.pocket 47 = .free) ∧
    FirstCandidate noWheels 2 0 ∧
    (let t := after (.enrol .ps 810003 3 1 48 0 0) noWheels
     (t.pos 0).sister = some 0 ∧ (t.pos 0).need = .staging ∧ t.ret.waiting = [3]) :=
  ⟨by decide, ⟨by decide, [], [3], rfl, nofun⟩, by decide⟩

/-- A cell with entry 20 OFFLOADED on the rack of S1A, and one with it QUARANTINED in its pocket. -/
def offloaded : State :=
  ((base.setTool 20 (some { stored 810020 4 20000 with state := .offloaded, place := .rack 3 })).setPocket 4 .free).setPos 3
    { Position.cold with rack := .entry 20 }

def quarantined : State := base.setTool 20 (some { stored 810020 4 20000 with state := .quarantined })

/-- The QUARANTINED tool, with type 16 DEFINED. -/
def spareQuarantined : State := quarantined.setType 15 (some (type3 1000))

theorem witness_WithdrawFrees :
    (base.listening .ps = true ∧ (base.tool 20).map (·.state) = some .stored) ∧
    (quarantined.listening .ps = true ∧ (quarantined.tool 20).map (·.state) = some .quarantined) ∧
    offloaded.listening .ps = true ∧ (offloaded.tool 20).map (·.state) = some .offloaded ∧
    ∀ o ∈ offloaded.standing, o.incoming ≠ some 20 ∧ o.outgoing ≠ some 20 := by decide

theorem witness_ReinstateRestores :
    quarantined.listening .ps = true ∧ (quarantined.tool 20).map (·.state) = some .quarantined ∧
    (quarantined.tool 20).map (·.type) = some 2 ∧ quarantined.typ 2 = some (type3 1040) ∧ 50000 ≤ (type3 1040).lnew ∧
    quarantined.pocket 4 = .holds 20 ∧ quarantined.pocket 47 = .free ∧
    (quarantined.present 10 = true ∧ (slotOf 10).kind = ToolKind.wheel ∧ (quarantined.pos 10).rack = .bare) ∧
    (quarantined.pos 10).service = .uncertain ∧ ∀ j, (quarantined.pos 10).mounted ≠ .entry j := by decide

/-- R38, R105: the reinstated wheel becomes the sister of the first candidate. -/
theorem witness_ReinstateRestores_serves :
    (let s := waitsForWheel quarantined
     s.listening .ps = true ∧ (s.tool 20).map (·.state) = some .quarantined ∧ (∀ j, s.eligible 2 j = false) ∧
       (type3 1040).pmin ≤ (type3 1040).partsLeft 20000 ∧ s.ret.waiting = [0, 3]) ∧
    (let t := after (.reinstate .ps 20 0 1 48 0 0) (waitsForWheel quarantined)
     (t.pos 0).sister = some 20 ∧ t.ret.waiting = [3]) := by decide

/-- A cell with an UNKNOWN pocket and an UNKNOWN rack. -/
def unknowns : State := (base.setPocket 47 .unknown).setPos 0 { holding 14 with rack := .unknown }

theorem witness_DeclareFreesAndJudges :
    (unknowns.listening .ps = true ∧ unknowns.pocket 47 = .unknown) ∧
    (unknowns.present 0 = true ∧ (unknowns.pos 0).rack = .unknown) ∧
    unknowns.present 11 = true ∧ (unknowns.pos 11).service = .uncertain := by decide

theorem witness_AssignStoresAndCancels :
    base.listening .ps = true ∧ base.present 0 = true ∧ (∃ f, base.typ 2 = some f ∧ f.kind = (slotOf 0).kind) ∧
    (base.pos 0).required = none ∧ (base.pos 0).required ≠ some 2 :=
  ⟨by decide, by decide, ⟨type3 1040, by decide, by decide⟩, by decide, by decide⟩

theorem witness_RouteSetReplaces :
    grinding.listening .ps = true ∧ (255 = 255 ∧ 1 ≤ 1) ∧ (11 : PosIx).val = 11 ∧ Signal.power.num = 1 ∧ grinding.present 11 = true ∧
    (∀ k : HwSlot, k ≠ 15 → grinding.route k ≠ some ⟨11, .power⟩) ∧ grinding.route 6 = some ⟨0, .ae⟩ := by decide

theorem witness_SettingsAreStored :
    base.listening .ps = true ∧ (30 ≤ 30 ∧ 30 ≤ 1800) ∧ (30 ≤ 1800 ∧ 1800 ≤ 1800) ∧ base.present 11 = true ∧
    suspended.listening .ps = true ∧ suspended.present 0 = true ∧ (suspended.pos 0).suspended = true := by decide

theorem witness_TakeHandsOut :
    stageReady.listening .pc = true ∧ stageReady.busyOrder = none ∧
    stageReady.nextOrder = some (order 1 .stage .ready (some 20) none (some 4)) := by decide

/-- The orders of the states above have the shape of Table 6-2. -/
theorem shaped_exchange : (order 2 .exchange .taken (some 20) (some 14) none).Shaped exchangeTaken := by
  constructor <;> decide

theorem shaped_direct : (order 3 .direct .taken (some 20) (some 14) (some 4)).Shaped directTaken := by
  constructor <;> decide

theorem shaped_stage : (order 1 .stage .taken (some 20) none (some 4)).Shaped stageTaken := by constructor <;> decide

theorem witness_DoneStageArrives :
    stageTaken.listening .pc = true ∧ stageTaken.busyOrder = some (order 1 .stage .taken (some 20) none (some 4)) ∧
    stageTaken.present 0 = true ∧ stageTaken.tool 20 = some (sister .moving .gripper) := by decide

/-- The same STAGE, its position RELEASED; and with the promise removed. -/
def stageTakenReleased : State := stageTaken.setPos 0 { needing .released .staging with rack := .booked 1 }

def stageUnpromised : State :=
  (stageTaken.setTool 20 (some { sister .moving .gripper with promised := none })).setPos 0
    { holding 14 with rack := .booked 1 }

/-- R95, R116, R117: what the DONE of a STAGE posts. -/
theorem witness_DoneStageArrives_posts :
    ((stageTakenReleased.pos 0).suspended = false ∧ (stageTakenReleased.pos 0).rack = .booked 1 ∧
      stageTakenReleased.standing.length ≤ 40 ∧ (stageTakenReleased.pos 0).sister = some 20 ∧
      ∀ q ∈ stageTakenReleased.standing, ¬(q.kind = .exchange ∧ q.pos = 0)) ∧
    (after (.doneOrder .pc 1) stageTakenReleased).ret.queue.map (fun o => (o.kind, o.incoming)) =
      [(.exchange, some 20)] ∧
    ((stageUnpromised.tool 20).map (·.promised) = some none ∧ (stageUnpromised.pos 0).rack = .booked 1 ∧
      OrderLaw stageUnpromised ∧ NamedByNoOther stageUnpromised 1 20) ∧
    (let t := after (.doneOrder .pc 1) stageUnpromised
     t.ret.queue.map (fun o => (o.kind, o.outgoing, o.pocket)) = [(.return_, some 20, some 0)] ∧
       t.pocket 0 = .booked 7) :=
  ⟨by decide, by decide, ⟨by decide, by decide, by constructor <;> decide, by unfold NamedByNoOther; decide⟩, by decide⟩

theorem witness_DoneExchangeMounts :
    (exchangeTaken.listening .pc = true ∧
      exchangeTaken.busyOrder = some (order 2 .exchange .taken (some 20) (some 14) none) ∧
      (order 2 .exchange .taken (some 20) (some 14) none).Shaped exchangeTaken ∧ exchangeTaken.present 0 = true ∧
      exchangeTaken.tool 20 = some (sister .moving .gripper)) ∧
    directTaken.listening .pc = true ∧
      directTaken.busyOrder = some (order 3 .direct .taken (some 20) (some 14) (some 4)) ∧
      (order 3 .direct .taken (some 20) (some 14) (some 4)).Shaped directTaken ∧
      directTaken.tool 20 = some (sister .moving .gripper) :=
  ⟨⟨by decide, by decide, shaped_exchange, by decide, by decide⟩, by decide, by decide, shaped_direct, by decide⟩

/-- R95, R117: the DONE of the EXCHANGE posts the RETURN of the worn wheel to the chute. -/
theorem witness_DoneExchangeMounts_posts :
    ((exchangeTaken.pos 0).suspended = false ∧ (exchangeTaken.pos 0).rack = .booked 2 ∧
      OrderLaw exchangeTaken ∧ NamedByNoOther exchangeTaken 2 14 ∧ ConcernsOnly exchangeTaken 0 2) ∧
    (after (.doneOrder .pc 2) exchangeTaken).ret.queue.map (fun o => (o.kind, o.outgoing, o.pocket)) =
      [(.return_, some 14, none)] := by
  refine ⟨⟨by decide, by decide, by constructor <;> decide, by unfold NamedByNoOther; decide, fun y hy a u h => ?_,
      by decide⟩,
    by decide +kernel⟩
  have : ∀ y, y ≠ 0 → (exchangeTaken.mountedTool y).all (fun m => decide (m.2.type ≠ 2)) = true := by decide
  simpa [h] using this y hy

/-- R95, R117: so does the DONE of the REMOVE. -/
theorem witness_DoneRemoveVacates_posts :
    ((removeTaken.pos 0).suspended = false ∧ (removeTaken.pos 0).rack = .booked 4 ∧ OrderLaw removeTaken ∧
      NamedByNoOther removeTaken 4 14 ∧ ConcernsOnly removeTaken 0 2) ∧
    (after (.doneOrder .pc 4) removeTaken).ret.queue.map (fun o => (o.kind, o.outgoing, o.pocket)) =
      [(.return_, some 14, none)] := by
  refine ⟨⟨by decide, by decide, by constructor <;> decide, by unfold NamedByNoOther; decide, fun y hy a u h => ?_,
      by decide⟩,
    by decide +kernel⟩
  have : ∀ y, y ≠ 0 → (removeTaken.mountedTool y).all (fun m => decide (m.2.type ≠ 2)) = true := by decide
  simpa [h] using this y hy

theorem witness_DoneRemoveVacates :
    removeTaken.listening .pc = true ∧ removeTaken.busyOrder = some (order 4 .remove .taken none (some 14) none) ∧
    removeTaken.present 0 = true ∧ removeTaken.tool 14 = some (worn .moving .gripper) := by decide

theorem witness_DoneReturnStores :
    ((returnTaken none).listening .pc = true ∧
      (returnTaken none).busyOrder = some (order 5 .return_ .taken none (some 14) none) ∧
      (returnTaken none).tool 14 = some (worn .moving .gripper)) ∧
    (returnTaken (some 30)).listening .pc = true ∧
      (returnTaken (some 30)).busyOrder = some (order 5 .return_ .taken none (some 14) (some 30)) ∧
      (returnTaken (some 30)).tool 14 = some (worn .moving .gripper) := by decide

/-- R105: a SOUND wheel that comes back to store becomes the sister of the first candidate. -/
theorem witness_DoneReturnStores_serves :
    let s := (waitsForWheel (returnTaken (some 30))).setTool 14 (some { wheel with state := .moving, place := .gripper })
    let s := (s.setTool 20 none).setPos 6 { Position.cold with service := .vacant, rack := .booked 5 }
    let s := withOrder { order 5 .return_ .taken none (some 14) (some 30) with pos := 6 } s
    (s.listening .pc = true ∧ s.present 6 = true ∧ (∀ j, s.eligible 2 j = false) ∧
      (s.figures 2).pmin ≤ s.partsLeft wheel ∧ s.ret.waiting = [0, 3]) ∧
    (let t := after (.doneOrder .pc 5) s
     (t.pos 0).sister = some 14 ∧ t.ret.waiting = [3]) := by decide

theorem witness_FailPutsBack :
    stageTaken.listening .pc = true ∧ stageTaken.busyOrder = some (order 1 .stage .taken (some 20) none (some 4)) ∧
    (order 1 .stage .taken (some 20) none (some 4)).Shaped stageTaken ∧ stageTaken.present 0 = true :=
  ⟨by decide, by decide, shaped_stage, by decide⟩

/-- A STAGE, taken, whose need was cancelled and raised again WAITING, with one failed order before it. -/
def failsTwice : State :=
  let s := (base.setTool 20 (some { sister .moving .gripper with promised := none })).setPocket 4 (.booked 1)
  let s := withOrder (order 1 .stage .taken (some 20) none (some 4)) s
  { s.setPos 0 { needing .serving .waiting with sister := none, rack := .booked 1, failed := 1 } with ret.waiting := [0] }

/-- R129, R130: the returned tool is reserved for the waiting position before the count suspends it. -/
theorem witness_FailPutsBack_suspends :
    (failsTwice.listening .pc = true ∧
      failsTwice.busyOrder = some (order 1 .stage .taken (some 20) none (some 4)) ∧
      (order 1 .stage .taken (some 20) none (some 4)).Shaped failsTwice ∧ failsTwice.present 0 = true ∧
      (failsTwice.pos 0).failed = 1) ∧
    (let t := after (.failOrder .pc 1 0 0) failsTwice
     (t.pos 0).need = .reserved ∧ (t.pos 0).sister = some 20 ∧ (t.pos 0).suspended = true ∧ (t.pos 0).failed = 2 ∧
       t.ret.queue = []) :=
  ⟨⟨by decide, by decide, by constructor <;> decide, by decide, by decide⟩, by decide⟩

theorem witness_FailEmptyLosesTool :
    exchangeTaken.listening .pc = true ∧
    exchangeTaken.busyOrder = some (order 2 .exchange .taken (some 20) (some 14) none) ∧
    (order 2 .exchange .taken (some 20) (some 14) none).Shaped exchangeTaken ∧ exchangeTaken.present 0 = true :=
  ⟨by decide, by decide, shaped_exchange, by decide⟩

/-- The deadline of the EXCHANGE is reached. -/
def exchangeLate : State := { exchangeTaken with vol.ms := 600000 }

theorem witness_SwapExpiryLosesPlaces :
    exchangeLate.running = true ∧ exchangeLate.busyOrder = some (order 2 .exchange .taken (some 20) (some 14) none) ∧
    exchangeLate.vol.swapDeadline = some exchangeLate.vol.ms := by decide

/-- S0A held with cause RETRY, its timer reached. -/
def retryDue : State :=
  (s0a .held none (some .retry) (some .serving)).setChan 0 ⟨.spent, 0, 0, 0, some 0⟩

theorem witness_RetryExpiryEndsHold :
    retryDue.running = true ∧ retryDue.present 0 = true ∧ (retryDue.chan 0).retryTimer = some retryDue.vol.ms ∧
    (retryDue.pos 0).service = .held ∧ (retryDue.pos 0).holdCause = some .retry := by decide

theorem witness_TickAdvancesCount :
    base.running = true ∧ base.vol.lossDeadline ≠ some base.vol.ms ∧
    (base.busyOrder ≠ none → base.vol.swapDeadline ≠ some base.vol.ms) ∧
    (∀ x, (base.chan x).retryTimer ≠ some base.vol.ms) ∧ (after .resetAssert base).running = false := by decide

theorem witness_WellFormedFrameIsTaken :
    (base.running = true ∧ base.vol.lock = .hunt ∧ base.vol.lockCount ≤ 2) ∧
    (let s : State := { base with vol.lockCount := 2 }
     s.running = true ∧ s.vol.lock = .hunt ∧ s.vol.lockCount ≤ 2) ∧
    (let s : State := { base with vol.lockCount := 3 }
     s.running = true ∧ s.vol.lock = .hunt ∧ s.vol.lockCount = 3) ∧
    grinding.running = true ∧ grinding.vol.lock = .locked := by decide

theorem witness_LockIsDropped :
    grinding.running = true ∧ grinding.vol.lossDeadline ≠ some grinding.vol.ms ∧
    ({ grinding with vol.lossDeadline := some 0 } : State).vol.lossDeadline = some grinding.vol.ms ∧
    (∀ bits, grinding.vol.line ≠ .receiving bits) ∧
    ∃ d rest, d :: rest = ((List.finRange 16).flatMap fun h : Fin 16 =>
      (List.range 16).map fun j => (frame 1 2)[h].getLsbD (15 - j)) :=
  ⟨by decide, by decide, by decide, nofun, _, _, rfl⟩

theorem witness_WarmStartKeepsRetained :
    stageTaken.listening .ps = true ∧
    (let s : State := { stageTaken with resetHeld := true }
     s.resetHeld = true ∧ s.supplyOn = true ∧ s.started = true) ∧
    (let s : State := { State.reset with started := false, supplyOn := false }
     s.started = false ∧ s.resetHeld = false ∧ s.vbatLatch = false ∧ s.marker = true ∧ s.checkByte = checkByteOf s.ret) ∧
    (let s : State := { State.reset with started := false, resetHeld := true }
     s.started = false ∧ s.resetHeld = true ∧ s.supplyOn = true ∧ s.vbatLatch = false ∧ s.marker = true ∧
       s.checkByte = checkByteOf s.ret) :=
  ⟨by decide, by decide, ⟨rfl, rfl, rfl, rfl, rfl⟩, rfl, rfl, rfl, rfl, rfl, rfl⟩

/-- R113: the start arbitrates for the waiting positions, and the hand-off posts the STAGE of the first. -/
theorem witness_WarmStartKeepsRetained_arbitrates :
    let t := after (.restart .ps) (waitsForWheel base)
    (waitsForWheel base).listening .ps = true ∧ stageTaken.ret.waiting = [] ∧ (t.pos 0).sister = some 20 ∧
      t.ret.waiting = [3] ∧ t.ret.queue.map (·.kind) = [.stage] ∧ t.ret.counter = 2 := by decide +kernel

theorem witness_ColdStartResets :
    (let s : State := { base with started := false, supplyOn := false, vbatLatch := true }
     s.started = false ∧ s.vbatLatch = true ∧ s.resetHeld = false) ∧
    (let s : State := { base with started := false, marker := false, resetHeld := true }
     s.started = false ∧ s.marker = false ∧ s.resetHeld = true ∧ s.supplyOn = true) := by decide

theorem witness_ResetAndSupplies :
    base.resetHeld = false ∧ (after .resetAssert base).resetHeld = true ∧
    (∀ pins, Instr.millisecondTick ≠ .resetRelease pins ∧ Instr.millisecondTick ≠ .powerOnStart pins) ∧
    Instr.millisecondTick ≠ .mainSupplyFail ∧ Instr.millisecondTick ≠ .vbatLowLatch :=
  ⟨by decide, by decide, fun _ => ⟨nofun, nofun⟩, nofun, nofun⟩

theorem witness_QueriesAnswer :
    (base.listening (.station 3) = true ∧ base.listening .pc = true ∧ base.listening .ps = true) ∧
    (base.tool 14 = some wheel ∧ wheel.state = .mounted ∧ wheel.place = .spindle (posAt 0 .a)) ∧
    stageReady.ret.queue = [order 1 .stage .ready (some 20) none (some 4)] ∧
    (∀ o ∈ stageReady.standing, (∀ q ∈ stageReady.standing, q.number = o.number → q = o) ∧ o.number ≠ 0) ∧
    (∀ q ∈ stageReady.standing, q.number ≠ 65535) ∧ base.ret.queue = [] ∧ base.present 11 = true ∧ base.tool 0 = none ∧
    (stageReady.standing.map (·.number)).Nodup ∧ base.typ 0 = none ∧ base.typ 2 = some (type3 1040) := by decide

theorem witness_FrameChecks :
    (base.listening (.station 3) = true ∧ (base.port (.station 3)).reception = .idle) ∧ [(0 : Byte)].length < 2 ∧
    (recordLength 99 = none ∧ recordLength 2 = some 2 ∧ 2 ≠ 3) ∧
    (∃ body : List Byte, body.length = 3 ∧ crc8 body ≠ 0xFF ∧ body ++ [0xFF] = [2, 2, 0, 0xFF]) :=
  ⟨by decide, by decide, by decide, [2, 2, 0], by decide, by decide +kernel, by decide⟩

/-- The three answers of FrameChecks: a wrong CRC, a code that no row has, a length that does not fit. -/
theorem test_frame_checks :
    let crc (l : List Byte) := l ++ [crc8 l]
    let request (l : List Byte) := Instr.undecodedRequest .pc ⟨1 :: l, true⟩
    answerTo .pc (request [2, 16, 0, 0]) base = some (0, .frame) ∧
    answerTo .pc (request (crc [2, 99, 0])) base = some (99, .unknown) ∧
    answerTo .pc (request (crc [3, 16, 0, 0])) base = some (16, .frame) ∧
    answerTo .pc (request (crc [2, 16, 0])) base = some (16, .noOrder) := by decide +kernel

/-- R86: a verdict that is neither OK nor BROKEN, and a target of DECLARE that is neither pocket nor position. -/
theorem test_no_encoding :
    let crc (l : List Byte) := l ++ [crc8 l]
    let request (p : Port) (l : List Byte) := Instr.undecodedRequest p ⟨1 :: crc l, true⟩
    answerTo (.station 0) (request (.station 0) [3, 9, 0, 2]) base = some (9, .range) ∧
    answerTo .ps (request .ps [3, 9, 0, 2]) base = some (9, .role) ∧
    answerTo .ps (request .ps [3, 37, 0, 1]) base = some (37, .range) ∧
    answerTo .pc (request .pc [3, 37, 3, 1]) base = some (37, .role) := by decide +kernel

theorem witness_TransactionsByKind :
    ((after .resetAssert base).running = false ∧ base.running = true ∧ base.enabled .pc = true) ∧
    (base.port .pc).reception = .idle ∧ ((4 : Byte) ≠ 1 ∧ (4 : Byte) ≠ 2 ∧ (4 : Byte) ≠ 3) ∧
    (withCrc (base.port .pc).mailbox.bytes).length = 5 ∧ (withCrc (noticeBytes (base.port .pc).notices)).length = 3 ∧
    ((after (.undecodedRequest .pc ⟨[0], false⟩) base).port .pc).reception = .discarded := by decide +kernel

theorem witness_FetchesSend : base.running = true ∧ base.enabled (.station 3) = true := by decide

theorem witness_RefusalsChangeNothing :
    (Instr.takeOrder .pc).port = some .pc ∧ Instr.takeOrder .pc ≠ .fetchReply .pc ∧
    Instr.takeOrder .pc ≠ .fetchNotices .pc ∧ base.listening .pc = true ∧
    answerTo .pc (.takeOrder .pc) base = some (16, .noOrder) := by decide

/-- The clause of a REQUEST transaction. -/
theorem witness_RefusalsChangeNothing_transaction :
    (∀ sent, Instr.undecodedRequest .pc ⟨[1, 2, 16, 0, 0], true⟩ = .undecodedRequest .pc sent →
      (base.port .pc).reception = .idle ∧ sent.released = true ∧ ∃ bytes, sent.bytes = 1 :: bytes) ∧
    base.listening .pc = true :=
  ⟨by rintro _ ⟨⟩; exact ⟨by decide, rfl, _, rfl⟩, by decide⟩

/-- A bound that a clause names, met on both sides. -/
theorem witness_StationChecks :
    (base.listening .pc = true ∧ base.listening .ps = true ∧ base.listening (.station 0) = true) ∧
    answerTo .pc (.parts .pc 0 1) base = some (4, .role) ∧
    answerTo (.station 0) (.parts (.station 0) 2 1) base = some (4, .range) ∧
    answerTo (.station 0) (.parts (.station 0) 0 0) base = some (4, .range) ∧
    answerTo (.station 0) (.parts (.station 0) 0 16) base = some (4, .range) ∧
    answerTo (.station 0) (.parts (.station 0) 0 15) base = some (4, .accepted) ∧
    answerTo (.station 0) (.parts (.station 0) 1 15) base = some (4, .state) ∧
    answerTo (.station 0) (.gauge (.station 0) 3 1) base = some (6, .range) ∧
    answerTo (.station 0) (.gauge (.station 0) 0 1048576) base = some (6, .range) ∧
    answerTo (.station 0) (.gauge (.station 0) 1 1048575) base = some (6, .state) ∧
    answerTo (.station 0) (.openWindow (.station 0) 1) base = some (2, .state) ∧
    answerTo (.station 0) (.reclaim (.station 0) 0) base = some (8, .state) ∧
    answerTo (.station 0) (.verdictOk (.station 0) 0) base = some (9, .state) := by decide +kernel

theorem witness_ChangerChecks :
    base.listening .ps = true ∧ base.listening .pc = true ∧ stageTaken.busyOrder.isSome = true ∧
    answerTo .ps (.takeOrder .ps) base = some (16, .role) ∧
    answerTo .pc (.takeOrder .pc) stageTaken = some (16, .busy) ∧
    answerTo .pc (.takeOrder .pc) base = some (16, .noOrder) ∧
    answerTo .pc (.failOrder .pc 1 3 0) stageTaken = some (18, .range) ∧
    answerTo .pc (.failOrder .pc 0 2 0) stageTaken = some (18, .range) ∧
    answerTo .pc (.failOrder .pc 1 2 14) stageTaken = some (18, .range) ∧
    answerTo .pc (.doneOrder .pc 2) stageTaken = some (17, .state) ∧
    answerTo .pc (.doneOrder .pc 2) { stageTaken with ret.expired := [2] } = some (17, .late) ∧
    answerTo .pc (.doneOrder .pc 1) stageTaken = some (17, .accepted) := by decide +kernel

theorem witness_CatalogueAndToolChecks :
    base.listening .ps = true ∧ typeSetInRange { operands3 with ppd := 0 } = false ∧
    answerTo .ps (.typeSet .ps 17 operands3) base = some (32, .range) ∧
    answerTo .ps (.typeSet .ps 3 { operands3 with dnew := 600001 }) base = some (32, .inUse) ∧
    answerTo .ps (.enrol .ps 0 3 1 1 0 0) base = some (34, .range) ∧
    answerTo .ps (.enrol .ps 1 3 1 49 0 0) base = some (34, .range) ∧
    answerTo .ps (.enrol .ps 1 16 1 48 0 0) base = some (34, .state) ∧
    answerTo .ps (.enrol .ps 1 3 1 48 1 50001) base = some (34, .range) ∧
    answerTo .ps (.enrol .ps 1 3 2 2 0 0) base = some (34, .range) ∧
    answerTo .ps (.enrol .ps 810014 3 1 48 0 0) base = some (34, .duplicate) ∧
    answerTo .ps (.enrol .ps 1 3 1 5 0 0) base = some (34, .state) ∧
    answerTo .ps (.enrol .ps 1 3 1 48 1 50000) base = some (34, .accepted) ∧
    answerTo .ps (.reinstate .ps 64 0 1 48 0 0) base = some (36, .range) ∧
    answerTo .ps (.reinstate .ps 20 0 1 48 0 0) base = some (36, .state) ∧
    answerTo .ps (.reinstate .ps 20 0 1 48 0 0) quarantined = some (36, .accepted) ∧
    answerTo .ps (.withdraw .ps 64) base = some (35, .range) ∧
    answerTo .ps (.withdraw .ps 14) base = some (35, .state) := by decide +kernel

/-- R36, checks 4 and 5, and R33, check 3: each clause at an operand that meets it. -/
theorem witness_CatalogueAndToolChecks_places :
    (quarantined.listening .ps = true ∧ (quarantined.tool 20).map (·.state) = some .quarantined ∧
      spareQuarantined.typ 15 = some (type3 1000)) ∧
    answerTo .ps (.reinstate .ps 20 16 1 48 0 0) spareQuarantined = some (36, .range) ∧
    answerTo .ps (.reinstate .ps 20 16 1 48 1 50001) spareQuarantined = some (36, .range) ∧
    answerTo .ps (.reinstate .ps 20 16 1 48 1 50000) spareQuarantined = some (36, .accepted) ∧
    answerTo .ps (.reinstate .ps 20 0 2 2 0 0) quarantined = some (36, .range) ∧
    answerTo .ps (.reinstate .ps 20 0 1 17 0 0) quarantined = some (36, .state) ∧
    answerTo .ps (.reinstate .ps 20 0 3 0 0 0) quarantined = some (36, .state) ∧
    answerTo .ps (.reinstate .ps 20 0 2 0 0 0) (quarantined.setPos 0 { holding 14 with rack := .booked 3 }) =
      some (36, .state) ∧
    (offloaded.tool 20).map (·.state) = some .offloaded ∧
    answerTo .ps (.withdraw .ps 20) (withOrder (order 5 .return_ .ready none (some 20) none) offloaded) =
      some (35, .state) := by decide +kernel

/-- No free entry is left: FULL. -/
def full : State := { base with ret.tools := Vector.ofFn fun i => some (tool (i.val + 1) 2 .quarantined .unknown 100) }

theorem test_enrol_full : answerTo .ps (.enrol .ps 65 3 1 48 0 0) full = some (34, .full) := by decide +kernel

theorem witness_SupervisorChecks :
    base.listening (.station 3) = true ∧ base.listening .ps = true ∧
    answerTo .pc (.restart .pc) base = some (44, .role) ∧
    answerTo .ps (.assign .ps 12 3) base = some (38, .range) ∧
    answerTo .ps (.declarePocket .ps 49) base = some (37, .range) ∧
    answerTo .ps (.declarePocket .ps 48) base = some (37, .state) ∧
    answerTo .ps (.timeoutSet .ps 29) base = some (42, .range) ∧
    answerTo .ps (.timeoutSet .ps 1801) base = some (42, .range) ∧
    answerTo .ps (.declarePosition .ps 0) base = some (37, .state) ∧
    answerTo .ps (.assign .ps 0 17) base = some (38, .range) ∧
    answerTo .ps (.assign .ps 0 16) base = some (38, .state) ∧
    answerTo .ps (.assign .ps 0 9) base = some (38, .range) ∧
    answerTo .ps (.monitorSet .ps 0 3 3 1) base = some (39, .range) ∧
    answerTo .ps (.monitorSet .ps 0 4 1 1) base = some (39, .range) ∧
    answerTo .ps (.monitorSet .ps 0 3 8 8) base = some (39, .range) ∧
    answerTo .ps (.resume .ps 0) base = some (43, .state) := by decide +kernel

/-- The checks of the queries (R182 to R185). -/
theorem witness_SupervisorChecks_queries :
    (base.listening .pc = true ∧ base.listening (.station 3) = true) ∧
    answerTo .pc (.queryTool .pc 64) base = some (49, .range) ∧
    answerTo (.station 3) (.queryTool (.station 3) 14) base = some (49, .role) ∧
    answerTo (.station 0) (.queryTool (.station 0) 14) base = some (49, .accepted) ∧
    answerTo (.station 3) (.queryPosition (.station 3) 3) base = some (50, .range) ∧
    answerTo .pc (.queryPosition .pc 0) base = some (50, .role) ∧
    answerTo (.station 3) (.queryOrder (.station 3) 0) base = some (51, .role) ∧
    answerTo .ps (.queryType .ps 0) base = some (48, .range) ∧
    answerTo .ps (.queryType .ps 17) base = some (48, .range) ∧
    answerTo .ps (.queryType .ps 16) base = some (48, .accepted) := by decide +kernel

/-- The bounds of ROUTE SET (R146). -/
theorem witness_SupervisorChecks_route :
    grinding.listening .ps = true ∧ grinding.route 6 = some ⟨0, .ae⟩ ∧
    answerTo .ps (.routeSet .ps 16 0 0) base = some (41, .range) ∧
    answerTo .ps (.routeSet .ps 15 255 2) base = some (41, .range) ∧
    answerTo .ps (.routeSet .ps 15 255 1) base = some (41, .accepted) ∧
    answerTo .ps (.routeSet .ps 5 0 0) grinding = some (41, .duplicate) := by decide +kernel

theorem witness_PartsLeftIsComputed :
    1 ≤ (type3 1040).ppd ∧ (400 ≤ (type3 1040).rchg ∧ (type3 1040).rchg < 401) ∧ (type3 1040).perPart ≠ 0 ∧
    ({ type9 with dd := 0 } : TypeRec).perPart = 0 ∧ type9.kind = .dresser ∧ base.tool 14 = some wheel ∧
    base.typ wheel.type = some (type3 1040) ∧ wheel.r = { wheel with nnom := 0 }.r := by decide

theorem type9_inRange : type9.InRange := by constructor <;> decide

theorem witness_CycleCodeIsFirst :
    base.cycleCode 11 = 1 ∧ (requiring.setPos 0 { requiring.pos 0 with mode := .off }).cycleCode 0 = 8 ∧
    ((requiring.setPos 0 { requiring.pos 0 with mode := .off }).pos 0).mode = .off := by decide

theorem witness_CycleCodeIsFirst_watched :
    RouteLaw grinding ∧ grinding.present 0 = true ∧
    (let s : State := { grinding with vol.lastSamples := Vector.replicate 16 (some true) }
     s.available 0 .ae = true ∧ s.watched 0 = true ∧ grinding.watched 0 = false) := by
  unfold RouteLaw
  decide

theorem witness_ChoiceAndArbitration :
    base.choose 2 = some 20 ∧ base.eligible 2 20 = true ∧ base.choose 8 = none ∧ (base.figures 2).policy = .leastFirst ∧
    (({ base with ret.types := base.ret.types.set 2 (some { type3 1040 with policy := .mostFirst }) } : State).figures
      2).policy = .mostFirst := by decide

/-- R105, step 2: with two candidates the first of the list has the chosen tool. -/
theorem witness_ChoiceAndArbitration_pass :
    let s := waitsForWheel base
    FirstCandidate s 2 0 ∧ s.choose 2 = some 20 ∧ (((Ev.start s).arbitrate 2).st.pos 0).sister = some 20 ∧
      ((Ev.start s).arbitrate 2).st.ret.waiting = [3] ∧ (∀ x ∈ s.ret.waiting, ¬Candidate s 8 x) :=
  ⟨⟨by decide, [], [3], rfl, nofun⟩, by decide, by decide, by decide, by decide⟩

/-- S0A is VACANT and requires nothing. -/
def nearlyVacant : State := (base.setTool 14 none).setPos 0 { Position.cold with service := .vacant }

/-- S0A has a sister RESERVED for it and an EMPTY rack. -/
def reserved : State :=
  (base.setTool 20 (some (sister .reserved (.pocket 4)))).setPos 0 (needing .serving .reserved)

/-- S0A has an urgent need, is RELEASED, and a STAGE waits for its sister. -/
def hastened : State :=
  stageReady.setPos 0 { needing .released .staging with rack := .booked 1, urgent := true }

/-- S0A has its sister STAGED and is RELEASED. -/
def stagedThere : State :=
  ((base.setTool 20 (some (sister .staged (.rack 0)))).setPocket 4 .free).setPos 0
    { needing .released .staged with rack := .entry 20 }

/-- S0A requires nothing and is RELEASED. -/
def removing : State := base.setPos 0 { holding 14 with service := .released }

/-- S1A waits for a pocket with entry 20 on its rack, and no pocket is FREE; pocket 48 is UNKNOWN. -/
def flagged : State :=
  let s := offloaded.setPos 3 { Position.cold with rack := .entry 20, returnWaiting := true }
  { s with ret.pockets := (s.ret.pockets.map fun k => if k = .free then .holds 63 else k).set 47 .unknown }

/-- What the call of each state is: nothing is called for where the position is suspended. -/
theorem witness_HandOffPostsOrders :
    (reserved.present 0 = true ∧ (reserved.pos 0).suspended = false ∧
      (reserved.pos 0).rack = .bare ∧ reserved.tool 20 = some (sister .reserved (.pocket 4)) ∧
      reserved.ret.queue.length < 16 ∧ reserved.callFor 0 = some (.stage 20)) ∧
    (hastened.callFor 0 = some (.direct 20 (some (order 1 .stage .ready (some 20) none (some 4)))) ∧
      ∀ q ∈ hastened.standing, q.number = 1 → q = order 1 .stage .ready (some 20) none (some 4)) ∧
    stagedThere.callFor 0 = some (.exchange 20) ∧
    removing.callFor 0 = some (.remove 14) ∧ (removing.pos 0).need = .noNeed ∧
    (offloaded.callFor 3 = some (.return_ 20) ∧ offloaded.freePocket = some 0 ∧ flagged.freePocket = none) ∧
    base.callFor 0 = none ∧ (suspended.pos 0).suspended = true := by decide +kernel

/-- R117, R118: the RETURN goes to the lowest FREE pocket; a pocket that a DECLARE frees goes to the waiting position. -/
theorem test_returns :
    ((Ev.start offloaded).handOff 3).st.pocket 0 = .booked 1 ∧
    (let t := after (.declarePocket .ps 48) flagged
     t.pocket 47 = .booked 1 ∧ (t.pos 3).returnWaiting = false ∧
       t.ret.queue.map (fun o => (o.kind, o.pos, o.outgoing)) = [(.return_, 3, some 20)]) := by decide +kernel

theorem witness_EventsEnd :
    (flagged.listening .ps = true ∧ flagged.pocket 47 = .unknown ∧ flagged.present 3 = true ∧
      (flagged.pos 3).suspended = false ∧ (flagged.pos 3).returnWaiting = true) ∧
    (∀ y : PosIx, y < 3 → (flagged.pos y).returnWaiting = false) ∧
    ((flagged.pos 3).rack = .entry 20 ∧ (flagged.tool 20).map (·.state) = some .offloaded ∧
      (∀ o ∈ flagged.standing, o.incoming ≠ some 20 ∧ o.outgoing ≠ some 20) ∧ flagged.ret.queue.length < 16) ∧
    ((flagged.setPocket 47 .free).pocket 47 = .free ∧ flagged.pocket 4 = .holds 63) ∧
    (after (.assign .ps 0 3) nearlyVacant).ret.queue ≠ nearlyVacant.ret.queue ∧
    (after (.assign .ps 0 3) nearlyVacant).orderReady = true := by decide +kernel

theorem witness_NeedTestRaises :
    (nearlyVacant.listening .ps = true ∧ nearlyVacant.present 0 = true ∧ nearlyVacant.typ 2 = some (type3 1040) ∧
      (type3 1040).kind = (slotOf 0).kind ∧ (nearlyVacant.pos 0).required ≠ some 2 ∧
      (nearlyVacant.pos 0).suspended = false ∧ (nearlyVacant.pos 0).service = .vacant) ∧
    nearlyWorn.needFor 0 = some 2 ∧ nearlyWorn.choose 2 = some 20 ∧
    ((nearlyWorn.setTool 20 none).needFor 0 = some 2 ∧ (nearlyWorn.setTool 20 none).choose 2 = none) ∧
    (requiring.pos 0).required = some 2 ∧ requiring.needFor 0 = none ∧
    nearlyWorn.mountedTool 0 = some (14, { wheel with r := 403, rem := 320 }) ∧ base.mountedTool 1 = none := by decide

/-! ### The invariants: reset with one command waiting obeys every law, and its step answers a next state -/

/-- Reset with a tick waiting. -/
def waiting : State := { State.reset with pending := [.millisecondTick] }

/-- The state after that tick. -/
def ticked : State := { State.reset with vol := { State.reset.vol with ms := 1 } }

set_option maxRecDepth 20000 in
theorem waiting_steps : step waiting = .next ticked := by rfl

theorem witness_CheckByteStaysCurrent : CheckLaw waiting ∧ step waiting = .next ticked := ⟨rfl, waiting_steps⟩

theorem waiting_noTool : ∀ i, waiting.tool i = none := by decide

theorem waiting_noType : ∀ k, waiting.typ k = none := by decide

theorem witness_LinesFollow : LineLaw waiting ∧ step waiting = .next ticked := by
  refine ⟨⟨?_, ?_⟩, waiting_steps⟩
  · intro n
    have h : ∀ n : Fin 4, waiting.inhibit[n] = false ∧ ∀ x, (waiting.pos x).service ≠ .held := by decide
    have hr : waiting.resetHeld = false := rfl
    simp [(h n).1, (h n).2, hr]
  · have hr : waiting.resetHeld = false := rfl
    have quiet : ∀ q : Port, q ≠ .ps →
        (waiting.port q).attn = false ∧ (waiting.port q).mailbox = .empty ∧ (waiting.port q).notices = 0 := by
      intro q hq
      cases q with
      | station n => revert n; decide
      | pc => decide
      | ps => exact absurd rfl hq
    intro q
    by_cases hq : q = .ps
    · subst hq
      exact ⟨fun _ => ⟨hr, by decide, .inr (by decide)⟩, fun _ => by decide⟩
    · obtain ⟨ha, hm, hn⟩ := quiet q hq
      simp [ha, hm, hn]

theorem witness_RoutesAndSerialsStayUnique :
    (RouteLaw waiting ∧ SerialLaw waiting) ∧ step waiting = .next ticked := by
  refine ⟨⟨?_, ?_, ?_⟩, waiting_steps⟩
  · intro h k _ hn
    exact absurd ((by decide : ∀ h, waiting.route h = none) h) hn
  · intro i t h
    rw [waiting_noTool] at h
    cases h
  · intro i j t u h
    rw [waiting_noTool] at h
    cases h

theorem witness_FiguresStayInRange : (CatalogueLaw waiting ∧ AccountLaw waiting) ∧ step waiting = .next ticked := by
  refine ⟨⟨?_, ?_⟩, waiting_steps⟩
  · intro k f h
    rw [waiting_noType] at h
    cases h
  · intro i t h
    rw [waiting_noTool] at h
    cases h

theorem witness_PositionsStayLawful : PositionLaw waiting ∧ step waiting = .next ticked := by
  refine ⟨?_, waiting_steps⟩
  intro x
  have h : waiting.pos x = Position.cold := by revert x; decide
  rw [h]
  constructor <;> decide

/-- The cell with a STAGE in its queue, and the TAKE of it waiting. -/
def taking : State := { stageReady with pending := [.takeOrder .pc] }

theorem taking_tools : ∀ i u, taking.tool i = some u →
    (i = 14 ∧ u = wheel) ∨ (i = 20 ∧ u = sister .reserved (.pocket 4)) ∨ (i = 30 ∧ u = roll) ∨
      i = 41 ∧ u = stored 810041 16 5900 := by
  intro i u h
  have all : ∀ i, (taking.tool i).all (fun u => decide ((i = 14 ∧ u = wheel) ∨ (i = 20 ∧ u = sister .reserved (.pocket 4)) ∨
      (i = 30 ∧ u = roll) ∨ i = 41 ∧ u = stored 810041 16 5900)) = true := by decide
  have := all i
  simpa [h] using this

theorem taking_standing : taking.standing = [order 1 .stage .ready (some 20) none (some 4)] := rfl

theorem taking_positions : ∀ x, taking.pos x =
    if x = 0 then { needing .serving .staging with rack := .booked 1 } else if x = 2 then holding 30 else Position.cold := by
  decide

theorem taking_cell : CellLaw taking := by
  constructor
  · refine ⟨fun i u h => ?_, by decide, by decide, by decide⟩
    rcases taking_tools i u h with ⟨rfl, rfl⟩ | ⟨rfl, rfl⟩ | ⟨rfl, rfl⟩ | ⟨rfl, rfl⟩
    · exact (by decide : (taking.pos 0).mounted = .entry 14 ∧ wheel.state = .mounted)
    · exact ⟨(by decide : taking.pocket 4 = .holds 20), .inr (.inl rfl)⟩
    · exact (by decide : (taking.pos 2).mounted = .entry 30 ∧ roll.state = .mounted)
    · exact ⟨(by decide : taking.pocket 16 = .holds 41), .inl rfl⟩
  · intro i u h
    rcases taking_tools i u h with ⟨rfl, rfl⟩ | ⟨rfl, rfl⟩ | ⟨rfl, rfl⟩ | ⟨rfl, rfl⟩ <;> decide
  · refine ⟨fun i u h => ?_, by decide, by decide, by decide, fun i u h => ?_⟩ <;>
      rcases taking_tools i u h with ⟨rfl, rfl⟩ | ⟨rfl, rfl⟩ | ⟨rfl, rfl⟩ | ⟨rfl, rfl⟩ <;> decide
  · intro x i hi u hu
    obtain ⟨rfl, rfl⟩ := (by decide : ∀ x i, (taking.pos x).sister = some i → x = 0 ∧ i = 20) x i hi
    rcases taking_tools 20 u hu with ⟨h, _⟩ | ⟨_, rfl⟩ | ⟨h, _⟩ | ⟨h, _⟩
    · exact absurd h (by decide)
    · exact ⟨by decide, fun _ => ⟨by decide, _, List.mem_singleton.mpr rfl, rfl, rfl, .inl rfl⟩, by decide⟩
    · exact absurd h (by decide)
    · exact absurd h (by decide)
  · intro x
    rw [taking_positions]
    by_cases h0 : x = 0
    · subst h0
      exact ⟨14, rfl⟩
    · by_cases h2 : x = 2
      · subst h2
        exact ⟨30, rfl⟩
      · rw [if_neg h0, if_neg h2]
        exact fun _ _ => nofun
  · refine ⟨fun o ho => ?_, fun x n h => ?_, fun x n h => ?_, fun k n h => ?_⟩
    · obtain rfl := List.mem_singleton.mp ho
      exact ⟨fun _ => by decide, fun h => absurd h.1 (by decide), fun h =>
        h.elim (fun h => absurd h (by decide)) fun h => absurd h.1 (by decide)⟩
    · rw [taking_positions] at h
      split at h
      · subst x
        cases h
        exact ⟨_, List.mem_singleton.mpr rfl, rfl, rfl, .inl rfl⟩
      · split at h <;> cases h
    · rw [taking_positions] at h
      split at h
      · cases h
      · split at h <;> cases h
    · exact absurd h ((by decide : ∀ k, taking.pocket k = .free ∨ taking.pocket k = .holds 20 ∨ taking.pocket k = .holds 41)
        k |>.elim (fun e => e ▸ nofun) fun e => e.elim (fun e => e ▸ nofun) fun e => e ▸ nofun)
  · refine ⟨fun o ho => ?_, fun i o ho q hq _ _ => ?_⟩
    · obtain rfl := List.mem_singleton.mp ho
      exact ⟨by constructor <;> decide, fun _ => ⟨4, rfl, ⟨20, rfl, _, rfl, rfl, rfl⟩, rfl, rfl⟩⟩
    · rw [List.mem_singleton.mp ho, List.mem_singleton.mp hq]
  · exact fun x h => absurd h ((by decide : ∀ x, (taking.pos x).returnWaiting ≠ true) x)
  · intro o ho h
    obtain rfl := List.mem_singleton.mp ho
    exact absurd h.1 (by decide)

theorem taking_lawful : CellLaw taking ∧ OrderLaw taking ∧ WaitingLaw taking ∧ PositionLaw taking := by
  refine ⟨taking_cell, by constructor <;> decide, ⟨by decide, by decide, by decide⟩, fun x => ?_⟩
  rw [taking_positions]
  split
  · constructor <;> decide
  · split <;> constructor <;> decide

theorem witness_CellStaysInAgreement :
    (CellLaw taking ∧ OrderLaw taking ∧ WaitingLaw taking ∧ PositionLaw taking) ∧ ∃ t, step taking = .next t :=
  ⟨taking_lawful, _, rfl⟩

theorem witness_WaitingListStaysLawful : WaitingLaw waiting ∧ step waiting = .next ticked := by
  refine ⟨⟨by decide, ?_, by decide⟩, waiting_steps⟩
  intro x
  revert x
  decide

/-- The clause of the order in the list. -/
theorem witness_WaitingListStaysLawful_order :
    (∀ p sent, Instr.takeOrder .pc ≠ .undecodedRequest p sent) ∧
    (CellLaw taking ∧ OrderLaw taking ∧ WaitingLaw taking ∧ PositionLaw taking) ∧
    ∃ t, exec (.takeOrder .pc) taking = .next t :=
  ⟨nofun, taking_lawful, _, rfl⟩

theorem witness_OrdersStayLawful : OrderLaw waiting ∧ step waiting = .next ticked := by
  refine ⟨?_, waiting_steps⟩
  constructor <;> decide

theorem witness_FramesReadBack :
    (base.port .ps).reception = .idle ∧
    (Instr.parts (.station 0) 1 15).wf = true ∧ (frameOf (.parts (.station 0) 1 15)).isSome = true ∧
    (Instr.typeSet .ps 3 operands3).wf = true ∧ (frameOf (.typeSet .ps 3 operands3)).isSome = true := by decide +kernel

end Sys2Proof.Tests
end

/-! PROOFS. TYPE ERASE (R13). -/
namespace Sys2Proof.Machine

/-! ## Type codes (R1) -/

theorem typeOperand_succ (k : TypeIx) : typeOperand (k.val + 1) = some k := by
  have hk : 1 ≤ k.val + 1 ∧ k.val + 1 ≤ 16 := by omega
  simp [typeOperand, hk]

theorem typeOperand_eq_none_iff (code : Nat) : typeOperand code = none ↔ code = 0 ∨ 16 < code := by
  simp only [typeOperand, dite_eq_right_iff, reduceCtorEq, imp_false]
  omega

/-! ## Types in use (R7) -/

theorem entriesOf_eq_nil_iff (s : State) (k : TypeIx) :
    s.entriesOf k = [] ↔ ∀ i u, s.tool i = some u → u.type ≠ k := by
  simp only [State.entriesOf, allEntries, List.filter_eq_nil_iff, List.mem_finRange, forall_const]
  refine forall_congr' fun i => ?_
  cases s.tool i with
  | none => simp
  | some u => simp

theorem positionsOf_eq_nil_iff (s : State) (k : TypeIx) :
    s.positionsOf k = [] ↔ ∀ x, (s.pos x).required ≠ some k := by
  simp [State.positionsOf, allPositions, List.filter_eq_nil_iff]

theorem inUse_eq_false_iff (s : State) (k : TypeIx) :
    s.inUse k = false ↔
      (∀ i u, s.tool i = some u → u.type ≠ k) ∧ ∀ x, (s.pos x).required ≠ some k := by
  rw [← entriesOf_eq_nil_iff, ← positionsOf_eq_nil_iff]
  simp [State.inUse]

theorem inUse_iff (s : State) (k : TypeIx) :
    s.inUse k = true ↔ (∃ i u, s.tool i = some u ∧ u.type = k) ∨ ∃ x, (s.pos x).required = some k := by
  rw [← Bool.not_eq_false, inUse_eq_false_iff, not_and_or]
  push Not
  rfl

/-! ## What the end of an event leaves of the catalogue -/

@[simp] theorem State.typ_commit (s : State) : s.commit.typ = s.typ := rfl

@[simp] theorem State.typ_drive (s : State) : s.drive.typ = s.typ := rfl

theorem figures_of_typ_eq_none {s : State} {k : TypeIx} (h : s.typ k = none) : s.figures k = TypeRec.zero := by
  rw [State.figures, h, Option.getD_none]

/-! ## How a request of a listening port is answered (R175, R176) -/

theorem serve_error {p : Port} {s : State} (hl : s.listening p = true) (code : Nat) (st : Status) :
    serve p code (.error st) s = .next (s.answer p ⟨code, st, []⟩) := by
  simp [serve, hl]

theorem serve_accepted {p : Port} {s : State} (hl : s.listening p = true) (code : Nat) (t : State)
    (result : List Byte) :
    serve p code (.ok (t, result)) s = .next (t.answer p ⟨code, .accepted, result⟩) := by
  simp [serve, hl]

/-! ## TYPE ERASE -/

/-- At the supervisor port the role check passes. -/
theorem exec_typeErase_ps (code : Nat) (s : State) :
    exec (.typeErase .ps code) s = serve .ps 33 (typeEraseBody code s) s := rfl

/-- The erasure touches no position, order or pocket, so nothing follows it but the commit and the lines. -/
theorem typeEraseEvent_eq (k : TypeIx) (s : State) : typeEraseEvent k s = (s.setType k none).commit.drive :=
  finish_quiet rfl rfl rfl

theorem typeEraseBody_range {code : Nat} (h : code = 0 ∨ 16 < code) (s : State) :
    typeEraseBody code s = .error .range := by
  rw [typeEraseBody, (typeOperand_eq_none_iff code).mpr h]

/-- The checks that follow the code's own, in their order, and the effect. -/
theorem typeEraseBody_succ (k : TypeIx) (s : State) :
    typeEraseBody (k.val + 1) s =
      if s.typ k = none then .error .state
      else if s.inUse k = true then .error .inUse
      else .ok ((s.setType k none).commit.drive, []) := by
  rw [typeEraseBody, typeOperand_succ, ← typeEraseEvent_eq]
  simp only [Option.isNone_iff_eq_none]

/-- Settles O12: each refusal and the acceptance is one branch of `typeEraseBody`, with `inUse` read by `inUse_iff`. -/
theorem typeEraseChecksAndErases : Obligations.TypeEraseChecksAndErases := by
  intro code s hl
  refine ⟨fun hcode => ?_, ?_⟩
  · rw [exec_typeErase_ps, typeEraseBody_range hcode, serve_error hl]
  · rintro k rfl used t
    have hused : s.inUse k = true ↔ used := inUse_iff s k
    have herased : t.typ k = none := by simp [t]
    rw [exec_typeErase_ps, typeEraseBody_succ]
    refine ⟨fun hundef => ?_, fun hdef hu => ?_, fun hdef hu => ⟨?_, herased, figures_of_typ_eq_none herased⟩⟩
    · rw [if_pos hundef, serve_error hl]
    · rw [if_neg hdef, if_pos (hused.mpr hu), serve_error hl]
    · rw [if_neg hdef, if_neg (mt hused.mp hu), serve_accepted hl]

end Sys2Proof.Machine

/-! PROOFS. Parts-left (R53, R54). -/
namespace Sys2Proof.Machine

/-! ## The per-part consumption (R53) -/

/-- `ceilDiv` is Mathlib's `⌈/⌉` on the natural numbers, and is used through that operation's Galois connection. -/
theorem ceilDiv_le_iff {b : Nat} (hb : 0 < b) (a c : Nat) : ceilDiv a b ≤ c ↔ a ≤ c * b := by
  rw [Nat.mul_comm]
  exact ceilDiv_le_iff_le_mul hb

theorem TypeRec.perPart_le_iff {f : TypeRec} (hppd : 1 ≤ f.ppd) (c : Nat) :
    f.perPart ≤ c ↔ (f.wp * f.ppd + f.dd) * f.factor ≤ c * f.ppd :=
  ceilDiv_le_iff hppd _ c

/-- The life factor F and ppd are never 0 in a record in range, so only the wear and the dress amount can be. -/
theorem TypeRec.perPart_eq_zero_iff {f : TypeRec} (hf : f.InRange) : f.perPart = 0 ↔ f.wp = 0 ∧ f.dd = 0 := by
  have hppd : f.ppd ≠ 0 := Nat.one_le_iff_ne_zero.mp hf.ppd.1
  have hfactor : f.factor ≠ 0 := fun h0 => by simpa [h0] using hf.factor.1
  rw [← Nat.le_zero, TypeRec.perPart_le_iff hf.ppd.1]
  simp [hppd, hfactor]

/-- A dresser has no Wp (R3), so its consumption is that of its dresses alone. -/
theorem TypeRec.perPart_le_iff_of_dresser {f : TypeRec} (hf : f.InRange) (hk : f.kind = .dresser) (c : Nat) :
    f.perPart ≤ c ↔ f.dd * f.factor ≤ c * f.ppd := by
  rw [TypeRec.perPart_le_iff hf.ppd.1, hf.wp.2 hk, Nat.zero_mul, Nat.zero_add]

/-! ## Parts-left of a remaining life (R54) -/

theorem TypeRec.partsLeft_of_le_rchg {f : TypeRec} {r : Nat} (hr : r ≤ f.rchg) : f.partsLeft r = 0 :=
  if_pos hr

theorem TypeRec.partsLeft_of_perPart_eq_zero {f : TypeRec} {r : Nat} (hr : f.rchg < r) (hc : f.perPart = 0) :
    f.partsLeft r = 65535 := by
  rw [TypeRec.partsLeft, if_neg hr.not_ge, if_pos hc]

theorem TypeRec.partsLeft_of_perPart_ne_zero {f : TypeRec} {r : Nat} (hr : f.rchg < r) (hc : f.perPart ≠ 0) :
    f.partsLeft r = min 65535 ((r - f.rchg) * 1000 / f.perPart) := by
  rw [TypeRec.partsLeft, if_neg hr.not_ge, if_neg hc]

theorem TypeRec.partsLeft_le (f : TypeRec) (r : Nat) : f.partsLeft r ≤ 65535 := by
  rw [TypeRec.partsLeft]
  split_ifs
  · exact Nat.zero_le _
  · exact le_rfl
  · exact min_le_left _ _

/-! ## Parts-left of a tool entry (R54, R182) -/

theorem State.partsLeft_congr (s : State) {u v : Tool} (htype : u.type = v.type) (hr : u.r = v.r) :
    s.partsLeft u = s.partsLeft v := by
  rw [State.partsLeft, State.partsLeft, htype, hr]

theorem State.partsLeft_of_typ {s : State} {u : Tool} {f : TypeRec} (hf : s.typ u.type = some f) :
    s.partsLeft u = f.partsLeft u.r := by
  rw [State.partsLeft, State.figures, hf, Option.getD_some]

@[simp] theorem length_placeBytes (p : Place) : (placeBytes p).length = 2 := by
  cases p <;> rfl

/-- Table 9-6: parts-left stands at byte 17 of the tool record, in two bytes. -/
theorem State.toolRecord_partsLeft {s : State} {i : EntryIx} {u : Tool} (hu : s.tool i = some u) :
    ((s.toolRecord i).drop 17).take 2 = be 2 (s.partsLeft u) := by
  rw [State.toolRecord, hu]
  simp [List.drop_append, List.drop_of_length_le]

/-- Settles O44: the least-bound clauses are `perPart_le_iff`, at the consumption itself for the first; the others are the
branches of `partsLeft` and its place in the tool record. -/
theorem partsLeftIsComputed : Obligations.PartsLeftIsComputed := by
  refine ⟨fun f hppd => ⟨?_, ?_, ?_, ?_⟩, fun f r => ⟨?_, ?_, ?_, ?_⟩, ?_, ?_⟩
  · exact (TypeRec.perPart_le_iff hppd _).mp le_rfl
  · exact fun c => (TypeRec.perPart_le_iff hppd c).mpr
  · exact TypeRec.perPart_eq_zero_iff
  · exact fun hf hk c => (TypeRec.perPart_le_iff_of_dresser hf hk c).mpr
  · exact TypeRec.partsLeft_of_le_rchg
  · exact TypeRec.partsLeft_of_perPart_eq_zero
  · exact TypeRec.partsLeft_of_perPart_ne_zero
  · exact f.partsLeft_le r
  · exact fun s _ _ => s.partsLeft_congr
  · intro s i u f hu hf
    rw [State.toolRecord_partsLeft hu, State.partsLeft_of_typ hf]
    exact ⟨rfl, rfl⟩

end Sys2Proof.Machine

/-! PROOFS. The cycle check (R83, R147). -/
namespace Sys2Proof.Machine

/-! ## The slot routed to a signal (R145) -/

theorem route_of_slotFor_eq_some {s : State} {x : PosIx} {g : Signal} {h : HwSlot} (hs : s.slotFor x g = some h) :
    s.route h = some ⟨x, g⟩ :=
  of_decide_eq_true (List.find?_some hs :)

/-- The search takes the lowest slot routed to the signal; under the law of the routes there is no other. -/
theorem slotFor_eq_some_iff {s : State} (hlaw : RouteLaw s) {x : PosIx} {g : Signal} {h : HwSlot} :
    s.slotFor x g = some h ↔ s.route h = some ⟨x, g⟩ := by
  refine ⟨route_of_slotFor_eq_some, fun hr => ?_⟩
  have hfound : (s.slotFor x g).isSome = true :=
    List.find?_isSome.mpr ⟨h, List.mem_finRange h, decide_eq_true hr⟩
  obtain ⟨k, hk⟩ := Option.isSome_iff_exists.mp hfound
  have hroute : s.route k = s.route h := (route_of_slotFor_eq_some hk).trans hr.symm
  have hrouted : s.route k ≠ none := by simp [hroute, hr]
  rw [hk, hlaw k h hroute hrouted]

/-! ## Availability and watching (R147) -/

theorem available_iff_slotFor {s : State} {x : PosIx} (hx : s.present x = true) (g : Signal) :
    s.available x g = true ↔
      s.vol.lock = .locked ∧ ∃ h, s.slotFor x g = some h ∧ s.vol.lastSamples[h] = some true := by
  cases hs : s.slotFor x g with
  | none => simp [State.available, hs]
  | some h => simp [State.available, hs, hx]

theorem available_iff_route {s : State} (hlaw : RouteLaw s) {x : PosIx} (hx : s.present x = true) (g : Signal) :
    s.available x g = true ↔
      s.vol.lock = .locked ∧ ∃ h : HwSlot, s.route h = some ⟨x, g⟩ ∧ s.vol.lastSamples[h] = some true := by
  simp only [available_iff_slotFor hx, slotFor_eq_some_iff hlaw]

theorem watched_iff (s : State) (x : PosIx) :
    s.watched x = true ↔ s.available x .ae = true ∨ s.available x .power = true :=
  Bool.or_eq_true_iff

/-! ## The conditions of Table 4-5 -/

theorem Mode.guards_iff (m : Mode) : m.guards = true ↔ m = .hold ∨ m = .retry := by
  simp [Mode.guards]

theorem mismatched_iff (s : State) (x : PosIx) :
    s.mismatched x = true ↔ ∃ i u, s.mountedTool x = some (i, u) ∧ (s.pos x).required ≠ some u.type := by
  cases hm : s.mountedTool x with
  | none => simp [State.mismatched, hm]
  | some e => simp [State.mismatched, hm, Prod.ext_iff]

/-- The tests of codes 1 to 7, in the order of Table 4-5, as `cycleCode` makes them. -/
def State.cycleTests (s : State) (x : PosIx) : List Bool :=
  let p := s.pos x
  [p.service = .uncertain, p.service = .vacant, p.service = .held, p.mode.guards && !s.watched x, s.mismatched x,
    p.service = .due || p.service = .released || p.service = .exchanging, s.mountedPartsLeft x = 1]

/-- The conditions of codes 1 to 7, in the order and the words of Table 4-5. -/
def State.cycleConditions (s : State) (x : PosIx) : List Prop :=
  let p := s.pos x
  [p.service = .uncertain,
    p.service = .vacant,
    p.service = .held,
    (p.mode = .hold ∨ p.mode = .retry) ∧ s.watched x = false,
    ∃ i u, s.mountedTool x = some (i, u) ∧ p.required ≠ some u.type,
    p.service = .due ∨ p.service = .released ∨ p.service = .exchanging,
    s.mountedPartsLeft x = 1]

theorem cycleConditions_eq_map (s : State) (x : PosIx) :
    s.cycleConditions x = (s.cycleTests x).map (· = true) := by
  simp [State.cycleConditions, State.cycleTests, Mode.guards_iff, mismatched_iff, or_assoc]

/-- The chain of tests is a search of their list: the code is the place of the first that succeeds, or 8 past the end. -/
theorem cycleCode_eq_findIdx (s : State) (x : PosIx) : s.cycleCode x = (s.cycleTests x).findIdx id + 1 := by
  simp only [State.cycleCode, State.cycleTests, List.findIdx_cons, List.findIdx_nil, id, Bool.cond_eq_ite,
    decide_eq_true_eq]
  split_ifs <;> rfl

theorem cycleCondition_eq_cycleTest {s : State} {x : PosIx} {k : Nat} {c : Prop}
    (hc : (s.cycleConditions x)[k]? = some c) :
    ∃ hk : k < (s.cycleTests x).length, ((s.cycleTests x)[k] = true) = c := by
  rw [cycleConditions_eq_map, List.getElem?_map, Option.map_eq_some_iff] at hc
  obtain ⟨b, hb, rfl⟩ := hc
  obtain ⟨hk, rfl⟩ := List.getElem?_eq_some_iff.mp hb
  exact ⟨hk, rfl⟩

/-! ## The cycle code (R83) -/

theorem cycleCode_pos (s : State) (x : PosIx) : 1 ≤ s.cycleCode x := by
  rw [cycleCode_eq_findIdx]
  exact Nat.le_add_left 1 _

theorem cycleCode_le (s : State) (x : PosIx) : s.cycleCode x ≤ 8 := by
  rw [cycleCode_eq_findIdx]
  exact Nat.succ_le_succ List.findIdx_le_length

/-- No condition before the code's own holds. -/
theorem not_cycleCondition_of_lt {s : State} {x : PosIx} {k : Nat} (hk : k + 1 < s.cycleCode x) {c : Prop}
    (hc : (s.cycleConditions x)[k]? = some c) : ¬c := by
  rw [cycleCode_eq_findIdx] at hk
  obtain ⟨_, rfl⟩ := cycleCondition_eq_cycleTest hc
  simpa using List.not_of_lt_findIdx (Nat.lt_of_succ_lt_succ hk)

/-- The code's own condition holds; GO has none. -/
theorem cycleCondition_of_cycleCode {s : State} {x : PosIx} {c : Prop}
    (hc : (s.cycleConditions x)[s.cycleCode x - 1]? = some c) : c := by
  rw [cycleCode_eq_findIdx] at hc
  obtain ⟨_, rfl⟩ := cycleCondition_eq_cycleTest hc
  exact List.findIdx_getElem (p := id)

/-- Every other service state has its code before LAST: 1, 2, 3 or 6. -/
theorem serving_of_le_cycleCode {s : State} {x : PosIx} (h7 : 7 ≤ s.cycleCode x) : (s.pos x).service = .serving := by
  have huncertain : (s.pos x).service ≠ .uncertain := not_cycleCondition_of_lt (k := 0) (by omega) rfl
  have hvacant : (s.pos x).service ≠ .vacant := not_cycleCondition_of_lt (k := 1) (by omega) rfl
  have hheld : (s.pos x).service ≠ .held := not_cycleCondition_of_lt (k := 2) (by omega) rfl
  have hchange : ¬((s.pos x).service = .due ∨ (s.pos x).service = .released ∨ (s.pos x).service = .exchanging) :=
    not_cycleCondition_of_lt (k := 5) (by omega) rfl
  cases hserv : (s.pos x).service <;> simp [hserv] at huncertain hvacant hheld hchange ⊢

/-- The condition of STOP_BLIND asks for mode HOLD or RETRY. -/
theorem mode_of_cycleCode_eq_four {s : State} {x : PosIx} (h4 : s.cycleCode x = 4) :
    (s.pos x).mode = .hold ∨ (s.pos x).mode = .retry := by
  have hblind : ((s.pos x).mode = .hold ∨ (s.pos x).mode = .retry) ∧ s.watched x = false :=
    cycleCondition_of_cycleCode (by rw [h4]; rfl)
  exact hblind.1

/-- Settles O45: availability is read through the one slot routed to the signal, and the code through the search of the
list of tests. -/
theorem cycleCodeIsFirst : Obligations.CycleCodeIsFirst := by
  intro s x
  refine ⟨fun hlaw hx => ⟨available_iff_route hlaw hx, ?_⟩, cycleCode_pos s x, cycleCode_le s x,
    fun _ hk _ => not_cycleCondition_of_lt hk, fun _ => cycleCondition_of_cycleCode, serving_of_le_cycleCode, ?_⟩
  · rw [watched_iff, available_iff_route hlaw hx, available_iff_route hlaw hx]
  · intro hmode h4
    obtain hhold | hretry := mode_of_cycleCode_eq_four h4
    · simp [hhold] at hmode
    · simp [hretry] at hmode

end Sys2Proof.Machine

/-! PROOFS. Eligibility, the choice of a sister and arbitration (R99, R100, R102, R105). -/
namespace Sys2Proof.Machine

/-! ## Eligibility (R99) -/

theorem eligible_iff (s : State) (k : TypeIx) (i : EntryIx) :
    s.eligible k i = true ↔ ∃ u, s.tool i = some u ∧ u.type = k ∧ u.state = .stored ∧ u.condition = .sound ∧
      (s.figures k).pmin ≤ s.partsLeft u := by
  unfold State.eligible
  cases s.tool i with
  | none => simp
  | some u => simp [and_assoc]

/-! ## The policy's order (R100) -/

/-- Equal tools are not ahead of each other. -/
theorem Policy.prefers_self (y : Policy) (p k : Nat) : y.prefers p k p k = false := by
  cases y <;> simp [Policy.prefers]

theorem Policy.prefers_asymm {y : Policy} {p k p' k' : Nat} (h : y.prefers p k p' k' = true) :
    y.prefers p' k' p k = false := by
  cases y <;> simp [Policy.prefers] at h ⊢ <;> omega

/-- Not being ahead is transitive, so a running best stays the best of all that it was compared with. -/
theorem Policy.not_prefers_trans {y : Policy} {p k p' k' p'' k'' : Nat} (h : y.prefers p' k' p k = false)
    (h' : y.prefers p'' k'' p' k' = false) : y.prefers p'' k'' p k = false := by
  cases y <;> simp [Policy.prefers] at h h' ⊢ <;> omega

theorem Policy.not_prefers_leastFirst {p k p' k' : Nat} (h : Policy.leastFirst.prefers p' k' p k = false) :
    p < p' ∨ p = p' ∧ k ≤ k' := by
  simp [Policy.prefers] at h
  omega

theorem Policy.not_prefers_mostFirst {p k p' k' : Nat} (h : Policy.mostFirst.prefers p' k' p k = false) :
    p' < p ∨ p = p' ∧ k ≤ k' := by
  simp [Policy.prefers] at h
  omega

/-! ## The choice (R100) -/

/-- Entry `i` goes before entry `j` under the policy of type `k`. -/
def State.precedes (s : State) (k : TypeIx) (i j : EntryIx) : Bool :=
  (s.figures k).policy.prefers (s.entryPartsLeft i) (s.entryPocket i) (s.entryPartsLeft j) (s.entryPocket j)

theorem better_eq (s : State) (k : TypeIx) (i j : EntryIx) :
    s.better k i j = if s.precedes k j i then j else i := rfl

theorem not_precedes_trans {s : State} {k : TypeIx} {i j l : EntryIx} (hji : s.precedes k j i = false)
    (hlj : s.precedes k l j = false) : s.precedes k l i = false :=
  Policy.not_prefers_trans hji hlj

theorem not_precedes_better (s : State) (k : TypeIx) (i j : EntryIx) :
    s.precedes k i (s.better k i j) = false ∧ s.precedes k j (s.better k i j) = false := by
  rw [better_eq]
  split
  · next hji => exact ⟨Policy.prefers_asymm hji, Policy.prefers_self ..⟩
  · next hji => exact ⟨Policy.prefers_self .., Bool.eq_false_of_not_eq_true hji⟩

/-- No entry compared in the fold goes before its result. -/
theorem not_precedes_foldl_better (s : State) (k : TypeIx) (l : List EntryIx) (i : EntryIx) :
    ∀ j ∈ i :: l, s.precedes k j (l.foldl (s.better k) i) = false := by
  induction l generalizing i with
  | nil => simp [State.precedes, Policy.prefers_self]
  | cons j l ih =>
    obtain ⟨hi, hj⟩ := not_precedes_better s k i j
    obtain ⟨hbest, hrest⟩ := List.forall_mem_cons.mp (ih (s.better k i j))
    simp only [List.foldl_cons, List.forall_mem_cons]
    exact ⟨not_precedes_trans hbest hi, not_precedes_trans hbest hj, hrest⟩

theorem mem_filter_eligible {s : State} {k : TypeIx} {i : EntryIx} :
    i ∈ allEntries.filter (s.eligible k) ↔ s.eligible k i = true := by
  simp [allEntries]

theorem not_eligible_of_choose_eq_none {s : State} {k : TypeIx} (h : s.choose k = none) (i : EntryIx) :
    s.eligible k i = false := by
  unfold State.choose at h
  split at h
  · next hnil => exact Bool.eq_false_of_not_eq_true fun hi => by simpa [hnil] using mem_filter_eligible.mpr hi
  · cases h

theorem not_precedes_choose {s : State} {k : TypeIx} {i j : EntryIx} (h : s.choose k = some i)
    (hj : s.eligible k j = true) : s.precedes k j i = false := by
  unfold State.choose at h
  split at h
  · cases h
  · next first rest hl =>
    obtain rfl := Option.some.inj h
    exact not_precedes_foldl_better s k rest first j (hl ▸ mem_filter_eligible.mpr hj)

/-! ## The first candidate (R105) -/

theorem candidateTest_iff (s : State) (k : TypeIx) (x : PosIx) :
    (s.present x && !(s.pos x).suspended && decide ((s.pos x).required = some k)) = true ↔ Candidate s k x := by
  simp

theorem candidate_eq_some_iff (s : State) (k : TypeIx) (x : PosIx) :
    s.candidate k = some x ↔ FirstCandidate s k x := by
  simp only [State.candidate, List.find?_eq_some_iff_append, candidateTest_iff, FirstCandidate, Bool.not_eq_true',
    ← Bool.not_eq_true]

theorem candidate_eq_none_iff (s : State) (k : TypeIx) :
    s.candidate k = none ↔ ∀ x ∈ s.ret.waiting, ¬Candidate s k x := by
  simp only [State.candidate, List.find?_eq_none, candidateTest_iff]

/-! ## The passes of arbitration (R102, R105) -/

/-- Arbitration for a type has nothing to do: no candidate waits, or no tool is eligible. -/
def State.Arbitrated (s : State) (k : TypeIx) : Prop := s.candidate k = none ∨ s.choose k = none

theorem arbitrated_or_pass (s : State) (k : TypeIx) :
    s.Arbitrated k ∨ ∃ x i, s.candidate k = some x ∧ s.choose k = some i := by
  unfold State.Arbitrated
  cases s.candidate k <;> cases s.choose k <;> simp

theorem arbitrated_of_waiting_eq_nil {s : State} (h : s.ret.waiting = []) (k : TypeIx) : s.Arbitrated k :=
  .inl (by simp [State.candidate, h])

theorem Ev.arbitrateLoop_of_arbitrated {e : Ev} {k : TypeIx} (h : e.st.Arbitrated k) (n : Nat) :
    e.arbitrateLoop k n = e := by
  cases n with
  | zero => rfl
  | succ n =>
    rw [Ev.arbitrateLoop]
    split
    · next hx hi => simp [State.Arbitrated, hx, hi] at h
    · rfl

theorem Ev.arbitrateLoop_of_pass {e : Ev} {k : TypeIx} {x : PosIx} {i : EntryIx} (hx : e.st.candidate k = some x)
    (hi : e.st.choose k = some i) (n : Nat) : e.arbitrateLoop k (n + 1) = (e.reserve x i).arbitrateLoop k n := by
  rw [Ev.arbitrateLoop, hx, hi]

theorem Ev.reserve_st_congr {e e' : Ev} (h : e.st = e'.st) (x : PosIx) (i : EntryIx) :
    (e.reserve x i).st = (e'.reserve x i).st := by
  simp only [Ev.reserve, Ev.setNeed, Ev.leaveWaiting, Ev.updPos, Ev.updTool, Ev.upd, h]

theorem Ev.waiting_reserve (e : Ev) (x : PosIx) (i : EntryIx) :
    (e.reserve x i).st.ret.waiting = e.st.ret.waiting.filter (· ≠ x) := rfl

/-- The candidate leaves the list, so each pass shortens it. -/
theorem Ev.waiting_reserve_lt {e : Ev} {k : TypeIx} {x : PosIx} (hx : e.st.candidate k = some x) (i : EntryIx) :
    (e.reserve x i).st.ret.waiting.length < e.st.ret.waiting.length := by
  rw [Ev.waiting_reserve, List.length_filter_lt_length_iff_exists]
  exact ⟨x, List.mem_of_find?_eq_some hx, by simp⟩

/-- Fuel for the whole waiting list is enough: the loop stops because nothing is left to do. -/
theorem Ev.arbitrated_arbitrateLoop {k : TypeIx} {n : Nat} {e : Ev} (hn : e.st.ret.waiting.length ≤ n) :
    (e.arbitrateLoop k n).st.Arbitrated k := by
  induction n generalizing e with
  | zero => exact arbitrated_of_waiting_eq_nil (List.eq_nil_of_length_eq_zero (Nat.le_zero.mp hn)) k
  | succ n ih =>
    obtain hdone | ⟨x, i, hx, hi⟩ := arbitrated_or_pass e.st k
    · rwa [Ev.arbitrateLoop_of_arbitrated hdone]
    · rw [Ev.arbitrateLoop_of_pass hx hi]
      have hlt := Ev.waiting_reserve_lt hx i
      exact ih (by omega)

/-- Fuel beyond the waiting list's length changes nothing, and the positions touched before play no part. -/
theorem Ev.arbitrateLoop_st_eq {k : TypeIx} {m n : Nat} {e e' : Ev} (he : e.st = e'.st)
    (hm : e.st.ret.waiting.length ≤ m) (hn : e.st.ret.waiting.length ≤ n) :
    (e.arbitrateLoop k m).st = (e'.arbitrateLoop k n).st := by
  induction m generalizing n e e' with
  | zero =>
    have hdone := arbitrated_of_waiting_eq_nil (List.eq_nil_of_length_eq_zero (Nat.le_zero.mp hm)) k
    rwa [Ev.arbitrateLoop_of_arbitrated hdone, Ev.arbitrateLoop_of_arbitrated (he ▸ hdone)]
  | succ m ih =>
    obtain hdone | ⟨x, i, hx, hi⟩ := arbitrated_or_pass e.st k
    · rwa [Ev.arbitrateLoop_of_arbitrated hdone, Ev.arbitrateLoop_of_arbitrated (he ▸ hdone)]
    · have hlt := Ev.waiting_reserve_lt hx i
      obtain ⟨n, rfl⟩ : ∃ n', n = n' + 1 := ⟨n - 1, by omega⟩
      rw [Ev.arbitrateLoop_of_pass hx hi, Ev.arbitrateLoop_of_pass (he ▸ hx) (he ▸ hi)]
      exact ih (Ev.reserve_st_congr he x i) (by omega) (by omega)

theorem Ev.arbitrated_arbitrate (k : TypeIx) (e : Ev) : (e.arbitrate k).st.Arbitrated k :=
  Ev.arbitrated_arbitrateLoop le_rfl

theorem Ev.arbitrate_of_arbitrated {e : Ev} {k : TypeIx} (h : e.st.Arbitrated k) : e.arbitrate k = e :=
  Ev.arbitrateLoop_of_arbitrated h _

/-- Arbitration is one pass and then arbitration of what the pass leaves. -/
theorem Ev.arbitrate_of_pass {e : Ev} {k : TypeIx} {x : PosIx} {i : EntryIx} (hx : e.st.candidate k = some x)
    (hi : e.st.choose k = some i) : (e.arbitrate k).st = ((Ev.start (e.reserve x i).st).arbitrate k).st := by
  have hlt := Ev.waiting_reserve_lt hx i
  calc (e.arbitrate k).st
      = (e.arbitrateLoop k (e.st.ret.waiting.length + 1)).st := Ev.arbitrateLoop_st_eq rfl le_rfl (Nat.le_succ _)
    _ = ((e.reserve x i).arbitrateLoop k e.st.ret.waiting.length).st := by rw [Ev.arbitrateLoop_of_pass hx hi]
    _ = ((Ev.start (e.reserve x i).st).arbitrate k).st := Ev.arbitrateLoop_st_eq rfl hlt.le le_rfl

theorem arbitrated_iff (s : State) (k : TypeIx) :
    s.Arbitrated k ↔ (∀ x ∈ s.ret.waiting, ¬Candidate s k x) ∨ s.choose k = none := by
  rw [State.Arbitrated, candidate_eq_none_iff]

/-- Settles O46: the choice is the best of a fold over the eligible entries, and arbitration is its first pass followed by
arbitration of the rest, the waiting list bounding the passes. -/
theorem choiceAndArbitration : Obligations.ChoiceAndArbitration := by
  refine ⟨fun s k => ⟨eligible_iff s k, not_eligible_of_choose_eq_none, fun i hi =>
      ⟨choose_eligible hi, fun j hj => ?_⟩⟩,
    fun e k => ⟨(arbitrated_iff _ k).mp (e.arbitrated_arbitrate k), fun hdone => ?_, fun x i hx hi => ?_⟩⟩
  · have hfirst := not_precedes_choose hi hj
    unfold State.precedes at hfirst
    exact ⟨fun hp => Policy.not_prefers_leastFirst (hp ▸ hfirst),
      fun hp => Policy.not_prefers_mostFirst (hp ▸ hfirst)⟩
  · rw [Ev.arbitrate_of_arbitrated ((arbitrated_iff e.st k).mpr hdone)]
  · exact Ev.arbitrate_of_pass ((candidate_eq_some_iff e.st k x).mpr hx) hi

end Sys2Proof.Machine

/-! PROOFS. CLOSE (R152). -/
namespace Sys2Proof.Machine

/-! ## Slot operands (Table 9-4) -/

@[simp] theorem slotOperand_num (sl : Slot) : slotOperand sl.num = some sl := by
  cases sl <;> rfl

theorem slotOperand_eq_none_of_le {slot : Nat} (h : 3 ≤ slot) : slotOperand slot = none := by
  obtain ⟨m, rfl⟩ : ∃ m, slot = m + 3 := ⟨slot - 3, by omega⟩
  rfl

/-! ## Position changes that R95 does not answer -/

theorem Ev.touched_updPos_of_same {x : PosIx} {f : Position → Position} {e : Ev}
    (h : (e.st.pos x).sameForHandOff (f (e.st.pos x)) = true) : (e.updPos x f).touched = e.touched :=
  if_pos h

/-- The window is not among the fields of R95. -/
theorem Position.sameForHandOff_window (p : Position) (w : Bool) : p.sameForHandOff { p with window := w } = true := by
  simp [Position.sameForHandOff]

/-! ## CLOSE -/

/-- With the window open the event touches no field of R95, no order and no pocket, so nothing follows it but the commit and
the lines. -/
theorem closeEvent_eq (x : PosIx) (s : State) :
    closeEvent x s =
      if (s.pos x).window = true then
        ((s.setPos x { s.pos x with window := false }).setChan x
          { s.chan x with state := .idle, blankCount := 0, aeCount := 0, powerCount := 0 }).commit.drive
      else s := by
  unfold closeEvent
  split
  · refine finish_quiet ?_ rfl rfl
    rw [Ev.touched_upd, Ev.touched_updPos_of_same, Ev.touched_start]
    exact Position.sameForHandOff_window _ false
  · rfl

/-- At a station port the role check passes. -/
theorem exec_closeWindow_station (n : Station) (slot : Nat) (s : State) :
    exec (.closeWindow (.station n) slot) s = serve (.station n) 3 (closeBody n slot s) s := rfl

theorem exec_closeWindow_role {p : Port} (hp : p = .pc ∨ p = .ps) (slot : Nat) (s : State) :
    exec (.closeWindow p slot) s = serve p 3 (.error .role) s := by
  obtain rfl | rfl := hp <;> rfl

theorem closeBody_range {slot : Nat} (h : 3 ≤ slot) (n : Station) (s : State) :
    closeBody n slot s = .error .range := by
  rw [closeBody, slotOperand_eq_none_of_le h]

/-- CLOSE has no check after the slot's: it is taken in every service state. -/
theorem closeBody_num (n : Station) (sl : Slot) (s : State) :
    closeBody n sl.num s =
      .ok (closeEvent (posAt n sl) s, (closeEvent (posAt n sl) s).positionRecord (posAt n sl)) := by
  rw [closeBody, slotOperand_num]

/-- Settles O6: the two refusals are the role check's and the slot operand's; an accepted CLOSE leaves what `closeEvent_eq`
says. -/
theorem closeIdlesChannel : Obligations.CloseIdlesChannel := by
  refine ⟨fun p slot s hp hl => ?_, fun n s hl => ⟨fun slot hslot => ?_, fun sl => ?_⟩⟩
  · rw [exec_closeWindow_role hp, serve_error hl]
  · rw [exec_closeWindow_station, closeBody_range hslot, serve_error hl]
  · rw [exec_closeWindow_station, closeBody_num, serve_accepted hl, closeEvent_eq]

end Sys2Proof.Machine

/-! PROOFS. What a command can do, said once: a change that touches neither retained state nor the notices of PC, an event
with its own changes, or a start. -/
namespace Sys2Proof.Machine

/-! ## The output lines (R170, R180) -/

/-- The two ways of naming a port agree on which is enabled. -/
theorem enabledAt_ix (s : State) (q : Port) : s.enabledAt q.ix = s.enabled q := by
  cases q with
  | station n =>
    have hn : ¬4 ≤ n.val := by omega
    show (decide (4 ≤ n.val) || decide (n.val < s.strap.count)) = decide (n.val < s.strap.count)
    simp [hn]
  | pc => rfl
  | ps => rfl

theorem Mailbox.isFresh_iff (m : Mailbox) : m.isFresh = true ↔ ∃ r, m = .fresh r := by
  cases m <;> simp [Mailbox.isFresh]

theorem attnLevel_iff (s : State) (q : Port) :
    s.attnLevel q.ix = true ↔
      s.resetHeld = false ∧ s.enabled q = true ∧ ((∃ r, (s.port q).mailbox = .fresh r) ∨ (s.port q).notices ≠ 0) := by
  rw [← Mailbox.isFresh_iff]
  simp [State.attnLevel, enabledAt_ix, State.port, and_assoc]

theorem inhibitLevel_iff (s : State) (n : Station) :
    s.inhibitLevel n = true ↔ s.resetHeld = true ∨ ∃ sl, (s.pos (posAt n sl)).service = .held := by
  have hslots : (∃ sl, (s.pos (posAt n sl)).service = .held) ↔
      (s.pos (posAt n .a)).service = .held ∨ (s.pos (posAt n .b)).service = .held ∨
        (s.pos (posAt n .d)).service = .held := by
    refine ⟨fun ⟨sl, h⟩ => ?_, fun h => ?_⟩
    · cases sl
      · exact .inl h
      · exact .inr (.inl h)
      · exact .inr (.inr h)
    · obtain h | h | h := h
      · exact ⟨_, h⟩
      · exact ⟨_, h⟩
      · exact ⟨_, h⟩
  simp [State.inhibitLevel, hslots, or_assoc]

/-- Where the lines take their levels they obey their law. -/
theorem lineLaw_drive (s : State) : LineLaw s.drive := by
  refine ⟨fun n => ?_, fun q => ?_⟩
  · have hlevel : s.drive.inhibit[n] = s.inhibitLevel n := by simp [State.drive]
    rw [hlevel, inhibitLevel_iff]
    rfl
  · rw [State.port_drive]
    exact attnLevel_iff s q

/-- The law of the lines reads the lines, the service states, the RESET input, the strap, and of each port its mailbox and
its notice set. -/
theorem LineLaw.congr {s t : State} (h : LineLaw s) (hinhibit : t.inhibit = s.inhibit) (hreset : t.resetHeld = s.resetHeld)
    (hret : t.ret = s.ret) (hstrap : t.strap = s.strap)
    (hport : ∀ q, (t.port q).attn = (s.port q).attn ∧ (t.port q).mailbox = (s.port q).mailbox ∧
      (t.port q).notices = (s.port q).notices) : LineLaw t := by
  have hpos : t.pos = s.pos := by funext x; rw [State.pos, State.pos, hret]
  have henabled : t.enabled = s.enabled := by funext q; cases q <;> simp [State.enabled, hstrap]
  refine ⟨fun n => ?_, fun q => ?_⟩
  · rw [hinhibit, hreset, hpos]
    exact h.1 n
  · obtain ⟨hattn, hmail, hnotices⟩ := hport q
    rw [hattn, hmail, hnotices, hreset, henabled]
    exact h.2 q

/-! ## Moves -/

/-- A change that leaves retained state, the strap and the notices of PC as they are, and the lines at their levels. -/
structure Calm (s t : State) : Prop where
  ret : t.ret = s.ret
  checkByte : t.checkByte = s.checkByte
  strap : t.strap = s.strap
  pcNotices : (t.port .pc).notices = (s.port .pc).notices
  lines : LineLaw s → LineLaw t

theorem Calm.refl (s : State) : Calm s s := ⟨rfl, rfl, rfl, rfl, id⟩

theorem Calm.trans {s t u : State} (h : Calm s t) (g : Calm t u) : Calm s u :=
  ⟨g.ret.trans h.ret, g.checkByte.trans h.checkByte, g.strap.trans h.strap, g.pcNotices.trans h.pcNotices,
    g.lines ∘ h.lines⟩

/-- A change of what is not retained, after which the lines take their levels. -/
theorem Calm.drive {s t : State} (hret : t.ret = s.ret) (hcheck : t.checkByte = s.checkByte) (hstrap : t.strap = s.strap)
    (hpc : (t.port .pc).notices = (s.port .pc).notices) : Calm s t.drive :=
  ⟨hret, hcheck, hstrap, by rw [State.port_drive]; exact hpc, fun _ => lineLaw_drive t⟩

/-- A change of a port that leaves its line, its mailbox and its notice set. -/
theorem Calm.setPort (s : State) (p : Port) {v : PortState} (hattn : v.attn = (s.port p).attn)
    (hmail : v.mailbox = (s.port p).mailbox) (hnotices : v.notices = (s.port p).notices) : Calm s (s.setPort p v) := by
  have hport : ∀ q, ((s.setPort p v).port q).attn = (s.port q).attn ∧
      ((s.setPort p v).port q).mailbox = (s.port q).mailbox ∧
      ((s.setPort p v).port q).notices = (s.port q).notices := by
    intro q
    rw [State.port_setPort]
    split
    · next hq => subst hq; exact ⟨hattn, hmail, hnotices⟩
    · exact ⟨rfl, rfl, rfl⟩
  exact ⟨rfl, rfl, rfl, (hport .pc).2.2, fun h => h.congr rfl rfl rfl rfl hport⟩

/-- A change of the part's other fields than retained state, the ports, the lines and what their levels read. -/
theorem Calm.of_eq {s t : State} (hret : t.ret = s.ret) (hcheck : t.checkByte = s.checkByte) (hstrap : t.strap = s.strap)
    (hports : t.vol.ports = s.vol.ports) (hinhibit : t.inhibit = s.inhibit) (hreset : t.resetHeld = s.resetHeld) :
    Calm s t := by
  have hport : t.port = s.port := by funext q; rw [State.port, State.port, hports]
  exact ⟨hret, hcheck, hstrap, by rw [hport], fun h =>
    h.congr hinhibit hreset hret hstrap fun q => by rw [hport]; exact ⟨rfl, rfl, rfl⟩⟩

/-- A calm change, seen from before a change of other fields than those. -/
theorem Calm.after {s t u : State} (h : Calm t u) (hret : t.ret = s.ret) (hcheck : t.checkByte = s.checkByte)
    (hstrap : t.strap = s.strap) (hports : t.vol.ports = s.vol.ports) (hinhibit : t.inhibit = s.inhibit)
    (hreset : t.resetHeld = s.resetHeld) : Calm s u :=
  .trans (.of_eq hret hcheck hstrap hports hinhibit hreset) h

/-- Whose needs an event may clear: nobody's, that of the position of the order that is out, or anybody's. -/
inductive Clearing where
  | nobody
  | order
  | anybody

/-- The own changes of an event on state `s`, as far as its Ev has come when the event ends, with what the checks of its
command have found. `w` bounds whose needs the event may clear. -/
inductive Own (w : Clearing) (s : State) : Ev → Prop
  | typeEdit {k : TypeIx} {f : TypeSetOperands} {old : TypeRec} (htyp : s.typ k = some old)
      (hrange : typeSetInRange f = true) (hgeometry : sameGeometry f old = true) :
      Own w s ((((Ev.start s).upd fun s => s.setType k ((s.typ k).map (editedRecord f))).reevaluate k
        none).arbitrateIfWaited k)
  | typeDefine {k : TypeIx} {f : TypeSetOperands} (hrange : typeSetInRange f = true) (hfree : s.inUse k = false) :
      Own w s ((Ev.start s).upd fun s => s.setType k (some (definedRecord f)))
  | typeErase {k : TypeIx} (hfree : s.inUse k = false) : Own w s ((Ev.start s).upd fun s => s.setType k none)
  | openWindow {x : PosIx} (hserv : (s.pos x).service = .serving ∨ (s.pos x).service = .due) :
      Own w s (((Ev.start s).updPos x fun p => { p with window := true }).upd fun s' =>
        s'.setChan x <|
          if (s.pos x).mode = .off then { s.chan x with aeCount := 0, powerCount := 0 }
          else (s.chan x).watch (s.mountedFigures x).blank)
  | closeWindow (x : PosIx) :
      Own w s (((Ev.start s).updPos x fun p => { p with window := false }).upd fun s' =>
        s'.setChan x { s.chan x with state := .idle, blankCount := 0, aeCount := 0, powerCount := 0 })
  | monitor {x : PosIx} {m : Mode} {t l : Nat} (htime : goodRetryTime t = true) (hlimit : l ≠ 0 ∧ l ≤ 7) :
      Own w s (((Ev.start s).updPos x fun p =>
        { p with mode := m, retryTime := t, retryLimit := l, retryCount := min l p.retryCount }).upd fun s' =>
        if (s.pos x).mode = m then s' else s'.changeMode x)
  | clearRetries (x : PosIx) : Own w s ((Ev.start s).updPos x fun p => { p with retryCount := 0 })
  | assign {x : PosIx} {req : Option TypeIx} (hw : w = .anybody) (hpresent : s.present x = true) (hdefined : s.undefinedType req = false)
      (hnew : (s.pos x).required ≠ req) :
      Own w s (((if req.isSome then ((Ev.start s).updPos x fun p => { p with required := req }).withdrawRemove x
        else (Ev.start s).updPos x fun p => { p with required := req }).cancelNeed x).needTest x)
  | declarePosition {x : PosIx} (hw : w = .anybody) (hpresent : s.present x = true)
      (hopen : (s.pos x).service = .uncertain ∨ (s.pos x).rack = .unknown) :
      Own w s ((if (s.pos x).service = .uncertain then
          (((Ev.start s).cancelNeed x).updPos x Position.clearUnknown).judge x
        else ((Ev.start s).cancelNeed x).updPos x Position.clearUnknown).needTest x)
  | resume {x : PosIx} (hpresent : s.present x = true) (hsuspended : (s.pos x).suspended = true) :
      Own w s ((((Ev.start s).updPos x fun p => { p with suspended := false, failed := 0 }).arbitrateFor x).needTest x)
  | timeout (n : Nat) : Own w s ((Ev.start s).upd fun s => { s with ret.timeout := n })
  | route {h : HwSlot} {t : Option Target} (hfree : s.routedElsewhere h t = false) :
      Own w s ((Ev.start s).upd fun s => ((s.setRoute h t).clearDeglitch (s.route h)).clearDeglitch t)
  | take {o : Order} (hbusy : s.busyOrder = none) (hnext : s.nextOrder = some o) :
      Own w s ((((((Ev.start s).upd (·.headTaken o)).grip o.incoming).grip o.outgoing).bookPocket o).bookRack o
        |>.bookSpindle o)
  | done {o : Order} (hw : w ≠ .nobody) (hbusy : s.busyOrder = some o) (hpresent : s.present o.pos = true) :
      Own w s (((Ev.start s).upd (·.retire o.number)).done o)
  | fail {o : Order} {missing : Option EntryIx} (hw : w ≠ .nobody) (hbusy : s.busyOrder = some o) (hpresent : s.present o.pos = true)
      (hmissing : ∀ i, missing = some i → o.names i = true) :
      Own w s ((((((Ev.start s).upd (·.retire o.number)).failMoves o missing).failSister o missing).failReport o
        missing).failNeed o)
  | expiry {o : Order} (hw : w ≠ .nobody) (hbusy : s.busyOrder = some o) :
      Own w s ((((((((Ev.start s).upd (·.retire o.number)).loseTool o.incoming).loseTool o.outgoing).losePocket o.number
        o.pocket).updPos o.pos (·.expire o)).upd fun s =>
          { s with ret.expired := rememberExpired o.number s.ret.expired }).expireNotices o |>.expireSister o)
  | deliver (words : Vector SampleWord 16) : Own w s (((Ev.start s).upd fun s => s.keepSamples words).deliver words)
  | retry {x : PosIx} (hheld : (s.pos x).service = .held) :
      Own w s (((((Ev.start s).upd (·.stopTimer x)).updPos x Position.endHold).upd (·.restartChannel x)).needTest x)
  | release {x : PosIx} (hserv : (s.pos x).service = .serving ∨ (s.pos x).service = .due) :
      Own w s (((Ev.start s).updPos x Position.release).needTest x)
  | reclaim {x : PosIx} (hserv : (s.pos x).service = .released) :
      Own w s (((((Ev.start s).reclaimOrder x).updPos x Position.reclaim).noticeDue x).needTest x)
  | verdictOk {x : PosIx} (hheld : (s.pos x).service = .held) :
      Own w s ((((((Ev.start s).updPos x Position.endHold).updPos x fun p => { p with retryCount := 0 }).noticeDue
        x).verdictChannel x).needTest x)
  | verdictBroken {x : PosIx}
      (hserv : (s.pos x).service = .serving ∨ (s.pos x).service = .due ∨ (s.pos x).service = .held) :
      Own w s (((((((Ev.start s).breakTool x).updPos x Position.broken).notifySlot x .due).makeNeedUrgent x).needTest
        x).verdictChannel x)
  | enrol {i : EntryIx} {serial : Nat} {k : TypeIx} {f : TypeRec} {pl : PutPlace} {given : Option Nat}
      (hserial : serial ≠ 0) (hnew : s.serialHeld serial = false) (htyp : s.typ k = some f) (hlife : given.getD 0 ≤ f.lnew)
      (hfree : s.freeEntry = some i) (hready : s.readyForEnrol pl = true) :
      Own w s (((Ev.start s).putTool i (newTool serial k (s.figures k).lnew given) pl).afterPut i pl)
  | withdraw {i : EntryIx} {t : Tool} (htool : s.tool i = some t) (hmay : s.withdrawable i t = true) :
      Own w s (((Ev.start s).freePlace t.place).upd fun s => s.setTool i none)
  | reinstate {i : EntryIx} {t : Tool} {k : TypeIx} {pl : PutPlace} {given : Option Nat} (htool : s.tool i = some t)
      (hquarantined : t.state = .quarantined) (htyp : k ≠ t.type → (s.typ k).isSome = true ∧ given.isSome = true)
      (hlife : given.getD 0 ≤ (s.figures k).lnew) (hready : s.readyForReinstate i pl = true) :
      Own w s ((((Ev.start s).leaveOldPocket t.place pl).putTool i (t.reinstate k given) pl).afterPut i pl)
  | declarePocket {k : PocketIx} (hunknown : s.pocket k = .unknown) : Own w s ((Ev.start s).setPocket k .free)
  | parts (x : PosIx) (n : Nat) :
      Own w s (((Ev.start s).chargeMounted x (fun f => n * f.wp) (Tool.countParts n)).evalTriggers x)
  | dress (x d : PosIx) (n : Nat) :
      Own w s (((((Ev.start s).chargeMounted x (fun f => n * f.dd) (Tool.countDresses n)).chargeMounted d
        (fun f => n * f.dd) (Tool.countDresses n)).evalTriggers x).evalTriggers d)
  | gauge {x : PosIx} {d : Nat} {i : EntryIx} {t : Tool} (hmounted : s.mountedTool x = some (i, t)) :
      Own w s ((Ev.start s).gaugeTool x i t d)
  | idle : Own w s (Ev.start s)

/-- A move of the part that no request makes: a calm change, or an event that leaves the queue to its hand-offs where no
order is out. -/
inductive Move (w : Clearing) (s : State) : State → Prop
  | calm {t : State} (h : Calm s t) : Move w s t
  | event {e : Ev} (h : Own w s e) (hqueue : s.busyOrder = none → e.st.ret.queue = s.ret.queue) : Move w s (finish s e)

/-- The notices of PC are emptied, retained state staying as it is. -/
structure Silenced (s t : State) : Prop where
  ret : t.ret = s.ret
  checkByte : t.checkByte = s.checkByte
  pcNotices : (t.port .pc).notices = 0
  lines : LineLaw t

/-- What a command may do beside moves: the notices of PC go, or a warm start is taken. -/
inductive Break (s : State) : State → Prop
  | silenced {t : State} (h : Silenced s t) : Break s t
  | warm {u : State} (pins : Strap) (hret : u.ret = s.ret) : Break s (warmStart pins u)

/-- What a command does: a calm change, at most one break, moves; or the event of a request; or a cold start. -/
inductive Runs (w : Clearing) (s : State) : State → Prop
  | moves {u v t : State} (hu : Calm s u) (hv : v = u ∨ Break u v) (hm : Relation.ReflTransGen (Move w) v t) : Runs w s t
  | event {u t : State} {e : Ev} (hu : Calm s u) (h : Own w u e) (ht : Calm (finish u e) t) : Runs w s t
  | cold {u t : State} (pins : Strap) (ht : Calm (coldStart pins u) t) : Runs w s t

section
variable {w : Clearing}

theorem Runs.of_calm {s t : State} (h : Calm s t) : Runs w s t := .moves h (.inl rfl) .refl

theorem Runs.refl (s : State) : Runs w s s := .of_calm (.refl s)

theorem Runs.of_moves {s t : State} (h : Relation.ReflTransGen (Move w) s t) : Runs w s t :=
  .moves (.refl s) (.inl rfl) h

theorem Runs.of_event {s : State} {e : Ev} (h : Own w s e) : Runs w s (finish s e) := .event (.refl s) h (.refl _)

theorem Runs.of_break {s t : State} (h : Break s t) : Runs w s t := .moves (.refl s) (.inr h) .refl

theorem Runs.calm_trans {s t u : State} (h : Calm s t) (g : Runs w t u) : Runs w s u := by
  cases g with
  | moves hu hv hm => exact .moves (h.trans hu) hv hm
  | event hu h' ht => exact .event (h.trans hu) h' ht
  | cold pins ht => exact .cold pins ht

/-- What a command does, seen from before a change of fields that a calm change may make. -/
theorem Runs.after {s t u : State} (h : Runs w t u) (hret : t.ret = s.ret) (hcheck : t.checkByte = s.checkByte)
    (hstrap : t.strap = s.strap) (hports : t.vol.ports = s.vol.ports) (hinhibit : t.inhibit = s.inhibit)
    (hreset : t.resetHeld = s.resetHeld) : Runs w s u :=
  .calm_trans (.of_eq hret hcheck hstrap hports hinhibit hreset) h

theorem Runs.calm {s t u : State} (h : Runs w s t) (g : Calm t u) : Runs w s u := by
  cases h with
  | moves hu hv hm => exact .moves hu hv (hm.tail (.calm g))
  | event hu h' ht => exact .event hu h' (ht.trans g)
  | cold pins ht => exact .cold pins (ht.trans g)

/-- What holds along calm changes, events and breaks holds along everything a command does. -/
theorem Runs.induct {P : State → Prop} {s t : State} (h : Runs w s t) (hs : P s)
    (calm : ∀ {a b}, Calm a b → P a → P b) (event : ∀ {a e}, Own w a e → P a → P (finish a e))
    (brk : ∀ {a b}, Break a b → P a → P b) (cold : ∀ pins u, P (coldStart pins u)) : P t := by
  cases h with
  | cold pins ht => exact calm ht (cold pins _)
  | event hu h ht => exact calm ht (event h (calm hu hs))
  | @moves u v _ hu hv hm =>
    have hv : P v := by
      obtain rfl | hb := hv
      · exact calm hu hs
      · exact brk hb (calm hu hs)
    induction hm with
    | refl => exact hv
    | tail _ hmove ih =>
      cases hmove with
      | calm h => exact calm h ih
      | event h _ => exact event h ih

end

end Sys2Proof.Machine

/-! PROOFS. Every command runs as `Runs` says. -/
namespace Sys2Proof.Machine

/-! ## What an accepted request leaves -/

/-- The state that an accepted request leaves before its reply: the state as it was, the end of an event, a warm start. -/
inductive Accepted (w : Clearing) (p : Port) (s : State) : State → Prop
  | same : Accepted w p s s
  | event {e : Ev} (h : Own w s e) : Accepted w p s (finish s e)
  | warm (hp : p = .ps) : Accepted w p s (warmStart s.pins s)

/-- What a block makes of a request is a refusal, or a state that an accepted request may leave. -/
def Accepts (w : Clearing) (p : Port) (s : State) (a : Answer) : Prop := ∀ t r, a = .ok (t, r) → Accepted w p s t

section
variable {w : Clearing} {p : Port}

theorem Accepts.error (s : State) (st : Status) : Accepts w p s (.error st) := by
  intro t r h
  cases h

theorem Accepts.ok {s t : State} (h : Accepted w p s t) (r : List Byte) : Accepts w p s (.ok (t, r)) := by
  rintro _ _ ⟨⟩
  exact h

theorem Accepts.asStation {s : State} {p : Port} {body : Station → Answer} (h : ∀ n, Accepts w p s (body n)) :
    Accepts w p s (asStation p body) := by
  cases p with
  | station n => exact h n
  | pc => exact .error s _
  | ps => exact .error s _

theorem Accepts.asChanger {s : State} {p : Port} {body : Answer} (h : Accepts w p s body) : Accepts w p s (asChanger p body) := by
  unfold Machine.asChanger
  split
  · exact h
  · exact .error s _

theorem Accepts.asSupervisor {s : State} {p : Port} {body : Answer} (h : Accepts w p s body) :
    Accepts w p s (asSupervisor p body) := by
  unfold Machine.asSupervisor
  split
  · exact h
  · exact .error s _

/-- RESTART is a request of the supervisor port alone. -/
theorem restart_accepts (p : Port) (s : State) : Accepts w p s (asSupervisor p (.ok (warmStart s.pins s, []))) := by
  unfold Machine.asSupervisor
  split
  · next hp => exact .ok (.warm hp) _
  · exact .error s _

/-! ## The bodies of the station requests -/

theorem openBody_accepts (n : Station) (slot : Nat) (s : State) : Accepts w p s (openBody n slot s) := by
  unfold openBody
  split
  · exact .error s _
  · dsimp only
    split_ifs with hw hs
    · exact .error s _
    · exact .error s _
    · exact .ok (.event (.openWindow (by tauto))) _

theorem closeBody_accepts (n : Station) (slot : Nat) (s : State) : Accepts w p s (closeBody n slot s) := by
  unfold closeBody
  split
  · exact .error s _
  · refine .ok ?_ _
    unfold closeEvent
    split
    · exact .event (.closeWindow _)
    · exact .same

theorem partsBody_accepts (n : Station) (slot k : Nat) (s : State) : Accepts w p s (partsBody n slot k s) := by
  unfold partsBody
  split
  · exact .error s _
  · dsimp only
    split_ifs
    · exact .error s _
    · exact .error s _
    · exact .ok (.event (.parts _ _)) _

theorem dressBody_accepts (n : Station) (slot k : Nat) (s : State) : Accepts w p s (dressBody n slot k s) := by
  unfold dressBody
  split
  · exact .error s _
  · dsimp only
    split_ifs
    · exact .error s _
    · exact .error s _
    · exact .error s _
    · exact .ok (.event (.dress _ _ _)) _

theorem gaugeEvent_accepted (x : PosIx) (d : Nat) (s : State) : Accepted w p s (gaugeEvent x d s) := by
  unfold gaugeEvent
  split
  · exact .event .idle
  · next hmounted => exact .event (.gauge hmounted)

theorem gaugeBody_accepts (n : Station) (slot d : Nat) (s : State) : Accepts w p s (gaugeBody n slot d s) := by
  unfold gaugeBody
  split
  · exact .error s _
  · dsimp only
    split_ifs
    · exact .error s _
    · exact .error s _
    · exact .ok (gaugeEvent_accepted _ d s) _

theorem releaseBody_accepts (n : Station) (slot : Nat) (s : State) : Accepts w p s (releaseBody n slot s) := by
  unfold releaseBody
  split
  · exact .error s _
  · dsimp only
    split_ifs with hserv
    · exact .ok (.event (.release hserv.1)) _
    · exact .error s _

theorem reclaimBody_accepts (n : Station) (slot : Nat) (s : State) : Accepts w p s (reclaimBody n slot s) := by
  unfold reclaimBody
  split
  · exact .error s _
  · dsimp only
    split_ifs with hserv
    · exact .ok (.event (.reclaim hserv)) _
    · exact .error s _

theorem verdictOkBody_accepts (n : Station) (slot : Nat) (s : State) : Accepts w p s (verdictOkBody n slot s) := by
  unfold verdictOkBody
  split
  · exact .error s _
  · dsimp only
    split_ifs with hheld
    · exact .ok (.event (.verdictOk hheld)) _
    · exact .error s _

theorem verdictBrokenBody_accepts (n : Station) (slot : Nat) (s : State) :
    Accepts w p s (verdictBrokenBody n slot s) := by
  unfold verdictBrokenBody
  split
  · exact .error s _
  · dsimp only
    split_ifs with hserv
    · exact .ok (.event (.verdictBroken hserv)) _
    · exact .error s _

/-! ## The bodies of the changer requests -/

theorem reported_eq_some {s : State} {n : Nat} {o : Order} (h : s.reported n = some o) :
    s.busyOrder = some o ∧ o.number = n ∧ s.present o.pos = true := by
  unfold State.reported at h
  split at h
  · next q hq =>
    split_ifs at h with hc
    obtain rfl := Option.some.inj h
    exact ⟨hq, hc⟩
  · cases h

theorem missingOperand_names {o : Order} {r : FailReason} {entry : Nat} {missing : Option EntryIx}
    (h : missingOperand o r entry = some missing) : ∀ i, missing = some i → o.names i = true := by
  rintro i rfl
  unfold missingOperand at h
  split at h
  · cases h
  · cases h
  · split at h
    · split_ifs at h with hn
      cases h
      exact hn
    · cases h

theorem takeBody_accepts (s : State) : Accepts w p s (takeBody s) := by
  unfold takeBody
  split_ifs with hbusy
  · exact .error s _
  · split
    · exact .error s _
    · next hnext => exact .ok (.event (.take (Option.not_isSome_iff_eq_none.mp hbusy) hnext)) _

theorem doneBody_accepts (hw : w ≠ .nobody) (n : Nat) (s : State) : Accepts w p s (doneBody n s) := by
  unfold doneBody
  split_ifs
  · exact .error s _
  · split
    · next ho =>
      obtain ⟨hbusy, -, hpresent⟩ := reported_eq_some ho
      exact .ok (.event (.done hw hbusy hpresent)) _
    · exact .error s _

theorem failBody_accepts (hw : w ≠ .nobody) (n reason entry : Nat) (s : State) : Accepts w p s (failBody n reason entry s) := by
  unfold failBody
  split
  · exact .error s _
  · split_ifs
    · exact .error s _
    · split
      · exact .error s _
      · next ho =>
        obtain ⟨hbusy, -, hpresent⟩ := reported_eq_some ho
        split
        · exact .error s _
        · next hm => exact .ok (.event (.fail hw hbusy hpresent (missingOperand_names hm))) _

/-! ## The bodies of the supervisor requests -/

theorem typeSetEvent_accepted {k : TypeIx} {f : TypeSetOperands} {s : State} (hrange : typeSetInRange f = true)
    (huse : ¬(s.inUse k = true ∧ s.edits k f = false)) : Accepted w p s (typeSetEvent k f s) := by
  unfold typeSetEvent
  split
  · next hedit =>
    obtain ⟨old, hold, hgeometry⟩ := (Option.any_eq_true _ _).mp hedit
    exact .event (.typeEdit hold hrange hgeometry)
  · next hedit =>
    refine .event (.typeDefine hrange ?_)
    simpa [hedit] using huse

theorem typeSetBody_accepts (code : Nat) (f : TypeSetOperands) (s : State) : Accepts w p s (typeSetBody code f s) := by
  unfold typeSetBody
  split
  · exact .error s _
  · split_ifs with hrange huse
    · exact .error s _
    · exact .error s _
    · exact .ok (typeSetEvent_accepted (by simpa using hrange) huse) _

theorem typeEraseBody_accepts (code : Nat) (s : State) : Accepts w p s (typeEraseBody code s) := by
  unfold typeEraseBody
  split
  · exact .error s _
  · split_ifs with hdef huse
    · exact .error s _
    · exact .error s _
    · exact .ok (.event (.typeErase (by simpa using huse))) _

theorem enrolBody_accepts (serial code kind number mode r : Nat) (s : State) :
    Accepts w p s (enrolBody serial code kind number mode r s) := by
  unfold enrolBody
  split
  · split
    · exact .error s _
    next hserial =>
    split
    · exact .error s _
    next htyp =>
    split
    · exact .error s _
    next hlife =>
    split
    · exact .error s _
    next hheld =>
    split
    · exact .error s _
    next hfree =>
    split
    · exact .error s _
    next hready =>
    exact .ok (.event (.enrol (by tauto) (by simpa using hheld) htyp (by omega) hfree (by simpa using hready))) _
  · exact .error s _

theorem withdrawBody_accepts (entry : Nat) (s : State) : Accepts w p s (withdrawBody entry s) := by
  unfold withdrawBody
  split
  · exact .error s _
  · split
    · exact .error s _
    · next htool =>
      split_ifs with hmay
      · exact .ok (.event (.withdraw htool hmay)) _
      · exact .error s _

theorem reinstateBody_accepts (entry code kind number mode r : Nat) (s : State) :
    Accepts w p s (reinstateBody entry code kind number mode r s) := by
  unfold reinstateBody
  split
  · next i gt pl given _ _ _ _ =>
    split
    · exact .error s _
    split
    · exact .error s _
    next t htool =>
    dsimp only
    split
    · exact .error s _
    next hdef =>
    split
    · exact .error s _
    next hstate =>
    split
    · exact .error s _
    next hlife =>
    split
    · exact .error s _
    next hready =>
    refine .ok (.event (.reinstate htool (by tauto) (fun hk => ?_) (by omega) (by simpa using hready))) _
    have hgiven : given.isSome = true := by
      by_contra hnone
      exact hlife (.inl ⟨hk, Option.not_isSome_iff_eq_none.mp hnone⟩)
    have hgt : gt.isSome = true := by
      cases gt with
      | none => exact absurd rfl hk
      | some _ => rfl
    exact ⟨by simpa [hgt, Option.isSome_iff_ne_none] using hdef, hgiven⟩
  · exact .error s _

theorem declarePocketBody_accepts (number : Nat) (s : State) : Accepts w p s (declarePocketBody number s) := by
  unfold declarePocketBody
  split
  · exact .error s _
  · split_ifs with hunknown
    · exact .ok (.event (.declarePocket hunknown)) _
    · exact .error s _

theorem presentOperand_eq_some {s : State} {v : Nat} {x : PosIx} (h : s.presentOperand v = some x) :
    x.val = v ∧ s.present x = true := by
  unfold State.presentOperand positionOperand at h
  split_ifs at h with hv
  · dsimp only at h
    split_ifs at h with hp
    obtain rfl := Option.some.inj h
    exact ⟨rfl, hp⟩

theorem declarePositionBody_accepts (v : Nat) (s : State) : Accepts .anybody p s (declarePositionBody v s) := by
  unfold declarePositionBody
  split
  · exact .error s _
  · next hx =>
    split_ifs with hopen
    · exact .ok (.event (.declarePosition rfl (presentOperand_eq_some hx).2 hopen)) _
    · exact .error s _

theorem assignBody_accepts (v code : Nat) (s : State) : Accepts .anybody p s (assignBody v code s) := by
  unfold assignBody
  split
  · next hx _ =>
    split_ifs with hdef hkind hsame
    · exact .error s _
    · exact .error s _
    · exact .ok .same _
    · exact .ok (.event (.assign rfl (presentOperand_eq_some hx).2 (by simpa using hdef) hsame)) _
  · exact .error s _

theorem monitorBody_accepts (v m t l : Nat) (s : State) : Accepts w p s (monitorBody v m t l s) := by
  unfold monitorBody
  split
  · split
    · exact .error s _
    · next hrange =>
      refine .ok (.event (.monitor (Bool.eq_true_of_not_eq_false fun h => hrange (.inl h)) (by omega))) _
  · exact .error s _

theorem clearRetriesBody_accepts (v : Nat) (s : State) : Accepts w p s (clearRetriesBody v s) := by
  unfold clearRetriesBody
  split
  · exact .error s _
  · exact .ok (.event (.clearRetries _)) _

theorem routeBody_accepts (slot v signal : Nat) (s : State) : Accepts w p s (routeBody slot v signal s) := by
  unfold routeBody
  split
  · split_ifs with helse hsame
    · exact .error s _
    · exact .ok .same _
    · exact .ok (.event (.route (by simpa using helse))) _
  · exact .error s _

theorem timeoutBody_accepts (n : Nat) (s : State) : Accepts w p s (timeoutBody n s) := by
  unfold timeoutBody
  split_ifs
  · exact .error s _
  · exact .ok (.event (.timeout n)) _

theorem resumeBody_accepts (v : Nat) (s : State) : Accepts w p s (resumeBody v s) := by
  unfold resumeBody
  split
  · exact .error s _
  · next hx =>
    split_ifs with hsuspended
    · exact .ok (.event (.resume (presentOperand_eq_some hx).2 hsuspended)) _
    · exact .error s _

/-! ## The bodies of the queries -/

theorem queryTypeBody_accepts (code : Nat) (s : State) : Accepts w p s (queryTypeBody code s) := by
  unfold queryTypeBody
  split
  · exact .error s _
  · exact .ok .same _

theorem queryToolBody_accepts (p : Port) (entry : Nat) (s : State) : Accepts w p s (queryToolBody p entry s) := by
  unfold queryToolBody
  split
  · exact .error s _
  · split_ifs
    · exact .ok .same _
    · exact .error s _

theorem queryPositionBody_accepts (p : Port) (v : Nat) (s : State) : Accepts w p s (queryPositionBody p v s) := by
  unfold queryPositionBody
  split
  · exact .error s _
  · split
    · exact .error s _
    · exact .ok .same _
  · split
    · exact .error s _
    · exact .ok .same _

theorem queryOrderBody_accepts (p : Port) (n : Nat) (s : State) : Accepts w p s (queryOrderBody p n s) := by
  unfold queryOrderBody
  split
  · exact .error s _
  · split
    · exact .error s _
    · exact .ok .same _

/-! ## Requests -/

/-- The commands that are requests with decoded operands. -/
def isRequest : Instr → Bool
  | .undecodedRequest _ _ | .fetchReply _ | .fetchNotices _ | .wellFormedFrame _ | .malformedFrame _
  | .lossDeadlineReached | .swapDeadlineExpiry | .retryTimerExpiry _ | .millisecondTick | .resetAssert
  | .resetRelease _ | .powerOnStart _ | .mainSupplyFail | .vbatLowLatch => false
  | _ => true

/-- Whose needs a command may clear. -/
def Clearing.allows (w : Clearing) : Instr → Prop
  | .assign _ _ _ | .declarePosition _ _ | .undecodedRequest _ _ => w = .anybody
  | .doneOrder _ _ | .failOrder _ _ _ _ | .swapDeadlineExpiry | .millisecondTick => w ≠ .nobody
  | _ => True

theorem Clearing.anybody_allows (c : Instr) : Clearing.anybody.allows c := by
  cases c <;> simp [Clearing.allows]

/-- A command that answers at a port as `serve` does, with a body that accepts. -/
def ServedAt (w : Clearing) (p : Port) (s : State) (out : Host.Outcome State Fault Refusal) : Prop :=
  ∃ code body, out = serve p code body s ∧ Accepts w p s body

theorem ServedAt.intro {p : Port} {s : State} (code : Nat) {body : Answer} (h : Accepts w p s body) :
    ServedAt w p s (serve p code body s) := ⟨code, body, rfl, h⟩

/-- Every request is served at its port, as a decoded command and as a frame alike. -/
theorem runRequest_served {c : Instr} (hc : isRequest c = true) (hw : w.allows c) (s : State) :
    ∃ p, c.port = some p ∧ runRequest c s = exec c s ∧ ServedAt w p s (exec c s) := by
  cases c with
  | check p => exact ⟨p, rfl, rfl, .intro _ (.asStation fun _ => .ok .same _)⟩
  | openWindow p slot => exact ⟨p, rfl, rfl, .intro _ (.asStation fun _ => openBody_accepts _ _ _)⟩
  | closeWindow p slot => exact ⟨p, rfl, rfl, .intro _ (.asStation fun _ => closeBody_accepts _ _ _)⟩
  | parts p slot n => exact ⟨p, rfl, rfl, .intro _ (.asStation fun _ => partsBody_accepts _ _ _ _)⟩
  | dress p slot n => exact ⟨p, rfl, rfl, .intro _ (.asStation fun _ => dressBody_accepts _ _ _ _)⟩
  | gauge p slot d => exact ⟨p, rfl, rfl, .intro _ (.asStation fun _ => gaugeBody_accepts _ _ _ _)⟩
  | release p slot => exact ⟨p, rfl, rfl, .intro _ (.asStation fun _ => releaseBody_accepts _ _ _)⟩
  | reclaim p slot => exact ⟨p, rfl, rfl, .intro _ (.asStation fun _ => reclaimBody_accepts _ _ _)⟩
  | verdictOk p slot => exact ⟨p, rfl, rfl, .intro _ (.asStation fun _ => verdictOkBody_accepts _ _ _)⟩
  | verdictBroken p slot => exact ⟨p, rfl, rfl, .intro _ (.asStation fun _ => verdictBrokenBody_accepts _ _ _)⟩
  | takeOrder p => exact ⟨p, rfl, rfl, .intro _ (takeBody_accepts s).asChanger⟩
  | doneOrder p n => exact ⟨p, rfl, rfl, .intro _ (doneBody_accepts hw n s).asChanger⟩
  | failOrder p n r e => exact ⟨p, rfl, rfl, .intro _ (failBody_accepts hw n r e s).asChanger⟩
  | typeSet p code f => exact ⟨p, rfl, rfl, .intro _ (typeSetBody_accepts code f s).asSupervisor⟩
  | typeErase p code => exact ⟨p, rfl, rfl, .intro _ (typeEraseBody_accepts code s).asSupervisor⟩
  | enrol p serial code k n m r => exact ⟨p, rfl, rfl, .intro _ (enrolBody_accepts serial code k n m r s).asSupervisor⟩
  | withdraw p e => exact ⟨p, rfl, rfl, .intro _ (withdrawBody_accepts e s).asSupervisor⟩
  | reinstate p e code k n m r => exact ⟨p, rfl, rfl, .intro _ (reinstateBody_accepts e code k n m r s).asSupervisor⟩
  | declarePocket p n => exact ⟨p, rfl, rfl, .intro _ (declarePocketBody_accepts n s).asSupervisor⟩
  | declarePosition p x =>
    obtain rfl : w = .anybody := hw
    exact ⟨p, rfl, rfl, .intro _ (declarePositionBody_accepts x s).asSupervisor⟩
  | assign p x code =>
    obtain rfl : w = .anybody := hw
    exact ⟨p, rfl, rfl, .intro _ (assignBody_accepts x code s).asSupervisor⟩
  | monitorSet p x m t l => exact ⟨p, rfl, rfl, .intro _ (monitorBody_accepts x m t l s).asSupervisor⟩
  | clearRetries p x => exact ⟨p, rfl, rfl, .intro _ (clearRetriesBody_accepts x s).asSupervisor⟩
  | routeSet p h x g => exact ⟨p, rfl, rfl, .intro _ (routeBody_accepts h x g s).asSupervisor⟩
  | timeoutSet p n => exact ⟨p, rfl, rfl, .intro _ (timeoutBody_accepts n s).asSupervisor⟩
  | resume p x => exact ⟨p, rfl, rfl, .intro _ (resumeBody_accepts x s).asSupervisor⟩
  | restart p => exact ⟨p, rfl, rfl, .intro _ (restart_accepts p s)⟩
  | queryType p code => exact ⟨p, rfl, rfl, .intro _ (queryTypeBody_accepts code s).asSupervisor⟩
  | queryTool p e => exact ⟨p, rfl, rfl, .intro _ (queryToolBody_accepts p e s)⟩
  | queryPosition p v => exact ⟨p, rfl, rfl, .intro _ (queryPositionBody_accepts p v s)⟩
  | queryOrder p n => exact ⟨p, rfl, rfl, .intro _ (queryOrderBody_accepts p n s)⟩
  | queryWaiting p => exact ⟨p, rfl, rfl, .intro _ (Accepts.ok .same _).asSupervisor⟩
  | queryCell p => exact ⟨p, rfl, rfl, .intro _ (Accepts.ok .same _).asSupervisor⟩
  | _ => cases hc

/-- A record spells a request of the port it came in by, or none. -/
theorem requestOf_request {p : Port} {code : Nat} {r : List Byte} {c : Instr} (h : requestOf p code r = some c) :
    isRequest c = true ∧ c.port = some p := by
  unfold requestOf at h
  split at h <;> (try split at h) <;> cases h <;> exact ⟨rfl, rfl⟩

theorem decodeFrame_request {p : Port} {bytes : List Byte} {c : Instr} (h : decodeFrame p bytes = .request c) :
    isRequest c = true ∧ c.port = some p := by
  unfold decodeFrame at h
  split at h
  · cases h
  · split_ifs at h
    unfold decodeRecord at h
    dsimp only at h
    split at h
    · cases h
    · split_ifs at h
      split at h
      · next hr =>
        cases h
        exact requestOf_request hr
      · cases h

theorem refuseEncoding_accepts (p : Port) (code : Nat) (s : State) : Accepts w p s (refuseEncoding p code) := by
  unfold refuseEncoding
  split
  · exact .asStation fun _ => .error s _
  · exact (Accepts.error s _).asSupervisor

/-- Every REQUEST transaction is served at its port. -/
theorem takeFrame_served (p : Port) (bytes : List Byte) (s : State) : ServedAt .anybody p s (takeFrame p bytes s) := by
  unfold takeFrame
  split
  · exact .intro _ (.error s _)
  · exact .intro _ (.error s _)
  · exact .intro _ (.error s _)
  · exact .intro _ (refuseEncoding_accepts p _ s)
  · next hc =>
    obtain ⟨hrequest, hport⟩ := decodeFrame_request hc
    obtain ⟨q, hq, heq, hserved⟩ := runRequest_served (w := .anybody) hrequest (Clearing.anybody_allows _) s
    obtain rfl := Option.some.inj (hport.symm.trans hq)
    rw [heq]
    exact hserved

/-! ## Replies, fetches and bytes -/

theorem calm_answer (s : State) (p : Port) (r : Reply) : Calm s (s.answer p r) := by
  refine Calm.drive rfl rfl rfl ?_
  rw [State.port_setPort]
  split
  · next hp => subst hp; rfl
  · rfl

theorem calm_setReception (s : State) (p : Port) (r : Reception) : Calm s (s.setReception p r) :=
  .setPort s p rfl rfl rfl

theorem calm_endReception (s : State) (p : Port) : Calm s (s.endReception p) := .setPort s p rfl rfl rfl

theorem Accepted.runs {s t : State} (h : Accepted w p s t) : Runs w s t := by
  cases h with
  | same => exact .refl s
  | event h => exact .of_event h
  | warm _ => exact .of_break (.warm _ rfl)

theorem ServedAt.runs {p : Port} {s t : State} {out : Host.Outcome State Fault Refusal} (h : ServedAt w p s out)
    (ht : out = .next t) : Runs w s t := by
  obtain ⟨code, body, rfl, hbody⟩ := h
  unfold serve at ht
  obtain rfl := Host.Outcome.next.inj ht
  split_ifs
  · split
    · exact .of_calm (calm_answer s p _)
    · next s' _ => exact (hbody s' _ rfl).runs.calm (calm_answer s' p _)
  · exact .of_calm (calm_endReception s p)

/-- A change of a port after which the lines take their levels is calm, or it has emptied the notices of PC. -/
theorem runs_setPort_drive (s : State) (p : Port) {v : PortState} (hv : v.notices = (s.port p).notices ∨ v.notices = 0) :
    Runs w s (s.setPort p v).drive := by
  by_cases hpc : ((s.setPort p v).port .pc).notices = (s.port .pc).notices
  · exact .of_calm (.drive rfl rfl rfl hpc)
  · refine .of_break (.silenced ⟨rfl, rfl, ?_, lineLaw_drive _⟩)
    rw [State.port_drive]
    rw [State.port_setPort] at hpc
    show ((s.setPort p v).port .pc).notices = 0
    rw [State.port_setPort]
    split_ifs at hpc ⊢ with hp
    · subst hp
      exact hv.resolve_left hpc
    · exact absurd rfl hpc

theorem kindByte_runs (s : State) (p : Port) (b : Byte) : Runs w s (s.kindByte p b) := by
  unfold State.kindByte
  dsimp only
  split
  · exact .of_calm (calm_setReception s p _)
  · exact runs_setPort_drive s p (.inl rfl)
  · exact runs_setPort_drive s p (.inr rfl)
  · exact .of_calm (calm_setReception s p _)

/-- One byte of a transaction: the kind byte may be a fetch of the notices of PC; every other byte is calm. -/
theorem clockByte_runs (s : State) (p : Port) (b : Byte) : Runs w s (s.clockByte p b) := by
  obtain ⟨-, h⟩ | ⟨-, ⟨-, h⟩ | ⟨bytes, -, h⟩ | ⟨c, rest, -, h⟩ | ⟨-, h⟩⟩ := State.clockByte_cases p s b <;> rw [h]
  · exact .of_calm (calm_setReception s p _)
  · exact kindByte_runs s p b
  · exact .of_calm (calm_setReception s p _)
  · exact .of_calm (.setPort s p rfl rfl rfl)
  · exact .refl s

/-- The first byte of a transaction leaves one in progress, and is calm or the kind byte of a fetch. -/
theorem clockByte_first {s : State} {p : Port} (b : Byte) (h : (s.port p).reception = .idle) :
    ((s.clockByte p b).port p).reception ≠ .idle ∧
      (Calm s (s.clockByte p b) ∨ ∀ got, ((s.clockByte p b).port p).reception ≠ .receiving got) := by
  unfold State.clockByte
  rw [h]
  split
  · unfold State.kindByte
    dsimp only
    split
    · exact ⟨by simp, .inl (calm_setReception s p _)⟩
    · exact ⟨by simp [PortState.fetchReply], .inr (by simp [PortState.fetchReply])⟩
    · exact ⟨by simp [PortState.fetchNotices], .inr (by simp [PortState.fetchNotices])⟩
    · exact ⟨by simp, .inl (calm_setReception s p _)⟩
  · exact ⟨by simp, .inl (calm_setReception s p _)⟩

/-- A byte of a transaction in progress is calm, and the transaction goes on; a REQUEST stays one and no other becomes
one. -/
theorem clockByte_progress {s : State} {p : Port} (b : Byte) (h : (s.port p).reception ≠ .idle) :
    Calm s (s.clockByte p b) ∧ ((s.clockByte p b).port p).reception ≠ .idle ∧
      ((∀ got, (s.port p).reception ≠ .receiving got) →
        ∀ got, ((s.clockByte p b).port p).reception ≠ .receiving got) := by
  obtain ⟨-, e⟩ | ⟨-, ⟨hi, -⟩ | ⟨bytes, hr, e⟩ | ⟨c, rest, -, e⟩ | ⟨-, e⟩⟩ := State.clockByte_cases p s b
  · rw [e]
    exact ⟨calm_setReception s p _, by simp, by simp⟩
  · exact absurd hi h
  · rw [e]
    exact ⟨calm_setReception s p _, by simp, fun hn => absurd hr (hn bytes)⟩
  · rw [e]
    exact ⟨.setPort s p rfl rfl rfl, by simp, by simp⟩
  · rw [e]
    exact ⟨.refl s, h, id⟩

/-- The bytes of a transaction in progress. -/
theorem clockBytes_progress (p : Port) (bytes : List Byte) {s : State} (h : (s.port p).reception ≠ .idle) :
    Calm s (bytes.foldl (State.clockByte p) s) ∧
      ((∀ got, (s.port p).reception ≠ .receiving got) →
        ∀ got, ((bytes.foldl (State.clockByte p) s).port p).reception ≠ .receiving got) := by
  induction bytes generalizing s with
  | nil => exact ⟨.refl s, id⟩
  | cons b rest ih =>
    obtain ⟨hcalm, hgoes, hkind⟩ := clockByte_progress b h
    obtain ⟨hrest, hkinds⟩ := ih hgoes
    exact ⟨hcalm.trans hrest, hkinds ∘ hkind⟩

/-- The release of chip select after a run of bytes: the transaction is over, or it is a REQUEST and is taken. -/
theorem releaseSelect_runs {p : Port} {s t : State} (h : releaseSelect p s = .next t) : Runs .anybody s t := by
  unfold releaseSelect at h
  split at h
  · exact .calm_trans (calm_endReception s p) ((takeFrame_served p _ _).runs h)
  · cases h
    exact .of_calm (calm_endReception s p)

theorem releaseSelect_calm {p : Port} {s t : State} (hkind : ∀ got, (s.port p).reception ≠ .receiving got)
    (h : releaseSelect p s = .next t) : Calm s t := by
  unfold releaseSelect at h
  split at h
  · next hr => exact absurd hr (hkind _)
  · cases h
    exact calm_endReception s p

/-- A transaction, or a part of one: calm bytes and a REQUEST taken, or a fetch and calm bytes. -/
theorem undecodedRequest_runs {p : Port} {sent : Transfer} {s t : State}
    (h : execUndecodedRequest p sent s = .next t) : Runs .anybody s t := by
  unfold execUndecodedRequest at h
  obtain ⟨bytes, released⟩ := sent
  dsimp only at h
  cases bytes with
  | nil =>
    split_ifs at h
    · exact releaseSelect_runs h
    · cases h
      exact .refl s
  | cons b rest =>
    rw [List.foldl_cons] at h
    have hfirst : ((s.clockByte p b).port p).reception ≠ .idle ∧
        (Calm s (s.clockByte p b) ∨ ∀ got, ((s.clockByte p b).port p).reception ≠ .receiving got) := by
      by_cases hidle : (s.port p).reception = .idle
      · exact clockByte_first b hidle
      · obtain ⟨hcalm, hgoes, -⟩ := clockByte_progress b hidle
        exact ⟨hgoes, .inl hcalm⟩
    obtain ⟨hgoes, hkind⟩ := hfirst
    obtain ⟨hrest, hstays⟩ := clockBytes_progress p rest hgoes
    obtain hcalm | hfetch := hkind
    · split_ifs at h
      · exact .calm_trans (hcalm.trans hrest) (releaseSelect_runs h)
      · cases h
        exact .of_calm (hcalm.trans hrest)
    · have hrun := (clockByte_runs (w := .anybody) s p b).calm hrest
      split_ifs at h
      · exact hrun.calm (releaseSelect_calm (hstays hfetch) h)
      · cases h
        exact hrun

/-! ## The queue in a delivery and at the end of a hold -/

theorem Ev.queue_needTest (e : Ev) (x : PosIx) : (e.needTest x).st.ret.queue = e.st.ret.queue := by
  unfold Ev.needTest
  split
  · unfold Ev.raiseNeed
    dsimp only
    split
    · rfl
    · show (State.notify _ .ps .waiting).ret.queue = _
      rw [State.ret_notify]
      show (State.joinWaiting _ x).ret.queue = _
      unfold State.joinWaiting
      dsimp only
      split <;> rfl
  · rfl

theorem Ev.queue_hold (e : Ev) (x : PosIx) (c : HoldCause) : (e.hold x c).st.ret.queue = e.st.ret.queue := by
  unfold Ev.hold
  rw [Ev.queue_needTest]
  show (State.notifySlot _ x .held).ret.queue = _
  rw [State.ret_notifySlot]
  rfl

theorem Ev.queue_tripByMode (e : Ev) (x : PosIx) : (e.tripByMode x).st.ret.queue = e.st.ret.queue := by
  unfold Ev.tripByMode
  dsimp only
  split
  · rfl
  · rfl
  · exact Ev.queue_hold e x _
  · split
    · exact Ev.queue_hold _ x _
    · exact Ev.queue_hold e x _

theorem Ev.queue_trip (e : Ev) (x : PosIx) (i : EntryIx) : (e.trip x i).st.ret.queue = e.st.ret.queue := by
  unfold Ev.trip
  rw [Ev.queue_tripByMode]
  show (State.notify (State.notifySlot _ x .trip) .ps .anyTrip).ret.queue = _
  rw [State.ret_notify, State.ret_notifySlot]
  rfl

theorem Ev.queue_deliverTo (words : Vector SampleWord 16) (e : Ev) (x : PosIx) :
    (e.deliverTo words x).st.ret.queue = e.st.ret.queue := by
  unfold Ev.deliverTo
  split
  · split
    · rfl
    · rfl
    · rfl
    · unfold Ev.evaluate
      split
      · rfl
      · dsimp only
        split
        · exact Ev.queue_trip _ x _
        · rfl
  · rfl

theorem Ev.queue_deliver (words : Vector SampleWord 16) (e : Ev) : (e.deliver words).st.ret.queue = e.st.ret.queue := by
  have hfold : ∀ (l : List PosIx) (e : Ev), (l.foldl (Ev.deliverTo words) e).st.ret.queue = e.st.ret.queue := by
    intro l
    induction l with
    | nil => exact fun _ => rfl
    | cons x l ih => exact fun e => (ih _).trans (Ev.queue_deliverTo words e x)
  unfold Ev.deliver
  exact hfold allPositions e

theorem queue_keepSamples (s : State) (words : Vector SampleWord 16) : (s.keepSamples words).ret.queue = s.ret.queue := by
  unfold State.keepSamples
  rfl

theorem Move.deliver (words : Vector SampleWord 16) (s : State) :
    Move w s (finish s (((Ev.start s).upd fun s => s.keepSamples words).deliver words)) :=
  .event (.deliver words) fun _ => (Ev.queue_deliver words _).trans (queue_keepSamples s words)

theorem queue_restartChannel (s : State) (x : PosIx) : (s.restartChannel x).ret.queue = s.ret.queue := by
  unfold State.restartChannel
  split
  · split <;> rfl
  · rfl

theorem Move.retry {s : State} {x : PosIx} (hheld : (s.pos x).service = .held) : Move w s (finish s
    (((((Ev.start s).upd (·.stopTimer x)).updPos x Position.endHold).upd (·.restartChannel x)).needTest x)) :=
  .event (.retry hheld) fun _ => (Ev.queue_needTest _ x).trans (queue_restartChannel _ x)

theorem Move.expiry {s : State} {o : Order} (hw : w ≠ .nobody) (hbusy : s.busyOrder = some o) : Move w s (finish s
    ((((((((Ev.start s).upd (·.retire o.number)).loseTool o.incoming).loseTool o.outgoing).losePocket o.number
      o.pocket).updPos o.pos (·.expire o)).upd fun s =>
        { s with ret.expired := rememberExpired o.number s.ret.expired }).expireNotices o |>.expireSister o)) :=
  .event (.expiry hw hbusy) fun hnone => by rw [hbusy] at hnone; cases hnone

/-! ## The highway and the time base -/

/-- Notices that go to other ports than PC leave its set. -/
theorem pcNotices_notify {s : State} {p : Port} (hp : p ≠ .pc) (n : Notice) :
    ((s.notify p n).port .pc).notices = (s.port .pc).notices := by
  rw [State.notify_eq]
  split
  · rw [State.port_setPort, if_neg hp]
  · rfl

theorem calm_frameTaken (s : State) : Calm s s.frameTaken := .of_eq rfl rfl rfl rfl rfl rfl

theorem wellFormedEvent_moves (words : Vector SampleWord 16) (s : State) :
    Relation.ReflTransGen (Move w) s (wellFormedEvent words s) := by
  unfold wellFormedEvent
  dsimp only
  split
  · exact .tail (.single (.calm (calm_frameTaken s))) (.deliver words _)
  · split
    · exact .single (.calm (.of_eq rfl rfl rfl rfl rfl rfl))
    · have hlock : Calm s s.frameTaken.lockOn := .of_eq rfl rfl rfl rfl rfl rfl
      exact .tail (.single (.calm hlock)) (.deliver words _)

/-- What the drop of the lock leaves as it was. -/
structure LockDropped (s t : State) : Prop where
  ret : t.ret = s.ret
  checkByte : t.checkByte = s.checkByte
  strap : t.strap = s.strap
  pcNotices : (t.port .pc).notices = (s.port .pc).notices

theorem LockDropped.notify {s t : State} (h : LockDropped s t) {p : Port} (hp : p ≠ .pc) (n : Notice) :
    LockDropped s (t.notify p n) :=
  ⟨by rw [State.ret_notify, h.ret], by rw [State.checkByte_notify, h.checkByte], by rw [State.strap_notify, h.strap],
    by rw [pcNotices_notify hp, h.pcNotices]⟩

theorem dropLock_lockDropped (s : State) : LockDropped s s.dropLock := by
  have hcleared : LockDropped s { s with vol.lock := .hunt, vol.lockCount := 0, vol.lossDeadline := none } :=
    ⟨rfl, rfl, rfl, rfl⟩
  unfold State.dropLock
  dsimp only
  split
  · unfold State.lockDropNotices
    generalize { s with vol.lock := .hunt, vol.lockCount := 0, vol.lossDeadline := none } = u at hcleared
    have hblind : ∀ (l : List Station) (m : State), LockDropped s m →
        LockDropped s (l.foldl (fun m n => if u.stationOpen n then m.notify (.station n) .blind else m) m) := by
      intro l
      induction l with
      | nil => exact fun m h => h
      | cons n l ih =>
        intro m h
        refine ih _ ?_
        dsimp only
        split
        · exact h.notify (p := .station n) nofun _
        · exact h
    exact hblind _ _ (hcleared.notify (p := .ps) nofun _)
  · exact hcleared

theorem calm_dropLock_drive (s : State) : Calm s s.dropLock.drive :=
  have h := dropLock_lockDropped s
  .drive h.ret h.checkByte h.strap h.pcNotices

theorem calm_malformedEvent (s : State) : Calm s (malformedEvent s) :=
  (calm_dropLock_drive _).after rfl rfl rfl rfl rfl rfl

theorem sampleBit_moves (s : State) (b : LineBit) : Relation.ReflTransGen (Move w) s (s.sampleBit b) := by
  unfold State.sampleBit
  dsimp only
  have hline : Calm s { s with vol.line := (s.vol.line.sample b).1 } := .of_eq rfl rfl rfl rfl rfl rfl
  split
  · exact .single (.calm hline)
  · exact .single (.calm (hline.trans (calm_malformedEvent _)))
  · exact .head (.calm hline) (wellFormedEvent_moves _ _)

/-- A fold of steps that are moves is moves. -/
theorem moves_foldl {α : Type} {f : State → α → State} (hf : ∀ s a, Relation.ReflTransGen (Move w) s (f s a)) (l : List α)
    (s : State) : Relation.ReflTransGen (Move w) s (l.foldl f s) := by
  induction l generalizing s with
  | nil => exact .refl
  | cons a l ih => exact (hf s a).trans (ih _)

theorem malformedFrame_moves (how : Malformed) (s : State) : Relation.ReflTransGen (Move w) s (malformedFrame how s) := by
  cases how with
  | short next => exact .single (.calm ((calm_malformedEvent _).after rfl rfl rfl rfl rfl rfl))
  | overrun =>
    unfold malformedFrame
    dsimp only
    split
    · exact .single (.calm ((calm_malformedEvent _).after rfl rfl rfl rfl rfl rfl))
    · exact .refl
  | sampled bits => exact moves_foldl sampleBit_moves bits s

theorem lossExpiry_calm (s : State) : Calm s (lossExpiry s) := by
  unfold lossExpiry
  split
  · exact calm_dropLock_drive s
  · exact .refl s

theorem expiring_busy {s : State} {o : Order} (h : s.expiring = some o) : s.busyOrder = some o := by
  unfold State.expiring at h
  split at h
  · next hq =>
    split_ifs at h
    exact hq.trans h
  · cases h

theorem swapExpiry_moves (hw : w ≠ .nobody) (s : State) : Relation.ReflTransGen (Move w) s (swapExpiry s) := by
  unfold swapExpiry
  split
  · next ho => exact .single (.expiry hw (expiring_busy ho))
  · exact .refl

theorem retryExpiry_moves (s : State) (x : PosIx) : Relation.ReflTransGen (Move w) s (retryExpiry x s) := by
  unfold retryExpiry
  split
  · next hdue =>
    simp only [State.retryDue, Bool.and_eq_true, decide_eq_true_eq] at hdue
    exact .single (.retry hdue.1.2)
  · exact .refl

theorem calm_advance (s : State) : Calm s s.advance := .of_eq rfl rfl rfl rfl rfl rfl

theorem takeExpiries_moves (hw : w ≠ .nobody) (s : State) : Relation.ReflTransGen (Move w) s (takeExpiries s) :=
  .head (.calm (lossExpiry_calm s)) ((swapExpiry_moves hw _).trans (moves_foldl retryExpiry_moves _ _))

/-! ## Starts, the RESET input and the supplies -/

theorem powerOnStart_runs {s u : State} (pins : Strap) (hu : u.ret = s.ret) : Runs w s (powerOnStart pins u) := by
  unfold powerOnStart
  dsimp only
  split
  · exact .cold pins (.refl _)
  · exact .of_break (.warm pins hu)

theorem releaseStart_runs {s u : State} (pins : Strap) (hret : u.ret = s.ret) (hcheck : u.checkByte = s.checkByte)
    (hstrap : u.strap = s.strap) (hports : u.port = s.port) : Runs w s (releaseStart pins u) := by
  unfold releaseStart
  split
  · exact .of_calm (.drive hret hcheck hstrap (by rw [hports]))
  · split
    · exact .of_break (.warm pins hret)
    · exact powerOnStart_runs pins hret

/-- A power-on, whether its start is taken at once or waits for the release of RESET. -/
theorem powerOn_runs {s u : State} (pins : Strap) (hret : u.ret = s.ret) (hcheck : u.checkByte = s.checkByte)
    (hstrap : u.strap = s.strap) (hports : u.port = s.port) :
    Runs w s (if u.resetHeld then u.drive else powerOnStart pins u) := by
  split
  · exact .of_calm (.drive hret hcheck hstrap (by rw [hports]))
  · exact powerOnStart_runs pins hret

theorem cutReceptions_notices (s : State) (p : Port) : (s.cutReceptions.port p).notices = (s.port p).notices := by
  simp [State.cutReceptions, State.port]

/-- The main supply's failure takes the notices, and leaves retained state. -/
theorem silenced_supplyFail (s : State) :
    Silenced s (State.drive { s with supplyOn := false, started := false, vol := Volatile.start }) := by
  refine ⟨rfl, rfl, ?_, lineLaw_drive _⟩
  rw [State.port_drive]
  simp [State.port, Volatile.start, PortState.start]

/-! ## Every command -/

/-- What every command does: a calm change, at most one break, moves. -/
theorem exec_runs {c : Instr} {s t : State} (hw : w.allows c) (h : exec c s = .next t) :
    Runs w s t := by
  by_cases hc : isRequest c = true
  · obtain ⟨p, -, -, hserved⟩ := runRequest_served hc hw s
    exact hserved.runs h
  · cases c with
    | undecodedRequest p sent =>
      obtain rfl : w = .anybody := hw
      exact undecodedRequest_runs h
    | fetchReply p =>
      obtain rfl := Host.Outcome.next.inj h
      split
      · exact runs_setPort_drive s p (.inl rfl)
      · exact .of_calm (calm_endReception s p)
    | fetchNotices p =>
      obtain rfl := Host.Outcome.next.inj h
      split
      · exact runs_setPort_drive s p (.inr rfl)
      · exact .of_calm (calm_endReception s p)
    | wellFormedFrame words =>
      obtain rfl := Host.Outcome.next.inj h
      split
      · exact (Runs.of_moves (wellFormedEvent_moves words _)).after rfl rfl rfl rfl rfl rfl
      · exact .refl s
    | malformedFrame how =>
      obtain rfl := Host.Outcome.next.inj h
      split
      · exact .of_moves (malformedFrame_moves how s)
      · exact .refl s
    | lossDeadlineReached =>
      obtain rfl := Host.Outcome.next.inj h
      split
      · exact .of_calm (lossExpiry_calm s)
      · exact .refl s
    | swapDeadlineExpiry =>
      obtain rfl := Host.Outcome.next.inj h
      split
      · exact .of_moves (swapExpiry_moves hw s)
      · exact .refl s
    | retryTimerExpiry x =>
      obtain rfl := Host.Outcome.next.inj h
      split
      · exact .of_moves (retryExpiry_moves s x)
      · exact .refl s
    | millisecondTick =>
      obtain rfl := Host.Outcome.next.inj h
      split
      · exact (Runs.of_moves (takeExpiries_moves hw s)).calm (calm_advance _)
      · exact .refl s
    | resetAssert =>
      obtain rfl := Host.Outcome.next.inj h
      split
      · exact .refl s
      · exact .of_calm (.drive rfl rfl rfl (cutReceptions_notices s .pc))
    | resetRelease pins =>
      obtain rfl := Host.Outcome.next.inj h
      split
      · exact releaseStart_runs pins rfl rfl rfl rfl
      · exact .refl s
    | powerOnStart pins =>
      obtain rfl := Host.Outcome.next.inj h
      split
      · exact .refl s
      · exact powerOn_runs (u := { s with supplyOn := true, pins := pins }) pins rfl rfl rfl rfl
    | mainSupplyFail =>
      obtain rfl := Host.Outcome.next.inj h
      exact .of_break (.silenced (silenced_supplyFail s))
    | vbatLowLatch =>
      obtain rfl := Host.Outcome.next.inj h
      split
      · exact .refl s
      · exact .of_calm (.of_eq rfl rfl rfl rfl rfl rfl)
    | _ => exact absurd rfl hc

/-- A step runs the command at the front of the queue, or the part idles. -/
theorem step_runs {s t : State} (h : step s = .next t) : Runs .anybody s t := by
  unfold step at h
  split at h
  · cases h
    exact .refl s
  · exact (exec_runs (Clearing.anybody_allows _) h).after rfl rfl rfl rfl rfl rfl

/-! ## The check byte and the lines -/

theorem Own.lines {s : State} {e : Ev} (_ : Own w s e) : LineLaw (finish s e) := lineLaw_drive _

theorem Break.lines {s t : State} (h : Break s t) : LineLaw t := by
  cases h with
  | silenced h => exact h.lines
  | warm pins hret => exact lineLaw_drive _

theorem checkLaw_commit_drive (s : State) : CheckLaw s.commit.drive := rfl

theorem Break.checkByte {s t : State} (h : Break s t) (hs : CheckLaw s) : CheckLaw t := by
  cases h with
  | silenced h => rw [CheckLaw, h.checkByte, h.ret]; exact hs
  | warm pins hret => exact checkLaw_commit_drive _

theorem Calm.checkLaw {s t : State} (h : Calm s t) (hs : CheckLaw s) : CheckLaw t := by
  rw [CheckLaw, h.checkByte, h.ret]
  exact hs

theorem finish_checkLaw (s : State) (e : Ev) : CheckLaw (finish s e) := finish_committed s e

/-- Settles O52: an event and a start commit retained state with the check byte that fits it; a calm change touches
neither. -/
theorem checkByteStaysCurrent : Obligations.CheckByteStaysCurrent :=
  fun _ _ hs ht => (step_runs ht).induct (P := CheckLaw) hs Calm.checkLaw (fun _ _ => finish_checkLaw _ _)
    Break.checkByte fun _ _ => checkLaw_commit_drive _

/-- Settles O53: the lines take their levels at the end of every event and start, and wherever a port or the RESET input
changes what they read. -/
theorem linesFollow : Obligations.LinesFollow :=
  fun _ _ hs ht => (step_runs ht).induct (P := LineLaw) hs (fun hcalm h => hcalm.lines h) (fun hown _ => hown.lines)
    (fun hbreak _ => hbreak.lines) fun _ _ => lineLaw_drive _

end

end Sys2Proof.Machine

/-! PROOFS. The changes of retained state, one by one: what each shared operation and each event is made of. -/
namespace Sys2Proof.Machine

/-! ## Writing a record twice -/

theorem State.setPos_setPos (s : State) (x : PosIx) (p q : Position) : (s.setPos x p).setPos x q = s.setPos x q := by
  simp [State.setPos, Vector.set_set]

theorem State.setTool_setTool (s : State) (i : EntryIx) (t u : Option Tool) :
    (s.setTool i t).setTool i u = s.setTool i u := by
  simp [State.setTool, Vector.set_set]

/-! ## Accounts -/

/-- The account of a live entry is in range under the types of a state (R22 to R25). -/
def Accounted (s : State) (t : Tool) : Prop :=
  (∃ f, s.typ t.type = some f ∧ t.r ≤ f.lnew) ∧ t.rem ≤ 999 ∧ t.nnom ≤ 16777215 ∧ t.parts ≤ 16777215 ∧
    t.dresses ≤ 16777215 ∧ t.doubts ≤ 3 ∧ t.trips ≤ 255 ∧ t.peakAE ≤ 32767 ∧ t.peakPower ≤ 32767

/-- A change of a tool entry keeps its serial, and its account in range. -/
structure KeepsAccount (s : State) (f : Tool → Tool) (u : Tool) : Prop where
  serial : (f u).serial = u.serial
  account : CatalogueLaw s → Accounted s u → Accounted s (f u)

/-! ## An order in place of another -/

/-- The order takes the place of the one of number `n`, in the collection where that one stands (R119). -/
def State.replaceOrder (s : State) (n : Nat) (o : Order) : State :=
  if s.ret.queue.any fun q => decide (q.number = n) then
    { s with ret.queue := insertOrder o (dropNumber n s.ret.queue), ret.counter := succNumber o.number }
  else { s with ret.backlog := insertOrder o (dropNumber n s.ret.backlog), ret.counter := succNumber o.number }

/-- The DIRECT that takes the place of a STAGE for the sister `i` (R119). -/
def State.replacing (s : State) (x : PosIx) (i : EntryIx) (stage : Order) (outgoing : Option EntryIx) : Order where
  number := s.nextNumber
  kind := .direct
  urgent := true
  pos := x
  incoming := some i
  outgoing := outgoing
  pocket := s.pocketOf i
  state := if s.ret.queue.any fun q => decide (q.number = stage.number) then .ready else .backlog

theorem Ev.replaceStage_eq (x : PosIx) (i : EntryIx) (stage : Order) (j : Option EntryIx) (e : Ev) :
    e.replaceStage x i stage j =
      (e.upd fun s => s.replaceOrder stage.number (e.st.replacing x i stage j)).updPos x
        (·.setRack (.booked e.st.nextNumber)) := rfl

/-- The number enters the expired-number memory (R133). -/
def State.remember (n : Nat) (s : State) : State := { s with ret.expired := rememberExpired n s.ret.expired }

/-! ## The changes -/

/-! ## Changes outside retained state -/

/-- The strap and the RESET input stay as they are, and so does the flag ORDER_READY of PC. -/
structure Outside (s t : State) : Prop where
  strap : t.strap = s.strap
  resetHeld : t.resetHeld = s.resetHeld
  ready : (t.port .pc).notices &&& Notice.orderReady.mask = (s.port .pc).notices &&& Notice.orderReady.mask

theorem Outside.refl (s : State) : Outside s s := ⟨rfl, rfl, rfl⟩

theorem Outside.trans {s t u : State} (h : Outside s t) (g : Outside t u) : Outside s u :=
  ⟨g.strap.trans h.strap, g.resetHeld.trans h.resetHeld, g.ready.trans h.ready⟩

theorem Outside.of_eq {s t : State} (hstrap : t.strap = s.strap) (hreset : t.resetHeld = s.resetHeld)
    (hports : t.vol.ports = s.vol.ports) : Outside s t :=
  ⟨hstrap, hreset, by rw [State.port, State.port, hports]⟩

/-- A change outside retained state that an event makes. -/
structure Quiet (s t : State) : Prop extends Outside s t where
  ret : t.ret = s.ret

theorem Quiet.trans {s t u : State} (h : Quiet s t) (g : Quiet t u) : Quiet s u :=
  ⟨h.toOutside.trans g.toOutside, g.ret.trans h.ret⟩

theorem Quiet.refl (s : State) : Quiet s s := ⟨.refl s, rfl⟩

theorem Quiet.of_eq {s t : State} (hret : t.ret = s.ret) (hstrap : t.strap = s.strap) (hreset : t.resetHeld = s.resetHeld)
    (hports : t.vol.ports = s.vol.ports) : Quiet s t := ⟨.of_eq hstrap hreset hports, hret⟩

theorem Quiet.setChan (s : State) (x : PosIx) (c : Channel) : Quiet s (s.setChan x c) := .of_eq rfl rfl rfl rfl

theorem and_or_mask (a b m : BitVec 16) : (a ||| b) &&& m = a &&& m ||| b &&& m := by
  ext i
  simp [Bool.and_or_distrib_right]

/-- A notice other than ORDER_READY at PC. -/
theorem Quiet.notify (s : State) {p : Port} {n : Notice} (hn : p = .pc → n.mask &&& Notice.orderReady.mask = 0) :
    Quiet s (s.notify p n) := by
  unfold State.notify
  split
  · refine ⟨⟨rfl, rfl, ?_⟩, rfl⟩
    rw [State.port_setPort]
    split
    · next hp =>
      subst hp
      rw [and_or_mask, hn rfl]
      exact BitVec.or_zero
    · rfl
  · exact .refl s

theorem Quiet.notifySlot (s : State) (x : PosIx) (n : Slot → Notice) : Quiet s (s.notifySlot x n) := .notify s nofun

theorem Quiet.restartChannel (s : State) (x : PosIx) : Quiet s (s.restartChannel x) := by
  unfold State.restartChannel
  split
  · split
    · exact .setChan s x _
    · exact .setChan s x _
  · exact .refl s

theorem Quiet.changeMode (s : State) (x : PosIx) : Quiet s (s.changeMode x) := by
  unfold State.changeMode
  split
  · exact .refl s
  · exact .restartChannel s x

theorem Quiet.clearDeglitch (s : State) (g : Option Target) : Quiet s (s.clearDeglitch g) := by
  unfold State.clearDeglitch
  split
  · exact .refl s
  · split
    · exact .setChan s _ _
    · exact .setChan s _ _

/-- One change of retained state. The need of a position is cleared only where `C` allows it. -/
inductive Prim (C : PosIx → Prop) (s : State) : State → Prop
  /-- Nothing retained changes. -/
  | quiet {t : State} (h : Quiet s t) : Prim C s t
  /-- A pocket takes a state. -/
  | pocket (k : PocketIx) (v : Pocket) : Prim C s (s.setPocket k v)
  /-- The swap timeout takes a value. -/
  | timeout (n : Nat) : Prim C s { s with ret.timeout := n }
  /-- A slot takes a route that no other slot has. -/
  | route {h : HwSlot} {t : Option Target} (hfree : s.routedElsewhere h t = false) : Prim C s (s.setRoute h t)
  /-- A type record takes figures in range, under which the tools of the type keep their Lnew. -/
  | typ {k : TypeIx} {f : Option TypeRec} (hrange : CatalogueLaw s → ∀ r, f = some r → r.InRange)
      (hkeep : (∃ old new, s.typ k = some old ∧ f = some new ∧ new.lnew = old.lnew) ∨
        ∀ i u, s.tool i = some u → u.type ≠ k) : Prim C s (s.setType k f)
  /-- A live entry changes. -/
  | tool {i : EntryIx} {f : Tool → Tool} (h : ∀ u, s.tool i = some u → KeepsAccount s f u) :
      Prim C s (s.setTool i ((s.tool i).map f))
  /-- An entry becomes free. -/
  | free (i : EntryIx) : Prim C s (s.setTool i none)
  /-- An entry becomes live under a serial that no entry holds. -/
  | enrol {i : EntryIx} {t : Tool} (hserial : t.serial ≠ 0) (hnew : s.serialHeld t.serial = false)
      (hacc : CatalogueLaw s → Accounted s t) : Prim C s (s.setTool i (some t))
  /-- A position record changes, its need staying as it is. -/
  | pos {x : PosIx} {p : Position} (hlaw : (s.pos x).Lawful → p.Lawful) (hneed : p.need = (s.pos x).need)
      (hurgent : p.urgent = (s.pos x).urgent ∨ (s.pos x).need ≠ .waiting) : Prim C s (s.setPos x p)
  /-- A need takes another value than NONE and WAITING, and leaves the waiting list. -/
  | settle {x : PosIx} {p : Position} (hlaw : (s.pos x).Lawful → p.Lawful) (hneed : p.need ≠ .noNeed)
      (hwait : p.need ≠ .waiting) :
      Prim C s { s.setPos x p with ret.waiting := s.ret.waiting.filter (· ≠ x) }
  /-- A need becomes NONE. -/
  | clear {x : PosIx} (hx : C x) :
      Prim C s { s.setPos x (s.pos x).noNeed with ret.waiting := s.ret.waiting.filter (· ≠ x) }
  /-- A position that has no need, or a normal one that waits, joins the waiting list, the latter as urgent. -/
  | join {x : PosIx} {p : Position} (hlaw : (s.pos x).Lawful → p.Lawful) (hneed : p.need = .waiting)
      (hold : (s.pos x).need = .noNeed ∨ (s.pos x).need = .waiting ∧ (s.pos x).urgent = false ∧ p.urgent = true) :
      Prim C s ((s.setPos x p).joinWaiting x)
  /-- An order is posted. -/
  | enqueue {o : Order} (hroom : s.hasRoom = true) (hnumber : o.number = s.nextNumber) : Prim C s (s.enqueue o)
  /-- An order leaves its collection. -/
  | drop (n : Nat) : Prim C s (s.dropOrder n)
  /-- An order is handed out. -/
  | take {o : Order} (hbusy : s.busyOrder = none) (ho : o ∈ s.ret.queue) : Prim C s (s.headTaken o)
  /-- An order for a sister becomes urgent. -/
  | hasten (i : EntryIx) : Prim C s (s.hasten i)
  /-- A DIRECT takes the place of a STAGE. -/
  | replace {stage o : Order} (hstage : stage ∈ s.standing) (hnumber : o.number = s.nextNumber) (hbusy : o.busy = false)
      (hstate : o.state =
        if s.ret.queue.any fun q => decide (q.number = stage.number) then .ready else .backlog) :
      Prim C s (s.replaceOrder stage.number o)
  /-- An order expires: it leaves its collection, and its number is remembered. -/
  | expire (n : Nat) : Prim C s (State.remember n (s.dropOrder n))
  /-- The adjustments of a warm start. -/
  | warm : Prim C s { s with ret := s.ret.warm }

/-- Changes one after another. -/
abbrev Steps (C : PosIx → Prop) : State → State → Prop := Relation.ReflTransGen (Prim C)

theorem Prim.mono {C D : PosIx → Prop} {s t : State} (hCD : ∀ x, C x → D x) (h : Prim C s t) : Prim D s t := by
  cases h with
  | quiet h => exact .quiet h
  | pocket k v => exact .pocket k v
  | timeout n => exact .timeout n
  | route h => exact .route h
  | typ h g => exact .typ h g
  | tool h => exact .tool h
  | free i => exact .free i
  | enrol h g k => exact .enrol h g k
  | pos h g k => exact .pos h g k
  | settle h g k => exact .settle h g k
  | clear h => exact .clear (hCD _ h)
  | join h g k => exact .join h g k
  | enqueue h g => exact .enqueue h g
  | drop n => exact .drop n
  | take h g => exact .take h g
  | hasten i => exact .hasten i
  | replace h g k l => exact .replace h g k l
  | expire n => exact .expire n
  | warm => exact .warm

theorem Steps.mono {C D : PosIx → Prop} {s t : State} (hCD : ∀ x, C x → D x) (h : Steps C s t) : Steps D s t :=
  Relation.ReflTransGen.mono (fun _ _ => Prim.mono hCD) _ _ h

theorem Steps.quiet {C : PosIx → Prop} {s t : State} (h : Quiet s t) : Steps C s t := .single (.quiet h)

theorem outside_enqueue (s : State) (o : Order) : Outside s (s.enqueue o) := by
  unfold State.enqueue
  split <;> exact .of_eq rfl rfl rfl

theorem outside_dropOrder (s : State) (n : Nat) : Outside s (s.dropOrder n) := by
  unfold State.dropOrder
  split
  · unfold State.promote
    split
    · exact .of_eq rfl rfl rfl
    · split <;> exact .of_eq rfl rfl rfl
  · exact .of_eq rfl rfl rfl

theorem Prim.outside {C : PosIx → Prop} {s t : State} (h : Prim C s t) : Outside s t := by
  cases h with
  | quiet h => exact h.toOutside
  | enqueue _ _ => exact outside_enqueue s _
  | drop n => exact outside_dropOrder s n
  | expire n => exact (outside_dropOrder s n).trans (.of_eq rfl rfl rfl)
  | replace _ _ _ _ => unfold State.replaceOrder; split <;> exact .of_eq rfl rfl rfl
  | join _ _ _ => unfold State.joinWaiting; dsimp only; split <;> exact .of_eq rfl rfl rfl
  | _ => exact .of_eq rfl rfl rfl

/-- The changes of an event keep what it never changes. -/
theorem Steps.outside {C : PosIx → Prop} {s t : State} (h : Steps C s t) : Outside s t := by
  induction h with
  | refl => exact .refl s
  | tail _ hp ih => exact ih.trans hp.outside

section
variable {C : PosIx → Prop}

/-! ## Changes of records -/

theorem Ev.steps_upd_quiet (e : Ev) {f : State → State} (h : Quiet e.st (f e.st)) : Steps C e.st (e.upd f).st :=
  .quiet h

theorem Ev.steps_notify (e : Ev) {p : Port} {n : Notice} (hn : p = .pc → n.mask &&& Notice.orderReady.mask = 0) :
    Steps C e.st (e.notify p n).st := .quiet (.notify _ hn)

theorem Ev.steps_notify_ps (e : Ev) (n : Notice) : Steps C e.st (e.notify .ps n).st := e.steps_notify nofun

theorem Ev.steps_notifySlot (e : Ev) (x : PosIx) (n : Slot → Notice) : Steps C e.st (e.notifySlot x n).st :=
  .quiet (.notifySlot _ _ _)

theorem Ev.steps_setPocket (e : Ev) (k : PocketIx) (v : Pocket) : Steps C e.st (e.setPocket k v).st :=
  .single (.pocket k v)

theorem Ev.steps_freePocket (e : Ev) (k : Option PocketIx) : Steps C e.st (e.freePocket k).st := by
  cases k with
  | none => exact .refl
  | some k => exact e.steps_setPocket k .free

/-- A change of a tool entry that leaves its account alone. -/
theorem KeepsAccount.of_same {s : State} {f : Tool → Tool} {u : Tool}
    (h : (f u).serial = u.serial ∧ (f u).type = u.type ∧ (f u).r = u.r ∧ (f u).rem = u.rem ∧ (f u).nnom = u.nnom ∧
      (f u).parts = u.parts ∧ (f u).dresses = u.dresses ∧ (f u).doubts = u.doubts ∧ (f u).trips = u.trips)
    (hae : (f u).peakAE ≤ u.peakAE) (hpower : (f u).peakPower ≤ u.peakPower) : KeepsAccount s f u := by
  obtain ⟨hserial, htype, hr, hrem, hnnom, hparts, hdresses, hdoubts, htrips⟩ := h
  refine ⟨hserial, fun _ ⟨hf, h1, h2, h3, h4, h5, h6, h7, h8⟩ => ?_⟩
  rw [Accounted, htype, hr, hrem, hnnom, hparts, hdresses, hdoubts, htrips]
  exact ⟨hf, h1, h2, h3, h4, h5, h6, hae.trans h7, hpower.trans h8⟩

theorem Ev.steps_updTool (e : Ev) {i : EntryIx} {f : Tool → Tool} (h : ∀ u, KeepsAccount e.st f u) :
    Steps C e.st (e.updTool i f).st :=
  .single (.tool fun u _ => h u)

theorem keepsAccount_put (s : State) (st : ToolState) (pl : Place) (u : Tool) : KeepsAccount s (·.put st pl) u :=
  .of_same ⟨rfl, rfl, rfl, rfl, rfl, rfl, rfl, rfl, rfl⟩ le_rfl le_rfl

theorem keepsAccount_unpromise (s : State) (u : Tool) : KeepsAccount s Tool.unpromise u :=
  .of_same ⟨rfl, rfl, rfl, rfl, rfl, rfl, rfl, rfl, rfl⟩ le_rfl le_rfl

theorem keepsAccount_lose (s : State) (u : Tool) : KeepsAccount s Tool.lose u :=
  .of_same ⟨rfl, rfl, rfl, rfl, rfl, rfl, rfl, rfl, rfl⟩ le_rfl le_rfl

theorem keepsAccount_mount (s : State) (x : PosIx) (u : Tool) : KeepsAccount s (·.mount x) u :=
  .of_same ⟨rfl, rfl, rfl, rfl, rfl, rfl, rfl, rfl, rfl⟩ (Nat.zero_le _) (Nat.zero_le _)

theorem keepsAccount_promise (s : State) (st : ToolState) (x : Option PosIx) (u : Tool) :
    KeepsAccount s (fun t => { t with state := st, promised := x }) u :=
  .of_same ⟨rfl, rfl, rfl, rfl, rfl, rfl, rfl, rfl, rfl⟩ le_rfl le_rfl

theorem keepsAccount_condition (s : State) (c : Condition) (u : Tool) :
    KeepsAccount s (fun t => { t with condition := c }) u :=
  .of_same ⟨rfl, rfl, rfl, rfl, rfl, rfl, rfl, rfl, rfl⟩ le_rfl le_rfl

theorem Ev.steps_updPos (e : Ev) {x : PosIx} {f : Position → Position}
    (hlaw : (e.st.pos x).Lawful → (f (e.st.pos x)).Lawful) (hneed : (f (e.st.pos x)).need = (e.st.pos x).need)
    (hurgent : (f (e.st.pos x)).urgent = (e.st.pos x).urgent) : Steps C e.st (e.updPos x f).st :=
  .single (.pos hlaw hneed (.inl hurgent))

/-- A change of other fields of a position record than the law of the record reads. -/
theorem Ev.steps_updPos_places (e : Ev) {x : PosIx} {f : Position → Position}
    (h : ∀ p, (p.Lawful → (f p).Lawful) ∧ (f p).need = p.need ∧ (f p).urgent = p.urgent) :
    Steps C e.st (e.updPos x f).st :=
  e.steps_updPos (h _).1 (h _).2.1 (h _).2.2

theorem Ev.steps_setRack (e : Ev) (x : PosIx) (h : Holding) : Steps C e.st (e.updPos x (·.setRack h)).st :=
  e.steps_updPos_places fun _ => ⟨fun l => { l with }, rfl, rfl⟩

theorem Ev.steps_setReturnWaiting (e : Ev) (x : PosIx) (b : Bool) :
    Steps C e.st (e.updPos x fun p => { p with returnWaiting := b }).st :=
  e.steps_updPos_places fun _ => ⟨fun l => { l with }, rfl, rfl⟩

/-! ## Needs -/

/-- A lawful record stays lawful when its need takes another value than NONE and WAITING. -/
theorem Position.Lawful.withNeed {p q : Position} (h : p.Lawful) (hq : { q with need := p.need, sister := p.sister, urgent := p.urgent } = p)
    (hneed : q.need ≠ .noNeed) (hwait : q.need = .waiting → q.sister = none) : q.Lawful := by
  cases p
  cases hq
  exact { h with need := fun e => absurd e hneed, waiting := hwait }

theorem Position.Lawful.noNeed {p : Position} (h : p.Lawful) : p.noNeed.Lawful :=
  { h with need := fun _ => ⟨rfl, rfl⟩, waiting := fun _ => rfl }

/-- The need of a position takes another value than NONE and WAITING. -/
theorem Ev.steps_setNeed (e : Ev) {x : PosIx} {f : Position → Position}
    (hf : { f (e.st.pos x) with need := (e.st.pos x).need, sister := (e.st.pos x).sister, urgent := (e.st.pos x).urgent } =
      e.st.pos x)
    (hneed : (f (e.st.pos x)).need ≠ .noNeed) (hwait : (f (e.st.pos x)).need ≠ .waiting) :
    Steps C e.st (e.setNeed x f).st :=
  .single (.settle (fun l => l.withNeed hf hneed fun w => absurd w hwait) hneed hwait)

theorem Ev.steps_progress (e : Ev) (x : PosIx) {n : Need} (hneed : n ≠ .noNeed) (hwait : n ≠ .waiting) :
    Steps C e.st (e.setNeed x (·.progress n)).st :=
  e.steps_setNeed rfl hneed hwait

theorem Ev.steps_reserve (e : Ev) (x : PosIx) (i : EntryIx) : Steps C e.st (e.reserve x i).st :=
  (e.steps_updTool (keepsAccount_promise _ _ _)).trans (Ev.steps_setNeed _ rfl nofun nofun)

theorem Ev.steps_clearNeed (e : Ev) {x : PosIx} (hx : C x) : Steps C e.st (e.clearNeed x).st := .single (.clear hx)

/-- A need is raised and reserved at once. -/
theorem Ev.steps_raise_reserve (e : Ev) (x : PosIx) (i : EntryIx) (u : Bool) :
    Steps C e.st ((e.updPos x (·.setUrgent u)).reserve x i).st := by
  have htool := e.steps_updTool (C := C) (i := i) (keepsAccount_promise e.st .reserved (some x))
  refine htool.tail ?_
  have hsettle := Prim.settle (C := C) (s := (e.updTool i fun t => { t with state := .reserved, promised := some x }).st)
    (x := x) (p := ((e.st.pos x).setUrgent u).reserve i) (fun l => l.withNeed rfl nofun nofun) nofun nofun
  convert hsettle using 1
  simp [Ev.reserve, Ev.setNeed, State.setPos, State.setTool, State.pos, State.tool, Vector.set_set]

/-- A need is raised and waits at once. -/
theorem Ev.steps_raise_wait (e : Ev) {x : PosIx} (hneed : (e.st.pos x).need = .noNeed) (u : Bool) :
    Steps C e.st ((e.updPos x (·.setUrgent u)).wait x).st := by
  have hjoin := Prim.join (C := C) (s := e.st) (x := x) (p := ((e.st.pos x).setUrgent u).wait)
    (fun l => l.withNeed rfl nofun fun _ => rfl) rfl (.inl hneed)
  have hst : (((e.updPos x (·.setUrgent u)).updPos x Position.wait).upd fun s => s.joinWaiting x).st =
      (e.st.setPos x ((e.st.pos x).setUrgent u).wait).joinWaiting x := by
    simp [State.setPos_setPos]
  exact (Relation.ReflTransGen.single (hst ▸ hjoin)).trans (Ev.steps_notify_ps _ _)

theorem Ev.steps_needTest (e : Ev) (x : PosIx) : Steps C e.st (e.needTest x).st := by
  unfold Ev.needTest
  split
  · next k hk =>
    obtain ⟨-, hneed, -⟩ := needFor_some hk
    unfold Ev.raiseNeed
    dsimp only
    split
    · exact e.steps_raise_reserve x _ _
    · exact e.steps_raise_wait hneed _
  · exact .refl

theorem Ev.steps_arbitrateLoop (k : TypeIx) (n : Nat) (e : Ev) : Steps C e.st (e.arbitrateLoop k n).st := by
  induction n generalizing e with
  | zero => exact .refl
  | succ n ih =>
    rw [Ev.arbitrateLoop]
    split
    · exact (e.steps_reserve _ _).trans (ih _)
    · exact .refl

theorem Ev.steps_arbitrate (e : Ev) (k : TypeIx) : Steps C e.st (e.arbitrate k).st := Ev.steps_arbitrateLoop k _ e

theorem Ev.steps_offerTool (e : Ev) (i : EntryIx) : Steps C e.st (e.offerTool i).st := by
  unfold Ev.offerTool
  split
  · split
    · exact e.steps_arbitrate _
    · exact .refl
  · exact .refl

theorem Ev.steps_arbitrateIfWaited (e : Ev) (k : TypeIx) : Steps C e.st (e.arbitrateIfWaited k).st := by
  unfold Ev.arbitrateIfWaited
  split
  · exact e.steps_arbitrate k
  · exact .refl

theorem Ev.steps_withdraw (e : Ev) (o : Order) : Steps C e.st (e.withdraw o).st := by
  have hdrop : Steps C e.st (e.upd fun s => s.dropOrder o.number).st := .single (.drop _)
  unfold Ev.withdraw
  dsimp only
  split
  · exact hdrop.trans (Ev.steps_setRack _ _ _)
  · exact hdrop

theorem Ev.steps_releaseSister (e : Ev) (i : EntryIx) : Steps C e.st (e.releaseSister i).st :=
  (e.steps_updTool (keepsAccount_promise _ _ _)).trans (Ev.steps_offerTool _ i)

theorem Ev.steps_cancelStaging (e : Ev) (i : EntryIx) : Steps C e.st (e.cancelStaging i).st := by
  unfold Ev.cancelStaging
  split
  · split
    · exact e.steps_updTool (keepsAccount_unpromise _)
    · exact (e.steps_withdraw _).trans (Ev.steps_releaseSister _ i)
  · exact e.steps_releaseSister i

theorem Ev.steps_cancelStaged (e : Ev) (x : PosIx) (i : EntryIx) : Steps C e.st (e.cancelStaged x i).st := by
  unfold Ev.cancelStaged
  split
  · split
    · exact e.steps_updTool (keepsAccount_unpromise _)
    · exact (e.steps_withdraw _).trans (Ev.steps_updTool _ (keepsAccount_promise _ _ _))
  · exact e.steps_updTool (keepsAccount_promise _ _ _)

theorem Ev.steps_cancelNeed (e : Ev) {x : PosIx} (hx : C x) : Steps C e.st (e.cancelNeed x).st := by
  have hclear := e.steps_clearNeed hx
  unfold Ev.cancelNeed
  dsimp only
  split
  · exact .refl
  · exact hclear
  · exact hclear.trans (Ev.steps_releaseSister _ _)
  · exact hclear.trans (Ev.steps_cancelStaging _ _)
  · exact hclear.trans (Ev.steps_cancelStaged _ _ _)
  · exact hclear

/-- The need of a lost sister is cleared, where it is the position's. -/
theorem Ev.steps_loseSister (e : Ev) {x : PosIx} {i : EntryIx} (hx : (e.st.pos x).sister = some i → C x) :
    Steps C e.st (e.loseSister x i).st := by
  unfold Ev.loseSister
  split
  · next h => exact (e.steps_clearNeed (hx h)).trans (Ev.steps_needTest _ x)
  · exact .refl

/-- A need becomes urgent by VERDICT BROKEN. -/
theorem Ev.steps_makeNeedUrgent (e : Ev) (x : PosIx) : Steps C e.st (e.makeNeedUrgent x).st := by
  unfold Ev.makeNeedUrgent
  dsimp only
  split
  · exact .refl
  · next hopen =>
    rw [not_or] at hopen
    obtain ⟨hneed, hnormal⟩ := hopen
    have hlaw : (e.st.pos x).Lawful → ((e.st.pos x).setUrgent true).Lawful := fun l =>
      l.withNeed rfl hneed l.waiting
    have hurgent : (e.st.pos x).need ≠ .waiting → Steps C e.st (e.updPos x (·.setUrgent true)).st := fun hwait =>
      .single (.pos hlaw rfl (.inr hwait))
    split
    · next hwait => exact .single (.join hlaw hwait (.inr ⟨hwait, by simpa using hnormal, rfl⟩))
    · next hstaging _ => exact (hurgent (by rw [hstaging]; nofun)).tail (.hasten _)
    · next hother _ => exact hurgent hother

/-! ## Findings and triggers -/

/-- A finding keeps a record lawful. -/
theorem Position.Lawful.finding {p : Position} (h : p.Lawful) (c : DueCause) : (p.finding c).Lawful := by
  obtain ⟨hhold, hresume, hdue, hsound, hneed, hwaiting, htime, hlimit, hcount, hfailed⟩ := h
  unfold Position.finding
  split <;> next hs => constructor <;> simp_all

theorem Ev.steps_finding (e : Ev) (x : PosIx) (i : EntryIx) (c : Condition) (d : DueCause) :
    Steps C e.st (e.finding x i c d).st := by
  have htool := e.steps_updTool (C := C) (i := i) (keepsAccount_condition _ c)
  have hpos : Steps C (e.updTool i fun t => { t with condition := c }).st
      ((e.updTool i fun t => { t with condition := c }).updPos x (·.finding d)).st :=
    Ev.steps_updPos_places _ fun p =>
      ⟨fun l => l.finding d, by unfold Position.finding; split <;> rfl, by unfold Position.finding; split <;> rfl⟩
  unfold Ev.finding
  dsimp only
  split
  · exact (htool.trans hpos).trans (Ev.steps_notifySlot _ _ _)
  · exact htool.trans hpos

theorem Ev.steps_evalTriggers (e : Ev) (x : PosIx) : Steps C e.st (e.evalTriggers x).st := by
  unfold Ev.evalTriggers
  split
  · exact .refl
  · next i t _ =>
    have hfound : Steps C e.st (if e.st.partsLeft t = 0 ∧ t.condition = .sound then e.finding x i .worn .worn else e).st := by
      split
      · exact e.steps_finding _ _ _ _
      · exact .refl
    dsimp only
    generalize (if e.st.partsLeft t = 0 ∧ t.condition = .sound then e.finding x i .worn .worn else e) = found at hfound ⊢
    split
    · exact hfound.trans (Ev.steps_needTest _ x)
    · exact hfound

/-- A fold of operations that are changes is changes. -/
theorem Ev.steps_foldl {α : Type} {f : Ev → α → Ev} (hf : ∀ e a, Steps C e.st (f e a).st) (l : List α) (e : Ev) :
    Steps C e.st (l.foldl f e).st := by
  induction l generalizing e with
  | nil => exact .refl
  | cons a l ih => exact (hf e a).trans (ih _)

theorem Ev.steps_reevaluate (e : Ev) (k : TypeIx) (but : Option EntryIx) : Steps C e.st (e.reevaluate k but).st := by
  refine Ev.steps_foldl (fun e x => ?_) _ e
  split
  · exact e.steps_evalTriggers x
  · exact .refl

/-! ## Posting and the end of an event -/

theorem Ev.steps_postReturn (e : Ev) (x : PosIx) (i : EntryIx) (k : Option PocketIx) :
    Steps C e.st (e.postReturn x i k).st := by
  unfold Ev.postReturn
  split
  · next hroom =>
    dsimp only
    generalize ho : Order.mk e.st.nextNumber .return_ false x none (some i) k .ready = o
    have hpost : Steps C e.st (e.upd fun s => s.enqueue o).st := .single (.enqueue hroom (by rw [← ho]))
    have hflag := hpost.trans (Ev.steps_setReturnWaiting _ x false)
    cases k with
    | none => exact hflag
    | some k => exact hflag.trans (Ev.steps_setPocket _ k _)
  · exact .refl

theorem Ev.steps_awaitPocket (e : Ev) (x : PosIx) : Steps C e.st (e.awaitPocket x).st := by
  unfold Ev.awaitPocket
  split
  · exact .refl
  · exact (e.steps_setReturnWaiting x true).trans (Ev.steps_notify_ps _ _)

theorem Ev.steps_callReturn (e : Ev) (x : PosIx) (i : EntryIx) : Steps C e.st (e.callReturn x i).st := by
  unfold Ev.callReturn
  split
  · exact e.steps_postReturn x i none
  · split
    · exact e.steps_postReturn x i _
    · exact e.steps_awaitPocket x

theorem Ev.steps_postOrder (e : Ev) (x : PosIx) (kind : OrderKind) (u : Bool) (i j : Option EntryIx)
    (k : Option PocketIx) : Steps C e.st (e.postOrder x kind u i j k).st := by
  unfold Ev.postOrder
  split
  · next hroom =>
    dsimp only
    generalize ho : Order.mk e.st.nextNumber kind u x i j k .ready = o
    have hpost : Steps C e.st (e.upd fun s => s.enqueue o).st := .single (.enqueue hroom (by rw [← ho]))
    have hrack : Steps C e.st (if kind.booksRackAtPosting = true then
        (e.upd fun s => s.enqueue o).updPos x (·.setRack (.booked e.st.nextNumber)) else e.upd fun s => s.enqueue o).st := by
      split
      · exact hpost.trans (Ev.steps_setRack _ _ _)
      · exact hpost
    split
    · exact hrack.trans (Ev.steps_progress _ x nofun nofun)
    · exact hrack
  · exact .refl

theorem Ev.steps_replaceStage (e : Ev) (x : PosIx) (i : EntryIx) {stage : Order} (j : Option EntryIx)
    (hstage : stage ∈ e.st.standing) : Steps C e.st (e.replaceStage x i stage j).st := by
  rw [Ev.replaceStage_eq]
  refine Relation.ReflTransGen.trans
    (b := (e.upd fun s => s.replaceOrder stage.number (e.st.replacing x i stage j)).st)
    (.single (.replace hstage rfl ?_ rfl)) (Ev.steps_setRack _ x _)
  unfold Order.busy State.replacing
  dsimp only
  split <;> rfl

theorem waitingStage_standing {s : State} {x : PosIx} {i : EntryIx} {o : Order} (h : s.waitingStage x i = some o) :
    o ∈ s.standing := by
  unfold State.waitingStage at h
  split at h
  · exact List.mem_of_find?_eq_some h
  · cases h

/-- What a position's record calls for, with the conditions of R116. -/
theorem callFor_cases {s : State} {x : PosIx} {c : Call} (h : s.callFor x = some c) :
    Active s x ∧
      ((∃ i, c = .return_ i ∧ s.callsReturn x = some i) ∨ (∃ r, c = .direct r.1 r.2 ∧ s.callsDirect x = some r) ∨
        (∃ i, c = .stage i ∧ s.callsStage x = some i) ∨ (∃ i, c = .exchange i ∧ s.callsExchange x = some i) ∨
        ∃ j, c = .remove j ∧ s.callsRemove x = some j) := by
  unfold State.callFor at h
  split at h
  · cases h
  next hactive =>
  refine ⟨by simpa using hactive, ?_⟩
  split at h
  · next i hi => exact .inl ⟨i, (Option.some.inj h).symm, hi⟩
  split at h
  · next i o hd => exact .inr (.inl ⟨(i, o), (Option.some.inj h).symm, hd⟩)
  split at h
  · next i hi => exact .inr (.inr (.inl ⟨i, (Option.some.inj h).symm, hi⟩))
  split at h
  · next i hi => exact .inr (.inr (.inr (.inl ⟨i, (Option.some.inj h).symm, hi⟩)))
  · obtain ⟨j, hj, hc⟩ := Option.map_eq_some_iff.mp h
    exact .inr (.inr (.inr (.inr ⟨j, hc.symm, hj⟩)))

theorem callsDirect_replaced {s : State} {x : PosIx} {i : EntryIx} {o : Order}
    (h : s.callsDirect x = some (i, some o)) : s.waitingStage x i = some o := by
  unfold State.callsDirect at h
  dsimp only at h
  split at h
  · split at h
    · split at h
      · cases h
      · split at h
        · obtain ⟨q, hq, he⟩ := Option.map_eq_some_iff.mp h
          cases he
          exact hq
        · cases h
    · cases h
  · cases h

theorem Ev.steps_handOff (e : Ev) (x : PosIx) : Steps C e.st (e.handOff x).st := by
  unfold Ev.handOff
  dsimp only
  split
  · exact e.steps_callReturn x _
  · exact e.steps_postOrder _ _ _ _ _ _
  · next hc =>
    obtain ⟨-, ⟨_, hno, -⟩ | ⟨⟨j, q⟩, hcall, hd⟩ | ⟨_, hno, -⟩ | ⟨_, hno, -⟩ | ⟨_, hno, -⟩⟩ := callFor_cases hc
    · cases hno
    · cases hcall
      exact e.steps_replaceStage x _ _ (waitingStage_standing (callsDirect_replaced hd))
    all_goals cases hno
  · exact e.steps_postOrder _ _ _ _ _ _
  · exact e.steps_postOrder _ _ _ _ _ _
  · exact e.steps_postOrder _ _ _ _ _ _
  · exact .refl

theorem Ev.steps_handOffs (e : Ev) : Steps C e.st e.handOffs.st := Ev.steps_foldl Ev.steps_handOff _ e

theorem Ev.steps_offerPocket (e : Ev) (k : PocketIx) : Steps C e.st (e.offerPocket k).st := by
  unfold Ev.offerPocket
  split
  · split
    · split
      · exact e.steps_postReturn _ _ _
      · exact .refl
    · exact .refl
  · exact .refl

theorem State.ret_raiseOrderReady (s : State) (q : List Order) : (s.raiseOrderReady q).ret = s.ret := by
  unfold State.raiseOrderReady
  split
  · exact State.ret_notify _ _ _
  · rfl

theorem State.ret_commit_drive (s : State) : s.commit.drive.ret = s.ret := rfl

/-- The end of an event before ORDER_READY is set. -/
theorem steps_offerPockets (before : State) (e : Ev) : Steps C e.st (e.handOffs.offerPockets before).st :=
  e.steps_handOffs.trans (Ev.steps_foldl Ev.steps_offerPocket (before.freedSince e.handOffs.st) _)

theorem ret_finish (before : State) (e : Ev) : (finish before e).ret = (e.handOffs.offerPockets before).st.ret := by
  rw [finish, State.ret_commit_drive, State.ret_raiseOrderReady]

end

end Sys2Proof.Machine

/-! PROOFS. The changes that each event is made of. -/
namespace Sys2Proof.Machine

/-! ## Position records stay lawful -/

theorem Position.Lawful.endHold {p : Position} (h : p.Lawful) : p.endHold.Lawful := by
  obtain ⟨hhold, hresume, hdue, hsound, hneed, hwaiting, htime, hlimit, hcount, hfailed⟩ := h
  by_cases hd : p.resume = some .due <;> constructor <;> simp_all [Position.endHold]

theorem Position.Lawful.withHold {p : Position} (h : p.Lawful) (c : HoldCause) : (p.hold c).Lawful := by
  obtain ⟨hhold, hresume, hdue, hsound, hneed, hwaiting, htime, hlimit, hcount, hfailed⟩ := h
  unfold Position.hold
  split <;> next hs => constructor <;> simp_all

theorem Position.Lawful.broken {p : Position} (h : p.Lawful) : p.broken.Lawful := by
  obtain ⟨hhold, hresume, hdue, hsound, hneed, hwaiting, htime, hlimit, hcount, hfailed⟩ := h
  constructor <;> simp_all [Position.broken]

theorem Position.Lawful.release {p : Position} (h : p.Lawful) (hs : p.service ≠ .held) : p.release.Lawful := by
  obtain ⟨hhold, hresume, hdue, hsound, hneed, hwaiting, htime, hlimit, hcount, hfailed⟩ := h
  constructor <;> simp_all [Position.release]

theorem Position.Lawful.reclaim {p : Position} (h : p.Lawful) (hs : p.service ≠ .held) : p.reclaim.Lawful := by
  obtain ⟨hhold, hresume, hdue, hsound, hneed, hwaiting, htime, hlimit, hcount, hfailed⟩ := h
  by_cases hd : p.dueCause.isSome = true <;> constructor <;> simp_all [Position.reclaim]

theorem Position.Lawful.vacate {p : Position} (h : p.Lawful) : p.vacate.Lawful := by
  obtain ⟨hhold, hresume, hdue, hsound, hneed, hwaiting, htime, hlimit, hcount, hfailed⟩ := h
  constructor <;> simp_all [Position.vacate]

theorem Position.Lawful.serve {p : Position} (h : p.Lawful) (i : EntryIx) : (p.serve i).Lawful := by
  obtain ⟨hhold, hresume, hdue, hsound, hneed, hwaiting, htime, hlimit, hcount, hfailed⟩ := h
  constructor <;> simp_all [Position.serve]

theorem Position.Lawful.giveBack {p : Position} (h : p.Lawful) (i : EntryIx) : (p.giveBack i).Lawful := by
  obtain ⟨hhold, hresume, hdue, hsound, hneed, hwaiting, htime, hlimit, hcount, hfailed⟩ := h
  constructor <;> simp_all [Position.giveBack]

theorem Position.Lawful.exchange {p : Position} (h : p.Lawful) : p.exchange.Lawful := by
  obtain ⟨hhold, hresume, hdue, hsound, hneed, hwaiting, htime, hlimit, hcount, hfailed⟩ := h
  constructor <;> simp_all [Position.exchange]

theorem Position.Lawful.lose {p : Position} (h : p.Lawful) : p.lose.Lawful := by
  obtain ⟨hhold, hresume, hdue, hsound, hneed, hwaiting, htime, hlimit, hcount, hfailed⟩ := h
  constructor <;> simp_all [Position.lose]

theorem Position.Lawful.judge {p : Position} (h : p.Lawful) (c : Option Condition) : (p.judge c).Lawful := by
  obtain ⟨hhold, hresume, hdue, hsound, hneed, hwaiting, htime, hlimit, hcount, hfailed⟩ := h
  unfold Position.judge
  split
  · constructor <;> simp_all
  · constructor <;> simp_all
  · next c hc =>
    have hcause : c.cause.isSome = true := by
      cases c with
      | sound => exact absurd rfl hc
      | worn => rfl
      | doubtful => rfl
      | broken => rfl
    constructor <;> simp_all

theorem Position.Lawful.clearCounts {p : Position} (h : p.Lawful) : p.clearCounts.Lawful :=
  { h with retryCount := Nat.zero_le _, failed := Nat.zero_le _ }

theorem Position.Lawful.expire {p : Position} (h : p.Lawful) (o : Order) : (p.expire o).Lawful := by
  have hplaces : Position.Lawful { p with rack := p.rack.lose o.number, mounted := p.mounted.lose o.number } := { h with }
  unfold Position.expire
  dsimp only
  split
  · exact hplaces.lose
  · exact hplaces

theorem Position.need_expire (p : Position) (o : Order) :
    (p.expire o).need = p.need ∧ (p.expire o).urgent = p.urgent ∧ (p.expire o).sister = p.sister := by
  unfold Position.expire
  dsimp only
  split <;> exact ⟨rfl, rfl, rfl⟩

theorem Position.Lawful.warm {p : Position} (h : p.Lawful) : p.warm.Lawful := by
  have hcause : p.warm.holdCause.isSome = p.holdCause.isSome := by
    unfold Position.warm
    dsimp only
    split
    · next hr => rw [hr.2]; rfl
    · rfl
  exact { h with hold := hcause ▸ h.hold }

/-! ## Accounts stay in range (R3 to R6, R47, R48, R62, R63, R66) -/

theorem definedRecord_inRange {f : TypeSetOperands} (h : typeSetInRange f = true) : (definedRecord f).InRange := by
  simp only [typeSetInRange, Bool.and_eq_true, Bool.or_eq_true, Bool.not_eq_true', decide_eq_true_eq] at h
  obtain ⟨⟨⟨⟨⟨⟨⟨⟨⟨⟨⟨⟨⟨⟨⟨⟨⟨⟨⟨⟨⟨hd1, hd2⟩, hd3⟩, hd4⟩, hd5⟩, hdd⟩, hwp⟩, hkind⟩, hppd1⟩, hppd2⟩, hr1⟩, hr2⟩, hst⟩, hpm⟩, -⟩, hz⟩, hg⟩,
    hae⟩, hpo⟩, hbl⟩, -⟩, hfac⟩ := h
  have hfactor : givesFactor f = true → 500 ≤ f.factor ∧ f.factor ≤ 1500 := fun hgive => by
    rw [hgive] at hfac
    exact hfac.resolve_left nofun
  have hwheel : kindOf f = .dresser → f.wp = 0 := fun hk => hkind.resolve_left (by rw [hk]; nofun)
  constructor <;> dsimp only [definedRecord, layerOfGeometry, clampK, clampDeglitch] at *
  case factor => split <;> [exact hfactor ‹_›; omega]
  case wp => exact ⟨hwp, hwheel⟩
  all_goals omega

theorem editedRecord_inRange {f : TypeSetOperands} {old : TypeRec} (h : typeSetInRange f = true)
    (hgeometry : sameGeometry f old = true) (hold : old.InRange) : (editedRecord f old).InRange := by
  have hnew := definedRecord_inRange h
  simp only [sameGeometry, Bool.and_eq_true, decide_eq_true_eq] at hgeometry
  obtain ⟨⟨hkind, hdnew⟩, hdscrap⟩ := hgeometry
  have hlayer : layerOfGeometry f = old.lnew := by
    rw [hold.lnew, ← hdscrap, ← hdnew]
    have hdiff : f.ddiff + 10000 ≤ f.dnew := by
      simp only [typeSetInRange, Bool.and_eq_true, decide_eq_true_eq] at h
      tauto
    unfold layerOfGeometry
    omega
  exact
    { hnew with
      dnew := hold.dnew
      dscrap := hold.dscrap
      lnew := hold.lnew
      wp := ⟨hnew.wp.1, fun hk => hnew.wp.2 (hkind.trans hk)⟩
      rchg := ⟨hnew.rchg.1, hlayer ▸ hnew.rchg.2⟩
      factor := by
        have hfactor := hnew.factor
        dsimp only [editedRecord, definedRecord] at hfactor ⊢
        split
        · next hgive => simpa [hgive] using hfactor
        · exact hold.factor
      learnCount := by
        dsimp only [editedRecord]
        split
        · exact Nat.zero_le _
        · exact hold.learnCount }

/-- A division truncated toward zero stays between 0 and its dividend. -/
theorem tdiv_between (a : Int) {n : Int} (hn : 0 < n) :
    (0 ≤ a → 0 ≤ a.tdiv n ∧ n * a.tdiv n ≤ a) ∧ (a ≤ 0 → a.tdiv n ≤ 0 ∧ a ≤ n * a.tdiv n) := by
  have hpos : ∀ b : Int, 0 ≤ b → 0 ≤ b.tdiv n ∧ n * b.tdiv n ≤ b := fun b hb => by
    rw [Int.tdiv_eq_ediv_of_nonneg hb]
    exact ⟨Int.ediv_nonneg hb (by omega), Int.mul_ediv_self_le (by omega)⟩
  refine ⟨hpos a, fun ha => ?_⟩
  obtain ⟨h1, h2⟩ := hpos (-a) (by omega)
  rw [Int.neg_tdiv] at h1 h2
  rw [mul_neg] at h2
  omega

theorem learn_inRange {f : TypeRec} (h : f.InRange) (t : Tool) : (f.learn t).InRange := by
  have hobserved : 500 ≤ f.observed t ∧ f.observed t ≤ 1500 := by
    unfold TypeRec.observed
    omega
  have hfactor := h.factor
  exact
    { h with
      factor := by
        have hstep := tdiv_between ((f.observed t : Int) - (f.factor : Int)) (n := 4) (by omega)
        dsimp only [TypeRec.learn]
        omega
      learnCount := by
        dsimp only [TypeRec.learn]
        omega }

theorem keepsAccount_charge (s : State) (a f : Nat) {count : Tool → Tool} {u : Tool}
    (hcount : ∀ v, (count v).serial = v.serial ∧ (count v).type = v.type ∧ (count v).r = v.r ∧ (count v).rem = v.rem ∧
      (count v).nnom = v.nnom ∧ (v.parts ≤ 16777215 → (count v).parts ≤ 16777215) ∧
      (v.dresses ≤ 16777215 → (count v).dresses ≤ 16777215) ∧ (count v).doubts = v.doubts ∧
      (count v).trips = v.trips ∧ (count v).peakAE = v.peakAE ∧ (count v).peakPower = v.peakPower) :
    KeepsAccount s (fun t => count (t.charge a f)) u := by
  obtain ⟨hserial, htype, hr, hrem, hnnom, hparts, hdresses, hdoubts, htrips, hae, hpower⟩ := hcount (u.charge a f)
  refine ⟨hserial, fun _ ⟨⟨g, hg, hle⟩, _, _, hp, hd, hdo, htr, hpa, hpp⟩ => ?_⟩
  rw [Accounted, htype, hr, hrem, hnnom, hdoubts, htrips, hae, hpower]
  refine ⟨⟨g, hg, (Nat.sub_le _ _).trans hle⟩, ?_, min_le_left _ _, hparts hp, hdresses hd, hdo, htr, hpa, hpp⟩
  dsimp only [Tool.charge]
  split <;> omega

theorem keepsAccount_doubtGauge (s : State) (u : Tool) : KeepsAccount s Tool.doubtGauge u :=
  ⟨rfl, fun _ ⟨hf, h1, h2, h3, h4, _, h6, h7, h8⟩ => ⟨hf, h1, h2, h3, h4, min_le_left _ _, h6, h7, h8⟩⟩

theorem layerOf_le {f : TypeRec} (h : f.InRange) (d : Nat) : f.layerOf d ≤ f.lnew := by
  have hl := h.lnew
  unfold TypeRec.layerOf
  split_ifs <;> omega

/-- A blend stays between the prior R and the layer. -/
theorem blend_le {f : TypeRec} {m r b : Nat} (hm : m ≤ b) (hr : r ≤ b) (hw : f.weight r ≤ 16) : f.blend m r ≤ b := by
  unfold TypeRec.blend
  generalize f.weight r = w at hw
  have hdiv := tdiv_between (((m : Int) - r) * w) (n := 16) (by omega)
  have hbound : (((m : Int) - r) * w).tdiv 16 ≤ max 0 ((m : Int) - r) := by
    rcases le_total (r : Int) m with hle | hle
    · have hmul : ((m : Int) - r) * w ≤ ((m : Int) - r) * 16 :=
        mul_le_mul_of_nonneg_left (by exact_mod_cast hw) (by omega)
      have hpos : (0 : Int) ≤ ((m : Int) - r) * w := mul_nonneg (by omega) (by omega)
      have hquot := (hdiv.1 hpos).2
      omega
    · have hneg : ((m : Int) - r) * w ≤ 0 := mul_nonpos_of_nonpos_of_nonneg (by omega) (by omega)
      have hquot := (hdiv.2 hneg).1
      omega
  omega

theorem keepsAccount_blendGauge {s : State} {u : Tool} (d : Nat) :
    KeepsAccount s (Tool.blendGauge (s.figures u.type) d) u := by
  refine ⟨rfl, fun hcat ⟨⟨f, hf, hle⟩, h1, h2, h3, h4, _, h6, h7, h8⟩ =>
    ⟨⟨f, hf, ?_⟩, h1, h2, h3, h4, Nat.zero_le _, h6, h7, h8⟩⟩
  have hrange := hcat _ f hf
  have hfig : s.figures u.type = f := by simp [State.figures, hf]
  have hk := hrange.k
  show (s.figures u.type).blend ((s.figures u.type).layerOf d) u.r ≤ f.lnew
  rw [hfig]
  refine blend_le (layerOf_le hrange d) hle ?_
  unfold TypeRec.weight
  split <;> omega

theorem keepsAccount_trips (s : State) (u : Tool) : KeepsAccount s (fun t => { t with trips := min 255 (t.trips + 1) }) u :=
  ⟨rfl, fun _ ⟨hf, h1, h2, h3, h4, h5, _, h7, h8⟩ => ⟨hf, h1, h2, h3, h4, h5, min_le_left _ _, h7, h8⟩⟩

theorem peakAfter_le {sample : Option (Bool × Nat)} {peak : Nat} (hpeak : peak ≤ 32767)
    (hsample : ∀ v n, sample = some (v, n) → n ≤ 32767) : peakAfter sample peak ≤ 32767 := by
  unfold peakAfter
  split
  · exact hpeak
  · split
    · exact hsample _ _ rfl
    · exact hpeak

theorem sampleFor_le {s : State} {words : Vector SampleWord 16} {x : PosIx} {g : Signal} {v : Bool} {n : Nat}
    (h : s.sampleFor words x g = some (v, n)) : n ≤ 32767 := by
  obtain ⟨k, -, hk⟩ := Option.map_eq_some_iff.mp h
  cases hk
  unfold sampleValue
  omega

theorem keepsAccount_peaks (s : State) (words : Vector SampleWord 16) (x : PosIx) (u : Tool) :
    KeepsAccount s (fun t => { t with
      peakAE := peakAfter (s.sampleFor words x .ae) t.peakAE
      peakPower := peakAfter (s.sampleFor words x .power) t.peakPower }) u :=
  ⟨rfl, fun _ ⟨hf, h1, h2, h3, h4, h5, h6, h7, h8⟩ =>
    ⟨hf, h1, h2, h3, h4, h5, h6, peakAfter_le h7 fun _ _ => sampleFor_le, peakAfter_le h8 fun _ _ => sampleFor_le⟩⟩

section
variable {C : PosIx → Prop}

/-! ## The events of the stations -/

theorem State.ret_restartChannel (s : State) (x : PosIx) : (s.restartChannel x).ret = s.ret := by
  unfold State.restartChannel
  split
  · split <;> rfl
  · rfl

theorem State.ret_changeMode (s : State) (x : PosIx) : (s.changeMode x).ret = s.ret := by
  unfold State.changeMode
  split
  · rfl
  · exact State.ret_restartChannel s x

theorem Ev.steps_verdictChannel (e : Ev) (x : PosIx) : Steps C e.st (e.verdictChannel x).st :=
  .quiet ((Quiet.setChan _ x _).trans (.restartChannel _ x))

theorem Ev.steps_noticeDue (e : Ev) (x : PosIx) : Steps C e.st (e.noticeDue x).st := by
  unfold Ev.noticeDue
  split
  · exact e.steps_notifySlot _ _
  · exact .refl

theorem Ev.steps_reclaimOrder (e : Ev) (x : PosIx) : Steps C e.st (e.reclaimOrder x).st := by
  unfold Ev.reclaimOrder
  split
  · exact .refl
  · dsimp only
    split
    · exact (e.steps_withdraw _).trans (Ev.steps_progress _ x nofun nofun)
    · exact e.steps_withdraw _

theorem Ev.steps_breakTool (e : Ev) (x : PosIx) : Steps C e.st (e.breakTool x).st := by
  unfold Ev.breakTool
  split
  · exact .refl
  · exact e.steps_updTool (keepsAccount_condition _ _)

theorem Ev.steps_chargeParts (e : Ev) (x : PosIx) (a : TypeRec → Nat) (n : Nat) :
    Steps C e.st (e.chargeMounted x a (Tool.countParts n)).st := by
  unfold Ev.chargeMounted
  split
  · exact .refl
  · exact e.steps_updTool fun u => keepsAccount_charge _ _ _
      fun v => ⟨rfl, rfl, rfl, rfl, rfl, fun _ => min_le_left _ _, id, rfl, rfl, rfl, rfl⟩

theorem Ev.steps_chargeDresses (e : Ev) (x : PosIx) (a : TypeRec → Nat) (n : Nat) :
    Steps C e.st (e.chargeMounted x a (Tool.countDresses n)).st := by
  unfold Ev.chargeMounted
  split
  · exact .refl
  · exact e.steps_updTool fun u => keepsAccount_charge _ _ _
      fun v => ⟨rfl, rfl, rfl, rfl, rfl, id, fun _ => min_le_left _ _, rfl, rfl, rfl, rfl⟩

theorem Ev.steps_gaugeTool (e : Ev) {x : PosIx} {i : EntryIx} {t : Tool} (d : Nat) (ht : e.st.tool i = some t) :
    Steps C e.st (e.gaugeTool x i t d).st := by
  have hdoubt : Steps C e.st (e.updTool i Tool.doubtGauge).st := e.steps_updTool (keepsAccount_doubtGauge _)
  unfold Ev.gaugeTool
  split
  · split
    · exact ((hdoubt.trans (Ev.steps_finding _ _ _ _ _)).trans (Ev.steps_evalTriggers _ x)).trans (Ev.steps_needTest _ x)
    · exact hdoubt.trans (Ev.steps_evalTriggers _ x)
  · have hblend : Steps C e.st (e.updTool i (Tool.blendGauge (e.st.figures t.type) d)).st :=
      .single (.tool fun u hu => by
        obtain rfl := Option.some.inj (ht.symm.trans hu)
        exact keepsAccount_blendGauge d)
    exact hblend.trans (Ev.steps_evalTriggers _ x)

/-! ## A delivery -/

theorem Ev.steps_hold (e : Ev) (x : PosIx) (c : HoldCause) : Steps C e.st (e.hold x c).st := by
  have hpos : Steps C e.st (e.updPos x (·.hold c)).st := e.steps_updPos_places fun p =>
    ⟨fun l => l.withHold c, by unfold Position.hold; split <;> rfl, by unfold Position.hold; split <;> rfl⟩
  exact (hpos.trans (Ev.steps_notifySlot _ _ _)).trans (Ev.steps_needTest _ x)

theorem Ev.steps_tripByMode (e : Ev) (x : PosIx) : Steps C e.st (e.tripByMode x).st := by
  unfold Ev.tripByMode
  dsimp only
  split
  · exact .refl
  · exact .refl
  · exact e.steps_hold x _
  · split
    · next hcount =>
      have hretry : Steps C e.st (e.updPos x fun p => { p with retryCount := p.retryCount + 1 }).st :=
        e.steps_updPos (fun l => { l with retryCount := hcount }) rfl rfl
      exact (hretry.trans (Ev.steps_upd_quiet _ (.setChan _ _ _))).trans (Ev.steps_hold _ x _)
    · exact e.steps_hold x _

theorem Ev.steps_trip (e : Ev) (x : PosIx) (i : EntryIx) : Steps C e.st (e.trip x i).st := by
  have hspent : Steps C e.st
      (e.upd fun s => s.setChan x { s.chan x with state := .spent, aeCount := 0, powerCount := 0 }).st :=
    e.steps_upd_quiet (.setChan _ _ _)
  exact (((hspent.trans (Ev.steps_updTool _ (keepsAccount_trips _))).trans (Ev.steps_notifySlot _ _ _)).trans
    (Ev.steps_notify_ps _ _)).trans (Ev.steps_tripByMode _ x)

theorem Ev.steps_evaluate (e : Ev) (words : Vector SampleWord 16) (x : PosIx) :
    Steps C e.st (e.evaluate words x).st := by
  unfold Ev.evaluate
  split
  · exact .refl
  · have hpeaks := e.steps_updTool (C := C) (i := ‹_›) (keepsAccount_peaks e.st words x)
    dsimp only
    split
    · exact (hpeaks.trans (Ev.steps_upd_quiet _ (.setChan _ _ _))).trans (Ev.steps_trip _ x _)
    · exact hpeaks.trans (Ev.steps_upd_quiet _ (.setChan _ _ _))

theorem Ev.steps_deliverTo (words : Vector SampleWord 16) (e : Ev) (x : PosIx) :
    Steps C e.st (e.deliverTo words x).st := by
  unfold Ev.deliverTo
  split
  · split
    · exact .refl
    · exact .refl
    · exact e.steps_upd_quiet (.setChan _ _ _)
    · exact e.steps_evaluate words x
  · exact .refl

/-! ## The events of the supervisor -/

theorem Ev.steps_judge (e : Ev) (x : PosIx) : Steps C e.st (e.judge x).st := by
  have hpos : Steps C e.st (e.updPos x (·.judge (e.st.judgedCondition x))).st := e.steps_updPos_places fun p =>
    ⟨fun l => l.judge _, by unfold Position.judge; split <;> rfl, by unfold Position.judge; split <;> rfl⟩
  unfold Ev.judge
  dsimp only
  split
  · exact hpos
  · exact hpos.trans (Ev.steps_evalTriggers _ x)
  · exact (hpos.trans (Ev.steps_notifySlot _ _ _)).trans (Ev.steps_evalTriggers _ x)

theorem Ev.steps_withdrawRemove (e : Ev) (x : PosIx) : Steps C e.st (e.withdrawRemove x).st := by
  unfold Ev.withdrawRemove
  split
  · exact e.steps_withdraw _
  · exact .refl

theorem Ev.steps_arbitrateFor (e : Ev) (x : PosIx) : Steps C e.st (e.arbitrateFor x).st := by
  unfold Ev.arbitrateFor
  split
  · split
    · exact e.steps_arbitrate _
    · exact .refl
  · exact .refl

/-- What `putTool` does to the place that takes the tool. -/
theorem Ev.steps_putTool {e : Ev} {i : EntryIx} {t : Tool} (pl : PutPlace)
    (h : ∀ st p, Steps C e.st (e.st.setTool i (some (t.put st p))))
    (hmount : ∀ x, Steps C e.st (e.st.setTool i (some (t.mount x)))) : Steps C e.st (e.putTool i t pl).st := by
  cases pl with
  | pocket k => exact (h _ _).tail (.pocket k _)
  | rack x => exact (h _ _).trans (Ev.steps_setRack (e.upd fun s => s.setTool i (some (t.put .offloaded (.rack x)))) x _)
  | spindle x =>
    exact (hmount x).trans (Ev.steps_updPos_places (e.upd fun s => s.setTool i (some (t.mount x)))
      fun _ => ⟨fun l => { l with }, rfl, rfl⟩)

theorem Ev.steps_afterPut (e : Ev) (i : EntryIx) (pl : PutPlace) : Steps C e.st (e.afterPut i pl).st := by
  cases pl with
  | pocket k => exact e.steps_offerTool i
  | rack x => exact .refl
  | spindle x => exact .refl

theorem Ev.steps_freePlace (e : Ev) (pl : Place) : Steps C e.st (e.freePlace pl).st := by
  cases pl with
  | pocket k => exact e.steps_setPocket k _
  | rack x => exact e.steps_updPos_places fun _ => ⟨fun l => { l with }, rfl, rfl⟩
  | spindle x => exact .refl
  | gripper => exact .refl
  | unknown => exact .refl

/-- A new tool's account is in range. -/
theorem accounted_newTool {s : State} {serial : Nat} {k : TypeIx} {f : TypeRec} {given : Option Nat}
    (htyp : s.typ k = some f) (hlife : given.getD 0 ≤ f.lnew) :
    Accounted s (newTool serial k (s.figures k).lnew given) := by
  have hfig : s.figures k = f := by simp [State.figures, htyp]
  refine ⟨⟨f, htyp, ?_⟩, ?_⟩
  · rw [hfig]
    cases given with
    | none => exact le_rfl
    | some r => exact hlife
  · simp [newTool]

/-- A reinstated tool's account is in range. -/
theorem accounted_reinstate {s : State} {t : Tool} {k : TypeIx} {given : Option Nat}
    (htyp : k ≠ t.type → (s.typ k).isSome = true ∧ given.isSome = true) (hlife : given.getD 0 ≤ (s.figures k).lnew)
    (h : Accounted s t) : Accounted s (t.reinstate k given) := by
  obtain ⟨⟨f, hf, hle⟩, h1, h2, h3, h4, -, h6, h7, h8⟩ := h
  have htype : ∃ g, s.typ k = some g ∧ given.getD t.r ≤ g.lnew := by
    by_cases hk : k = t.type
    · subst hk
      refine ⟨f, hf, ?_⟩
      have hfig : s.figures t.type = f := by simp [State.figures, hf]
      rw [hfig] at hlife
      cases given with
      | none => exact hle
      | some r => exact hlife
    · obtain ⟨hdef, hgiven⟩ := htyp hk
      obtain ⟨g, hg⟩ := Option.isSome_iff_exists.mp hdef
      obtain ⟨r, rfl⟩ := Option.isSome_iff_exists.mp hgiven
      have hfig : s.figures k = g := by simp [State.figures, hg]
      exact ⟨g, hg, hfig ▸ hlife⟩
  refine ⟨htype, ?_, ?_, h3, h4, Nat.zero_le _, h6, h7, h8⟩
  · dsimp only [Tool.reinstate]
    split <;> omega
  · dsimp only [Tool.reinstate]
    split <;> omega

/-! ## The events of the changer -/

theorem Ev.steps_retire (e : Ev) (n : Nat) : Steps C e.st (e.upd (·.retire n)).st :=
  (Relation.ReflTransGen.single (Prim.drop n)).tail (.quiet (.of_eq rfl rfl rfl rfl))

theorem Ev.steps_grip (e : Ev) (i : Option EntryIx) : Steps C e.st (e.grip i).st := by
  cases i with
  | none => exact .refl
  | some i => exact e.steps_updTool (keepsAccount_put _ _ _)

theorem Ev.steps_bookPocket (e : Ev) (o : Order) : Steps C e.st (e.bookPocket o).st := by
  unfold Ev.bookPocket
  split
  · exact e.steps_setPocket _ _
  · exact e.steps_setPocket _ _
  · exact .refl

theorem Ev.steps_bookRack (e : Ev) (o : Order) : Steps C e.st (e.bookRack o).st := by
  unfold Ev.bookRack
  split
  · exact e.steps_setRack _ _
  · exact e.steps_setRack _ _
  · exact .refl

theorem Ev.steps_bookSpindle (e : Ev) (o : Order) : Steps C e.st (e.bookSpindle o).st := by
  unfold Ev.bookSpindle
  split
  · exact e.steps_updPos_places fun p => ⟨fun l => Position.Lawful.exchange { l with }, rfl, rfl⟩
  · exact .refl

theorem Ev.steps_learnFrom (e : Ev) (j but : Option EntryIx) : Steps C e.st (e.learnFrom j but).st := by
  unfold Ev.learnFrom
  split
  · unfold Ev.learn
    split
    · exact .refl
    · next t _ =>
      split
      · exact .refl
      · next f hf =>
        split
        · have hlearn : Steps C e.st (e.upd fun s => s.setType t.type (some (f.learn t))).st :=
            .single (.typ (fun hcat r hr => by obtain rfl := Option.some.inj hr; exact learn_inRange (hcat _ f hf) t)
              (.inl ⟨f, _, hf, rfl, rfl⟩))
          exact ((hlearn.trans (Ev.steps_reevaluate _ _ _)).trans (Ev.steps_arbitrateIfWaited _ _)).trans
            (Ev.steps_notify_ps _ _)
        · exact .refl
  · exact .refl

theorem Ev.steps_clearFailed (e : Ev) (x : PosIx) : Steps C e.st (e.clearFailed x).st :=
  e.steps_updPos_places fun _ => ⟨fun l => { l with failed := Nat.zero_le _ }, rfl, rfl⟩

theorem Ev.steps_arriveStaged (e : Ev) (x : PosIx) (i : EntryIx) : Steps C e.st (e.arriveStaged x i).st := by
  unfold Ev.arriveStaged
  split
  · exact (((e.steps_updTool (keepsAccount_put _ _ _)).trans (Ev.steps_setRack _ x _)).trans
      (Ev.steps_progress _ x (n := .staged) nofun nofun)).trans (Ev.steps_notifySlot _ _ _)
  · exact (e.steps_updTool (keepsAccount_put _ _ _)).trans (Ev.steps_setRack _ x _)

theorem Ev.steps_doneStage (e : Ev) (o : Order) : Steps C e.st (e.doneStage o).st := by
  unfold Ev.doneStage
  dsimp only
  refine .trans ?_ (Ev.steps_clearFailed _ o.pos)
  split
  · exact (e.steps_freePocket _).trans (Ev.steps_arriveStaged _ _ _)
  · exact (e.steps_freePocket _).trans (Ev.steps_setRack _ _ _)

theorem Ev.steps_offloadOutgoing (e : Ev) (o : Order) : Steps C e.st (e.offloadOutgoing o).st := by
  unfold Ev.offloadOutgoing
  split
  · exact (e.steps_updTool (keepsAccount_put _ _ _)).trans (Ev.steps_setRack _ _ _)
  · exact e.steps_setRack _ _

theorem Ev.steps_doneExchange (e : Ev) {o : Order} (i : EntryIx) (hx : C o.pos) : Steps C e.st (e.doneExchange o i).st := by
  have hmoves : Steps C e.st (((e.updTool i (·.mount o.pos)).offloadOutgoing o).freePocket o.pocket).st :=
    ((e.steps_updTool (keepsAccount_mount _ _)).trans (Ev.steps_offloadOutgoing _ o)).trans (Ev.steps_freePocket _ _)
  unfold Ev.doneExchange
  refine .trans (.trans (.trans (.trans (.trans hmoves ?_) (Ev.steps_clearNeed _ hx)) (Ev.steps_notifySlot _ _ _))
    (Ev.steps_learnFrom _ _ _)) (.trans (Ev.steps_evalTriggers _ _) (Ev.steps_needTest _ _))
  exact Ev.steps_updPos_places _ fun p => ⟨fun l => (l.serve i).clearCounts, rfl, rfl⟩

theorem Ev.steps_doneRemove (e : Ev) (o : Order) : Steps C e.st (e.doneRemove o).st := by
  unfold Ev.doneRemove
  refine .trans (.trans (.trans (e.steps_offloadOutgoing o) ?_) (Ev.steps_learnFrom _ _ _)) (Ev.steps_needTest _ _)
  exact Ev.steps_updPos_places _ fun p => ⟨fun l => l.vacate.clearCounts, rfl, rfl⟩

theorem Ev.steps_storeReturned (e : Ev) (j : EntryIx) (k : PocketIx) : Steps C e.st (e.storeReturned j k).st := by
  unfold Ev.storeReturned
  dsimp only
  split
  · exact ((e.steps_setPocket k _).trans (Ev.steps_updTool _ (keepsAccount_put _ _ _))).trans (Ev.steps_notify_ps _ _)
  · exact ((e.steps_setPocket k _).trans (Ev.steps_updTool _ (keepsAccount_put _ _ _))).trans (Ev.steps_offerTool _ _)

theorem Ev.steps_doneReturn (e : Ev) (o : Order) : Steps C e.st (e.doneReturn o).st := by
  unfold Ev.doneReturn
  dsimp only
  refine .trans (.trans (e.steps_setRack o.pos .bare) ?_) (Ev.steps_clearFailed _ o.pos)
  split
  · exact Ev.steps_storeReturned _ _ _
  · exact .single (.free _)
  · exact Ev.steps_freePocket _ _

/-- The changes of a DONE; the need of the position of an EXCHANGE or DIRECT is met. -/
theorem Ev.steps_done (e : Ev) {o : Order} (hx : o.kind.spindle = true → C o.pos) : Steps C e.st (e.done o).st := by
  unfold Ev.done
  split
  · exact e.steps_doneStage o
  · next hk _ => exact e.steps_doneExchange _ (hx (by rw [hk]; rfl))
  · next hk _ => exact e.steps_doneExchange _ (hx (by rw [hk]; rfl))
  · exact e.steps_doneRemove o
  · exact e.steps_doneRemove o
  · exact e.steps_doneRemove o
  · exact e.steps_doneReturn o

theorem Ev.steps_backToPocket (e : Ev) (x : PosIx) (i : EntryIx) (k : PocketIx) :
    Steps C e.st (e.backToPocket x i k).st := by
  unfold Ev.backToPocket
  dsimp only
  split
  · exact ((e.steps_setPocket k _).trans (Ev.steps_updTool _ (keepsAccount_put _ _ _))).trans
      (Ev.steps_progress _ x nofun nofun)
  · exact (e.steps_setPocket k _).trans (Ev.steps_updTool _ (keepsAccount_put _ _ _))

theorem Ev.steps_backToRack (e : Ev) (x : PosIx) (i : EntryIx) : Steps C e.st (e.backToRack x i).st := by
  unfold Ev.backToRack
  dsimp only
  split
  · exact (e.steps_setRack x _).trans (Ev.steps_updTool _ (keepsAccount_put _ _ _))
  · exact (e.steps_setRack x _).trans (Ev.steps_updTool _ (keepsAccount_put _ _ _))

theorem Ev.steps_failIncoming (e : Ev) (o : Order) (missing : Option EntryIx) :
    Steps C e.st (e.failIncoming o missing).st := by
  unfold Ev.failIncoming
  split
  · exact .refl
  · split
    · split
      · exact (e.steps_updTool (keepsAccount_lose _)).trans (Ev.steps_setRack _ _ _)
      · exact e.steps_backToRack _ _
    · split
      · exact (e.steps_updTool (keepsAccount_lose _)).trans (Ev.steps_setPocket _ _ _)
      · exact e.steps_backToPocket _ _ _
    · exact .refl

theorem Ev.steps_vacate (e : Ev) (x : PosIx) : Steps C e.st (e.updPos x Position.vacate).st :=
  e.steps_updPos_places fun _ => ⟨fun l => l.vacate, rfl, rfl⟩

theorem Ev.steps_failSpindle (e : Ev) (o : Order) (missing : Option EntryIx) :
    Steps C e.st (e.failSpindle o missing).st := by
  unfold Ev.failSpindle
  split
  · exact e.steps_vacate _
  · split
    · exact (e.steps_updTool (keepsAccount_lose _)).trans (Ev.steps_vacate _ _)
    · exact (e.steps_updTool (keepsAccount_put _ _ _)).trans
        (Ev.steps_updPos_places _ fun _ => ⟨fun l => l.giveBack _, rfl, rfl⟩)

theorem Ev.steps_failReturn (e : Ev) (o : Order) (missing : Option EntryIx) :
    Steps C e.st (e.failReturn o missing).st := by
  unfold Ev.failReturn
  dsimp only
  refine .trans ?_ (Ev.steps_freePocket _ _)
  split
  · exact .refl
  · split
    · exact (e.steps_updTool (keepsAccount_lose _)).trans (Ev.steps_setRack _ _ _)
    · exact (e.steps_updTool (keepsAccount_put _ _ _)).trans (Ev.steps_setRack _ _ _)

theorem Ev.steps_failMoves (e : Ev) (o : Order) (missing : Option EntryIx) :
    Steps C e.st (e.failMoves o missing).st := by
  have hrack : Steps C e.st (if o.kind.booksRackAtPosting = true then e.updPos o.pos (·.setRack .bare) else e).st := by
    split
    · exact e.steps_setRack _ _
    · exact .refl
  unfold Ev.failMoves
  split
  · exact e.steps_failReturn o missing
  · dsimp only
    generalize (if o.kind.booksRackAtPosting = true then e.updPos o.pos (·.setRack .bare) else e) = freed at hrack ⊢
    refine .trans (.trans hrack ?_) (Ev.steps_failIncoming _ o missing)
    split
    · exact Ev.steps_failSpindle _ o missing
    · exact .refl

theorem Ev.steps_countFailure (e : Ev) (x : PosIx) : Steps C e.st (e.countFailure x).st := by
  unfold Ev.countFailure
  dsimp only
  split
  · refine .trans ?_ (Ev.steps_notify_ps _ _)
    exact e.steps_updPos_places fun _ => ⟨fun l => { l with failed := le_rfl }, rfl, rfl⟩
  · exact e.steps_updPos_places fun _ => ⟨fun l => { l with failed := min_le_left _ _ }, rfl, rfl⟩

theorem Ev.steps_failReport (e : Ev) (o : Order) (missing : Option EntryIx) :
    Steps C e.st (e.failReport o missing).st := by
  unfold Ev.failReport
  split
  · exact e.steps_notify_ps _
  · exact e.steps_countFailure _

theorem Ev.steps_failNeed (e : Ev) (o : Order) : Steps C e.st (e.failNeed o).st := by
  unfold Ev.failNeed
  split
  · exact e.steps_needTest _
  · exact .refl

theorem Ev.steps_failSister (e : Ev) {o : Order} {missing : Option EntryIx}
    (hx : ∀ i, o.incoming = some i → (e.st.pos o.pos).sister = some i → C o.pos) :
    Steps C e.st (e.failSister o missing).st := by
  unfold Ev.failSister
  split
  · exact .refl
  · next i hi =>
    split
    · exact e.steps_loseSister (hx i hi)
    · exact e.steps_offerTool i

theorem Ev.steps_loseTool (e : Ev) (i : Option EntryIx) : Steps C e.st (e.loseTool i).st := by
  cases i with
  | none => exact .refl
  | some i => exact e.steps_updTool (keepsAccount_lose _)

theorem Ev.steps_losePocket (e : Ev) (n : Nat) (k : Option PocketIx) : Steps C e.st (e.losePocket n k).st := by
  unfold Ev.losePocket
  split
  · split
    · exact e.steps_setPocket _ _
    · exact .refl
  · exact .refl

theorem Ev.steps_expireNotices (e : Ev) (o : Order) : Steps C e.st (e.expireNotices o).st := by
  have hexpired : Steps C e.st (e.notify .pc .expired).st := e.steps_notify fun _ => by decide
  unfold Ev.expireNotices
  dsimp only
  split
  · exact (hexpired.trans (Ev.steps_notify_ps _ _)).trans (Ev.steps_notify_ps _ _)
  · exact hexpired.trans (Ev.steps_notify_ps _ _)

theorem Ev.steps_expireSister (e : Ev) {o : Order}
    (hx : ∀ i, o.incoming = some i → (e.st.pos o.pos).sister = some i → C o.pos) :
    Steps C e.st (e.expireSister o).st := by
  unfold Ev.expireSister
  split
  · next i hi => exact e.steps_loseSister (hx i hi)
  · exact .refl

end

end Sys2Proof.Machine

/-! PROOFS. Every event and every start is made of the changes of `Prim`. -/
namespace Sys2Proof.Machine

/-! ## Sisters that an order's return leaves alone -/

/-- The sisters of the positions are the same. -/
def SameSisters (s t : State) : Prop := ∀ x, (t.pos x).sister = (s.pos x).sister

theorem SameSisters.refl (s : State) : SameSisters s s := fun _ => rfl

theorem SameSisters.trans {s t u : State} (h : SameSisters s t) (g : SameSisters t u) : SameSisters s u :=
  fun x => (g x).trans (h x)

theorem SameSisters.of_pos {s t : State} (h : t.pos = s.pos) : SameSisters s t := fun x => by rw [h]

theorem Ev.sameSisters_updPos (e : Ev) {x : PosIx} {f : Position → Position} (hf : ∀ p, (f p).sister = p.sister) :
    SameSisters e.st (e.updPos x f).st := by
  intro y
  rw [Ev.st_updPos, State.pos_setPos]
  split
  · next h => rw [hf, h]
  · rfl

theorem State.pos_dropOrder (s : State) (n : Nat) : (s.dropOrder n).pos = s.pos := by
  unfold State.dropOrder State.promote
  split
  · dsimp only
    split
    · rfl
    · split <;> rfl
  · rfl

theorem State.pos_retire (s : State) (n : Nat) : (s.retire n).pos = s.pos := State.pos_dropOrder s n

theorem Ev.sameSisters_backToPocket (e : Ev) (x : PosIx) (i : EntryIx) (k : PocketIx) :
    SameSisters e.st (e.backToPocket x i k).st := by
  unfold Ev.backToPocket
  dsimp only
  split
  · exact Ev.sameSisters_updPos ((e.setPocket k (.holds i)).updTool i (·.put .reserved (.pocket k))) fun _ => rfl
  · exact .refl _

theorem Ev.sameSisters_backToRack (e : Ev) (x : PosIx) (i : EntryIx) :
    SameSisters e.st (e.backToRack x i).st := by
  unfold Ev.backToRack
  dsimp only
  split <;> exact Ev.sameSisters_updPos e (f := (·.setRack (.entry i))) fun _ => rfl

theorem Ev.sameSisters_failIncoming (e : Ev) (o : Order) (missing : Option EntryIx) :
    SameSisters e.st (e.failIncoming o missing).st := by
  unfold Ev.failIncoming
  split
  · exact .refl _
  · split
    · split
      · exact Ev.sameSisters_updPos (e.updTool _ Tool.lose) fun _ => rfl
      · exact e.sameSisters_backToRack _ _
    · split
      · exact .refl _
      · exact e.sameSisters_backToPocket _ _ _
    · exact .refl _

theorem Ev.sameSisters_failSpindle (e : Ev) (o : Order) (missing : Option EntryIx) :
    SameSisters e.st (e.failSpindle o missing).st := by
  unfold Ev.failSpindle
  split
  · exact e.sameSisters_updPos fun _ => rfl
  · split
    · exact Ev.sameSisters_updPos (e.updTool _ Tool.lose) fun _ => rfl
    · exact Ev.sameSisters_updPos (e.updTool _ _) fun _ => rfl

theorem Ev.pos_freePocket (e : Ev) (k : Option PocketIx) : (e.freePocket k).st.pos = e.st.pos := by
  cases k <;> rfl

theorem Ev.sameSisters_failReturn (e : Ev) (o : Order) (missing : Option EntryIx) :
    SameSisters e.st (e.failReturn o missing).st := by
  unfold Ev.failReturn
  dsimp only
  refine .trans ?_ (.of_pos (Ev.pos_freePocket _ _))
  split
  · exact .refl _
  · split
    · exact Ev.sameSisters_updPos (e.updTool _ Tool.lose) fun _ => rfl
    · exact Ev.sameSisters_updPos (e.updTool _ _) fun _ => rfl

theorem Ev.sameSisters_failMoves (e : Ev) (o : Order) (missing : Option EntryIx) :
    SameSisters e.st (e.failMoves o missing).st := by
  have hrack : SameSisters e.st
      (if o.kind.booksRackAtPosting = true then e.updPos o.pos (·.setRack .bare) else e).st := by
    split
    · exact e.sameSisters_updPos fun _ => rfl
    · exact .refl _
  unfold Ev.failMoves
  split
  · exact e.sameSisters_failReturn o missing
  · dsimp only
    generalize (if o.kind.booksRackAtPosting = true then e.updPos o.pos (·.setRack .bare) else e) = freed at hrack ⊢
    refine .trans (.trans hrack ?_) (Ev.sameSisters_failIncoming _ o missing)
    split
    · exact Ev.sameSisters_failSpindle _ o missing
    · exact .refl _

theorem Ev.pos_loseTool (e : Ev) (i : Option EntryIx) : (e.loseTool i).st.pos = e.st.pos := by
  cases i <;> rfl

theorem Ev.pos_losePocket (e : Ev) (n : Nat) (k : Option PocketIx) : (e.losePocket n k).st.pos = e.st.pos := by
  unfold Ev.losePocket
  split
  · split <;> rfl
  · rfl

theorem Ev.pos_expireNotices (e : Ev) (o : Order) : (e.expireNotices o).st.pos = e.st.pos := by
  unfold Ev.expireNotices
  dsimp only
  split <;> simp

theorem Ev.service_withdraw (e : Ev) (o : Order) (x : PosIx) :
    ((e.withdraw o).st.pos x).service = (e.st.pos x).service := by
  unfold Ev.withdraw
  dsimp only
  split
  · rw [Ev.st_updPos, State.pos_setPos]
    split
    · next h =>
      subst h
      show ((e.st.dropOrder o.number).pos o.pos).service = _
      rw [State.pos_dropOrder]
    · exact congrArg Position.service (congrFun (State.pos_dropOrder _ _) _)
  · exact congrArg Position.service (congrFun (State.pos_dropOrder _ _) _)

theorem Ev.service_reclaimOrder (e : Ev) (x y : PosIx) :
    ((e.reclaimOrder x).st.pos y).service = (e.st.pos y).service := by
  unfold Ev.reclaimOrder
  split
  · rfl
  · dsimp only
    split
    · rw [← Ev.service_withdraw e]
      show (((e.withdraw _).st.setPos x _).pos y).service = _
      rw [State.pos_setPos]
      split
      · next h => subst h; rfl
      · rfl
    · exact e.service_withdraw _ y

/-! ## Events -/

/-- The need of the position may be cleared in an event from `s` that does not cancel it by an ASSIGN or DECLARE: the
position has a sister, or the order that is out works on its spindle. -/
def Given (s : State) (x : PosIx) : Prop :=
  (s.pos x).sister.isSome = true ∨ ∃ o, s.busyOrder = some o ∧ o.kind.spindle = true ∧ o.pos = x

theorem State.freeEntry_none {s : State} {i : EntryIx} (h : s.freeEntry = some i) : s.tool i = none := by
  have hnone := List.find?_some h
  simpa using hnone

theorem Ev.loseTool_remember (e : Ev) (n : Nat) (i : Option EntryIx) :
    (e.loseTool i).upd (State.remember n) = (e.upd (State.remember n)).loseTool i := by
  cases i <;> rfl

theorem Ev.losePocket_remember (e : Ev) (n m : Nat) (k : Option PocketIx) :
    (e.losePocket m k).upd (State.remember n) = (e.upd (State.remember n)).losePocket m k := by
  cases k with
  | none => rfl
  | some k =>
    have hpocket : (e.upd (State.remember n)).st.pocket k = e.st.pocket k := rfl
    unfold Ev.losePocket
    dsimp only
    rw [hpocket]
    split <;> rfl

theorem Ev.updPos_remember (e : Ev) (n : Nat) (x : PosIx) (f : Position → Position) :
    (e.updPos x f).upd (State.remember n) = (e.upd (State.remember n)).updPos x f := rfl

/-- An order expires: its number may be remembered as soon as it is retired. -/
theorem steps_expiryMoves (C : PosIx → Prop) (o : Order) (s : State) :
    Steps C s ((((((Ev.start s).upd (·.retire o.number)).loseTool o.incoming).loseTool o.outgoing).losePocket o.number
      o.pocket).updPos o.pos (·.expire o) |>.upd (State.remember o.number)).st := by
  rw [Ev.updPos_remember, Ev.losePocket_remember, Ev.loseTool_remember, Ev.loseTool_remember]
  have hretired : Steps C s (((Ev.start s).upd (·.retire o.number)).upd (State.remember o.number)).st :=
    (Relation.ReflTransGen.single (Prim.expire o.number)).tail (.quiet (.of_eq rfl rfl rfl rfl))
  refine .trans (.trans (.trans (.trans hretired (Ev.steps_loseTool _ _)) (Ev.steps_loseTool _ _))
    (Ev.steps_losePocket _ _ _)) (Ev.steps_updPos_places _ fun p => ⟨fun l => l.expire o, ?_⟩)
  exact ⟨(p.need_expire o).1, (p.need_expire o).2.1⟩

theorem Ev.sameSisters_expiryMoves (o : Order) (s : State) :
    SameSisters s ((((((Ev.start s).upd (·.retire o.number)).loseTool o.incoming).loseTool o.outgoing).losePocket o.number
      o.pocket).updPos o.pos (·.expire o) |>.upd (State.remember o.number)).st := by
  refine .trans ?_ (Ev.sameSisters_updPos (x := o.pos) (f := (·.expire o)) _ fun p => (p.need_expire o).2.2)
  refine .of_pos ?_
  rw [Ev.pos_losePocket, Ev.pos_loseTool, Ev.pos_loseTool]
  exact State.pos_retire s _

/-- What an ASSIGN does before the need of its position is cancelled. -/
theorem steps_storeRequired (C : PosIx → Prop) (s : State) (x : PosIx) (req : Option TypeIx) :
    Steps C s (if req.isSome then ((Ev.start s).updPos x fun p => { p with required := req }).withdrawRemove x
      else (Ev.start s).updPos x fun p => { p with required := req }).st := by
  have hstored : Steps C s ((Ev.start s).updPos x fun p => { p with required := req }).st :=
    Ev.steps_updPos_places (Ev.start s) fun _ => ⟨fun l => { l with }, rfl, rfl⟩
  split
  · exact hstored.trans (Ev.steps_withdrawRemove _ x)
  · exact hstored

theorem steps_assign {C : PosIx → Prop} (s : State) {x : PosIx} (req : Option TypeIx) (hx : C x) :
    Steps C s (((if req.isSome then ((Ev.start s).updPos x fun p => { p with required := req }).withdrawRemove x
      else (Ev.start s).updPos x fun p => { p with required := req }).cancelNeed x).needTest x).st :=
  .trans (.trans (steps_storeRequired C s x req) (Ev.steps_cancelNeed _ hx)) (Ev.steps_needTest _ x)

/-- What a DECLARE of a position does after the need of the position is cancelled. -/
theorem Ev.steps_declared {C : PosIx → Prop} (e : Ev) (x : PosIx) (uncertain : Prop) [Decidable uncertain] :
    Steps C e.st ((if uncertain then (e.updPos x Position.clearUnknown).judge x
      else e.updPos x Position.clearUnknown).needTest x).st := by
  have hcleared : Steps C e.st (e.updPos x Position.clearUnknown).st :=
    e.steps_updPos_places fun _ => ⟨fun l => { l with }, rfl, rfl⟩
  refine .trans ?_ (Ev.steps_needTest _ x)
  split
  · exact hcleared.trans (Ev.steps_judge _ x)
  · exact hcleared

theorem steps_declarePosition {C : PosIx → Prop} (s : State) {x : PosIx} (hx : C x) :
    Steps C s ((if (s.pos x).service = .uncertain then
        (((Ev.start s).cancelNeed x).updPos x Position.clearUnknown).judge x
      else ((Ev.start s).cancelNeed x).updPos x Position.clearUnknown).needTest x).st :=
  .trans (Ev.steps_cancelNeed (Ev.start s) hx) (Ev.steps_declared _ x _)

theorem quiet_keepSamples (s : State) (words : Vector SampleWord 16) : Quiet s (s.keepSamples words) := by
  unfold State.keepSamples
  exact .of_eq rfl rfl rfl rfl

/-- Every event is made of the changes of `Prim`. -/
theorem Own.steps {w : Clearing} {s : State} {e : Ev} (h : Own w s e) : Steps (fun x => w = .anybody ∨ w ≠ .nobody ∧ Given s x) s e.st := by
  cases h with
  | @typeEdit k f old htyp hrange hgeometry =>
    have hnew : (s.typ k).map (editedRecord f) = some (editedRecord f old) := by rw [htyp]; rfl
    have hedit : Steps (fun x => w = .anybody ∨ w ≠ .nobody ∧ Given s x) s
        ((Ev.start s).upd fun s => s.setType k ((s.typ k).map (editedRecord f))).st :=
      .single (.typ
        (fun hcat r hr => by
          obtain rfl := Option.some.inj (hnew.symm.trans hr)
          exact editedRecord_inRange hrange hgeometry (hcat _ old htyp))
        (.inl ⟨old, _, htyp, hnew, rfl⟩))
    exact (hedit.trans (Ev.steps_reevaluate _ _ _)).trans (Ev.steps_arbitrateIfWaited _ _)
  | typeDefine hrange hfree =>
    exact .single (.typ (fun _ r hr => by obtain rfl := Option.some.inj hr; exact definedRecord_inRange hrange)
      (.inr ((inUse_eq_false_iff _ _).mp hfree).1))
  | typeErase hfree => exact .single (.typ (fun _ _ hr => nomatch hr) (.inr ((inUse_eq_false_iff _ _).mp hfree).1))
  | openWindow _ =>
    refine .trans ?_ (Ev.steps_upd_quiet _ (.setChan _ _ _))
    exact Ev.steps_updPos_places (Ev.start s) fun _ => ⟨fun l => { l with }, rfl, rfl⟩
  | closeWindow x =>
    refine .trans ?_ (Ev.steps_upd_quiet _ (.setChan _ _ _))
    exact Ev.steps_updPos_places (Ev.start s) fun _ => ⟨fun l => { l with }, rfl, rfl⟩
  | monitor htime hlimit =>
    refine .trans ?_ (Ev.steps_upd_quiet _ ?_)
    · exact Ev.steps_updPos_places (Ev.start s) fun _ => ⟨fun l => { l with
        retryTime := by simpa [goodRetryTime, or_assoc] using htime
        retryLimit := ⟨Nat.one_le_iff_ne_zero.mpr hlimit.1, hlimit.2⟩
        retryCount := min_le_left _ _ }, rfl, rfl⟩
    · split
      · exact .refl _
      · exact .changeMode _ _
  | clearRetries x => exact Ev.steps_updPos_places (Ev.start s) fun _ => ⟨fun l => { l with retryCount := Nat.zero_le _ }, rfl, rfl⟩
  | assign hw _ _ _ => exact steps_assign s _ (.inl hw)
  | declarePosition hw _ _ => exact steps_declarePosition s (.inl hw)
  | resume _ _ =>
    refine .trans (.trans ?_ (Ev.steps_arbitrateFor _ _)) (Ev.steps_needTest _ _)
    exact Ev.steps_updPos_places (Ev.start s) fun _ => ⟨fun l => { l with failed := Nat.zero_le _ }, rfl, rfl⟩
  | timeout n => exact .single (.timeout n)
  | route hfree =>
    exact (Relation.ReflTransGen.single (Prim.route hfree)).tail
      (.quiet ((Quiet.clearDeglitch _ _).trans (.clearDeglitch _ _)))
  | take hbusy hnext =>
    refine .trans (.trans (.trans (.trans (.trans ?_ (Ev.steps_grip _ _)) (Ev.steps_grip _ _)) (Ev.steps_bookPocket _ _))
      (Ev.steps_bookRack _ _)) (Ev.steps_bookSpindle _ _)
    exact .single (.take hbusy (List.mem_of_find?_eq_some hnext))
  | done hw hbusy _ =>
    exact .trans (Ev.steps_retire (Ev.start s) _) (Ev.steps_done _ fun hk => .inr ⟨hw, .inr ⟨_, hbusy, hk, rfl⟩⟩)
  | @fail o missing hw hbusy _ _ =>
    have hsisters : SameSisters s (((Ev.start s).upd (·.retire o.number)).failMoves o missing).st :=
      .trans (.of_pos (State.pos_retire s _)) (Ev.sameSisters_failMoves _ o missing)
    refine .trans (.trans (.trans (.trans (Ev.steps_retire (Ev.start s) _) (Ev.steps_failMoves _ _ _))
      (Ev.steps_failSister _ fun i _ hi => .inr ⟨hw, .inl ?_⟩)) (Ev.steps_failReport _ _ _)) (Ev.steps_failNeed _ _)
    rw [← hsisters o.pos, hi]
    rfl
  | @expiry o hw hbusy =>
    refine .trans (.trans (steps_expiryMoves _ o s) (Ev.steps_expireNotices _ o))
      (Ev.steps_expireSister _ fun i _ hi => .inr ⟨hw, .inl ?_⟩)
    rw [Ev.pos_expireNotices] at hi
    rw [← Ev.sameSisters_expiryMoves o s o.pos]
    exact Option.isSome_iff_exists.mpr ⟨i, hi⟩
  | deliver words =>
    refine .trans ?_ (Ev.steps_foldl (Ev.steps_deliverTo words) _ _)
    exact Steps.quiet (quiet_keepSamples s words)
  | @retry x _ =>
    have hend : ∀ e : Ev, Steps (fun x => w = .anybody ∨ w ≠ .nobody ∧ Given s x) e.st (e.updPos x Position.endHold).st := fun e =>
      e.steps_updPos_places fun _ => ⟨fun l => l.endHold, rfl, rfl⟩
    refine .trans (.trans (.trans ?_ (hend _)) (Ev.steps_upd_quiet _ ?_)) (Ev.steps_needTest _ _)
    · exact Steps.quiet (.setChan _ _ _)
    · exact .restartChannel _ _
  | release hserv =>
    refine .trans ?_ (Ev.steps_needTest _ _)
    refine Ev.steps_updPos (Ev.start s) (fun l => l.release ?_) rfl rfl
    rw [Ev.st_start]
    obtain h | h := hserv <;> simp [h]
  | @reclaim x hserv =>
    have hpos : ∀ e : Ev, (e.st.pos x).service ≠ .held →
        Steps (fun x => w = .anybody ∨ w ≠ .nobody ∧ Given s x) e.st (e.updPos x Position.reclaim).st :=
      fun e he => Ev.steps_updPos e (fun l => l.reclaim he) rfl rfl
    refine .trans (.trans (.trans ?_ (hpos _ ?_)) (Ev.steps_noticeDue _ _)) (Ev.steps_needTest _ _)
    · exact Ev.steps_reclaimOrder (Ev.start s) x
    rw [Ev.service_reclaimOrder]
    show (s.pos x).service ≠ .held
    rw [hserv]
    nofun
  | @verdictOk x _ =>
    refine .trans (.trans (.trans ?_ (Ev.steps_noticeDue _ _)) (Ev.steps_verdictChannel _ _)) (Ev.steps_needTest _ _)
    have hend : Steps (fun x => w = .anybody ∨ w ≠ .nobody ∧ Given s x) s ((Ev.start s).updPos x Position.endHold).st :=
      Ev.steps_updPos_places (Ev.start s) fun _ => ⟨fun l => l.endHold, rfl, rfl⟩
    exact hend.trans (Ev.steps_updPos_places _ fun _ => ⟨fun l => { l with retryCount := Nat.zero_le _ }, rfl, rfl⟩)
  | @verdictBroken x _ =>
    have hbroken : ∀ e : Ev, Steps (fun x => w = .anybody ∨ w ≠ .nobody ∧ Given s x) e.st (e.updPos x Position.broken).st := fun e =>
      e.steps_updPos_places fun _ => ⟨fun l => l.broken, rfl, rfl⟩
    refine .trans (.trans (.trans (.trans (.trans (Ev.steps_breakTool (Ev.start s) x) (hbroken _)) (Ev.steps_notifySlot _ _ _))
      (Ev.steps_makeNeedUrgent _ _)) (Ev.steps_needTest _ _)) (Ev.steps_verdictChannel _ _)
  | @enrol i serial k f pl given hserial hnew htyp hlife _ _ =>
    have hacc : Accounted s (newTool serial k (s.figures k).lnew given) := accounted_newTool htyp hlife
    refine .trans (Ev.steps_putTool (e := Ev.start s) pl (fun st p => ?_) fun x => ?_) (Ev.steps_afterPut _ _ _)
    · exact .single (.enrol hserial hnew fun _ => hacc)
    · exact .single (.enrol hserial hnew fun _ => hacc)
  | @withdraw i t _ _ =>
    exact (Ev.steps_freePlace (Ev.start s) _).tail (.free i)
  | @reinstate i t k pl given htool _ htyp hlife _ =>
    have hleave : Steps (fun x => w = .anybody ∨ w ≠ .nobody ∧ Given s x) s ((Ev.start s).leaveOldPocket t.place pl).st := by
      unfold Ev.leaveOldPocket
      split
      · split
        · exact .refl
        · exact Ev.steps_setPocket (Ev.start s) _ _
      · exact .refl
    have hsame : ((Ev.start s).leaveOldPocket t.place pl).st.tool = s.tool ∧
        ((Ev.start s).leaveOldPocket t.place pl).st.typ = s.typ := by
      unfold Ev.leaveOldPocket
      split
      · split <;> exact ⟨rfl, rfl⟩
      · exact ⟨rfl, rfl⟩
    generalize (Ev.start s).leaveOldPocket t.place pl = e at hleave hsame
    obtain ⟨htools, htypes⟩ := hsame
    have hput : ∀ v : Tool, v.serial = t.serial → (Accounted e.st (t.reinstate k given) → Accounted e.st v) →
        Steps (fun x => w = .anybody ∨ w ≠ .nobody ∧ Given s x) e.st (e.st.setTool i (some v)) := by
      intro v hserial hacc
      have hmap : some v = (e.st.tool i).map fun _ => v := by rw [htools, htool]; rfl
      rw [hmap]
      refine .single (.tool fun u hu => ?_)
      rw [htools, htool] at hu
      obtain rfl := Option.some.inj hu
      refine ⟨hserial, fun _ h => hacc (accounted_reinstate ?_ ?_ h)⟩
      · rw [htypes]; exact htyp
      · rw [State.figures, htypes]; exact hlife
    refine .trans (.trans hleave (Ev.steps_putTool _ (fun st p => hput ((t.reinstate k given).put st p) rfl id)
      fun x => hput ((t.reinstate k given).mount x) rfl ?_))
      (Ev.steps_afterPut _ _ _)
    exact fun ⟨hf, h1, h2, h3, h4, h5, h6, _, _⟩ => ⟨hf, h1, h2, h3, h4, h5, h6, Nat.zero_le _, Nat.zero_le _⟩
  | declarePocket _ => exact Ev.steps_setPocket (Ev.start s) _ _
  | parts x n => exact (Ev.steps_chargeParts (Ev.start s) x _ n).trans (Ev.steps_evalTriggers _ x)
  | dress x d n =>
    exact (((Ev.steps_chargeDresses (Ev.start s) x _ n).trans (Ev.steps_chargeDresses _ d _ n)).trans
      (Ev.steps_evalTriggers _ x)).trans (Ev.steps_evalTriggers _ d)
  | gauge hmounted => exact Ev.steps_gaugeTool (Ev.start s) _ (mountedTool_tool hmounted).1
  | idle => exact .refl

/-! ## Starts -/

theorem Ev.steps_arbitrateStart {C : PosIx → Prop} (e : Ev) : Steps C e.st e.arbitrateStart.st :=
  Ev.steps_foldl (fun e t => e.steps_arbitrate t) _ e

theorem State.ret_heldNotices (s : State) : s.heldNotices.ret = s.ret := by
  unfold State.heldNotices
  have hfold : ∀ (l : List PosIx) (u : State),
      (l.foldl (fun s' x => if (s.pos x).service = .held then s'.notifySlot x .held else s') u).ret = u.ret := by
    intro l
    induction l with
    | nil => exact fun _ => rfl
    | cons x l ih =>
      intro u
      rw [List.foldl_cons, ih]
      split
      · exact State.ret_notifySlot _ _ _
      · rfl
  exact hfold _ s

theorem State.ret_warmNotices (s : State) : s.warmNotices.ret = s.ret := by
  unfold State.warmNotices
  dsimp only
  split
  · rw [State.ret_notify, State.ret_heldNotices, State.ret_notify]
  · rw [State.ret_heldNotices, State.ret_notify]

/-- The state of a warm start before its arbitration. -/
def State.warmed (s : State) (pins : Strap) : State :=
  let t : State := { s.restartVolatile pins with ret := s.ret.warm, lastStart := .warm }
  { t with vol.swapDeadline := t.doubtDeadline }

theorem State.ret_warmed (s : State) (pins : Strap) : (s.warmed pins).ret = s.ret.warm := rfl

/-- A warm start arbitrates and posts from the adjusted state. -/
theorem steps_warmStart (C : PosIx → Prop) (pins : Strap) (s : State) :
    Steps C (s.warmed pins) (Ev.start (s.warmed pins)).arbitrateStart.handOffs.st :=
  (Ev.steps_arbitrateStart (Ev.start (s.warmed pins))).trans (Ev.steps_handOffs _)

theorem State.resetHeld_warmed (s : State) (pins : Strap) : (s.warmed pins).resetHeld = s.resetHeld := by
  unfold State.warmed
  rfl

theorem warmStart_eq (pins : Strap) (s : State) :
    warmStart pins s = (Ev.start (s.warmed pins)).arbitrateStart.handOffs.st.warmNotices.commit.drive := rfl

theorem ret_warmStart (pins : Strap) (s : State) :
    (warmStart pins s).ret = (Ev.start (s.warmed pins)).arbitrateStart.handOffs.st.ret := by
  rw [warmStart_eq, State.ret_commit_drive, State.ret_warmNotices]

theorem ret_coldStart (pins : Strap) (s : State) : (coldStart pins s).ret = Retained.cold := by
  rw [coldStart, State.ret_commit_drive, State.ret_notify, State.ret_notify]

/-- What the changes of `Prim` keep, what depends on retained state alone, and a cold start's state has, every step keeps. -/
theorem Runs.keeps {P : State → Prop} {w : Clearing} {s t : State} (hprim : ∀ {C a b}, Prim C a b → P a → P b)
    (hret : ∀ {a b : State}, b.ret = a.ret → P a → P b) (hcold : ∀ u : State, u.ret = Retained.cold → P u)
    (h : Runs w s t) (hs : P s) : P t := by
  have hsteps : ∀ {C a b}, Steps C a b → P a → P b := fun hab ha => by
    induction hab with
    | refl => exact ha
    | tail _ hp ih => exact hprim hp ih
  refine h.induct hs (fun hc => hret hc.ret) (fun ho ha => ?_) (fun hb ha => ?_) fun pins u => hcold _ (ret_coldStart pins u)
  · exact hret (ret_finish _ _) (hsteps (steps_offerPockets (C := fun _ => False) _ _) (hsteps ho.steps ha))
  · cases hb with
    | silenced h => exact hret h.ret ha
    | @warm u pins hu =>
      have hadjusted : P (u.warmed pins) :=
        hret (State.ret_warmed u pins) (hprim (C := fun _ => False) .warm (hret hu ha))
      exact hret (ret_warmStart pins u) (hsteps (steps_warmStart (fun _ => False) pins u) hadjusted)

end Sys2Proof.Machine

/-! PROOFS. The laws of the single records: routes, serials, figures, positions. -/
namespace Sys2Proof.Machine

/-! ## Changes that leave the records -/

/-- The tables of retained state are the same; its lists may differ. -/
structure SameRecords (s t : State) : Prop where
  types : t.typ = s.typ
  tools : t.tool = s.tool
  pockets : t.pocket = s.pocket
  positions : t.pos = s.pos
  routes : t.route = s.route

theorem SameRecords.of_ret {s t : State} (h : t.ret = s.ret) : SameRecords s t := by
  refine ⟨?_, ?_, ?_, ?_, ?_⟩
  · funext k; rw [State.typ, State.typ, h]
  · funext i; rw [State.tool, State.tool, h]
  · funext k; rw [State.pocket, State.pocket, h]
  · funext x; rw [State.pos, State.pos, h]
  · funext k; rw [State.route, State.route, h]

theorem sameRecords_enqueue (s : State) (o : Order) : SameRecords s (s.enqueue o) := by
  unfold State.enqueue
  split <;> exact ⟨rfl, rfl, rfl, rfl, rfl⟩

theorem sameRecords_dropOrder (s : State) (n : Nat) : SameRecords s (s.dropOrder n) := by
  unfold State.dropOrder State.promote
  split
  · dsimp only
    split
    · exact ⟨rfl, rfl, rfl, rfl, rfl⟩
    · split <;> exact ⟨rfl, rfl, rfl, rfl, rfl⟩
  · exact ⟨rfl, rfl, rfl, rfl, rfl⟩

theorem sameRecords_remember_dropOrder (s : State) (n : Nat) : SameRecords s (State.remember n (s.dropOrder n)) :=
  have h := sameRecords_dropOrder s n
  ⟨h.types, h.tools, h.pockets, h.positions, h.routes⟩

theorem sameRecords_headTaken (s : State) (o : Order) : SameRecords s (s.headTaken o) := ⟨rfl, rfl, rfl, rfl, rfl⟩

theorem sameRecords_hasten (s : State) (i : EntryIx) : SameRecords s (s.hasten i) := ⟨rfl, rfl, rfl, rfl, rfl⟩

theorem sameRecords_replaceOrder (s : State) (n : Nat) (o : Order) : SameRecords s (s.replaceOrder n o) := by
  unfold State.replaceOrder
  split <;> exact ⟨rfl, rfl, rfl, rfl, rfl⟩

theorem sameRecords_joinWaiting (s : State) (x : PosIx) : SameRecords s (s.joinWaiting x) := by
  unfold State.joinWaiting
  dsimp only
  split <;> exact ⟨rfl, rfl, rfl, rfl, rfl⟩

/-- A change is one of a table, or leaves the tables. -/
theorem Prim.cases_records {C : PosIx → Prop} {s t : State} (h : Prim C s t) :
    SameRecords s t ∨
    (∃ k v, t = s.setPocket k v) ∨
    (∃ k r, s.routedElsewhere k r = false ∧ t = s.setRoute k r) ∨
    (∃ k f, (CatalogueLaw s → ∀ r, f = some r → r.InRange) ∧
      ((∃ old new, s.typ k = some old ∧ f = some new ∧ new.lnew = old.lnew) ∨ ∀ i u, s.tool i = some u → u.type ≠ k) ∧
      t = s.setType k f) ∨
    (∃ i f, (∀ u, s.tool i = some u → KeepsAccount s f u) ∧ t = s.setTool i ((s.tool i).map f)) ∨
    (∃ i, t = s.setTool i none) ∨
    (∃ i u, u.serial ≠ 0 ∧ s.serialHeld u.serial = false ∧ (CatalogueLaw s → Accounted s u) ∧ t = s.setTool i (some u)) ∨
    (∃ x p, ((s.pos x).Lawful → p.Lawful) ∧ SameRecords (s.setPos x p) t) ∨
    SameRecords { s with ret := s.ret.warm } t := by
  cases h with
  | quiet h => exact .inl (.of_ret h.ret)
  | pocket k v => exact .inr (.inl ⟨k, v, rfl⟩)
  | timeout n => exact .inl ⟨rfl, rfl, rfl, rfl, rfl⟩
  | route h => exact .inr (.inr (.inl ⟨_, _, h, rfl⟩))
  | typ h g => exact .inr (.inr (.inr (.inl ⟨_, _, h, g, rfl⟩)))
  | tool h => exact .inr (.inr (.inr (.inr (.inl ⟨_, _, h, rfl⟩))))
  | free i => exact .inr (.inr (.inr (.inr (.inr (.inl ⟨i, rfl⟩)))))
  | enrol h g k => exact .inr (.inr (.inr (.inr (.inr (.inr (.inl ⟨_, _, h, g, k, rfl⟩))))))
  | pos h _ _ => exact .inr (.inr (.inr (.inr (.inr (.inr (.inr (.inl ⟨_, _, h, rfl, rfl, rfl, rfl, rfl⟩)))))))
  | settle h _ _ => exact .inr (.inr (.inr (.inr (.inr (.inr (.inr (.inl ⟨_, _, h, rfl, rfl, rfl, rfl, rfl⟩)))))))
  | clear _ =>
    exact .inr (.inr (.inr (.inr (.inr (.inr (.inr (.inl ⟨_, _, fun l => l.noNeed, rfl, rfl, rfl, rfl, rfl⟩)))))))
  | join h _ _ => exact .inr (.inr (.inr (.inr (.inr (.inr (.inr (.inl ⟨_, _, h, sameRecords_joinWaiting _ _⟩)))))))
  | enqueue _ _ => exact .inl (sameRecords_enqueue s _)
  | drop n => exact .inl (sameRecords_dropOrder s n)
  | take _ _ => exact .inl (sameRecords_headTaken s _)
  | hasten i => exact .inl (sameRecords_hasten s i)
  | replace _ _ _ _ => exact .inl (sameRecords_replaceOrder s _ _)
  | expire n => exact .inl (sameRecords_remember_dropOrder s n)
  | warm => exact .inr (.inr (.inr (.inr (.inr (.inr (.inr (.inr ⟨rfl, rfl, rfl, rfl, rfl⟩)))))))

/-! ## Routes (R145) -/

theorem routeLaw_setRoute {s : State} {h : HwSlot} {t : Option Target} (hfree : s.routedElsewhere h t = false)
    (hs : RouteLaw s) : RouteLaw (s.setRoute h t) := by
  have hnone : t.isSome = true → ∀ k, k ≠ h → s.route k ≠ t := by
    intro ht k hk he
    have helse : s.routedElsewhere h t = true := by
      rw [State.routedElsewhere, ht, Bool.true_and, List.any_eq_true]
      exact ⟨k, List.mem_finRange k, by simp [hk, he]⟩
    rw [helse] at hfree
    cases hfree
  intro a b hab ha
  rw [State.route_setRoute, State.route_setRoute] at hab
  rw [State.route_setRoute] at ha
  by_cases hah : h = a <;> by_cases hbh : h = b
  · exact hah.symm.trans hbh
  · rw [if_pos hah, if_neg hbh] at hab
    rw [if_pos hah] at ha
    exact absurd hab.symm (hnone (Option.isSome_iff_ne_none.mpr ha) b (Ne.symm hbh))
  · rw [if_neg hah, if_pos hbh] at hab
    rw [if_neg hah] at ha
    exact absurd hab (hnone (Option.isSome_iff_ne_none.mpr (hab ▸ ha)) a (Ne.symm hah))
  · rw [if_neg hah, if_neg hbh] at hab
    rw [if_neg hah] at ha
    exact hs a b hab ha

theorem RouteLaw.congr {s t : State} (h : RouteLaw s) (hroute : t.route = s.route) : RouteLaw t := by
  unfold RouteLaw
  rw [hroute]
  exact h

theorem Prim.routeLaw {C : PosIx → Prop} {s t : State} (h : Prim C s t) (hs : RouteLaw s) : RouteLaw t := by
  obtain h | ⟨k, v, rfl⟩ | ⟨k, r, hfree, rfl⟩ | ⟨k, f, -, -, rfl⟩ | ⟨i, f, -, rfl⟩ | ⟨i, rfl⟩ | ⟨i, u, -, -, -, rfl⟩ |
    ⟨x, p, -, h⟩ | h := h.cases_records
  · exact hs.congr h.routes
  · exact hs
  · exact routeLaw_setRoute hfree hs
  · exact hs
  · exact hs
  · exact hs
  · exact hs
  · exact RouteLaw.congr (s := s) hs h.routes
  · exact RouteLaw.congr (s := s) hs h.routes

/-! ## Serials (R18) -/

theorem SerialLaw.congr {s t : State} (h : SerialLaw s) (htool : t.tool = s.tool) : SerialLaw t := by
  unfold SerialLaw
  rw [htool]
  exact h

/-- A live entry that keeps its serial, or a free one, leaves the serials lawful. -/
theorem serialLaw_setTool {s : State} {i : EntryIx} {v : Option Tool}
    (hv : ∀ t, v = some t → ∃ u, s.tool i = some u ∧ t.serial = u.serial) (hs : SerialLaw s) :
    SerialLaw (s.setTool i v) := by
  have hold : ∀ j t, (s.setTool i v).tool j = some t → ∃ u, s.tool j = some u ∧ t.serial = u.serial := by
    intro j t ht
    rw [State.tool_setTool] at ht
    split at ht
    · next hij => subst hij; exact hv t ht
    · exact ⟨t, ht, rfl⟩
  refine ⟨fun j t ht => ?_, fun a b t u ha hb he => ?_⟩
  · obtain ⟨u, hu, e⟩ := hold j t ht
    rw [e]
    exact hs.1 j u hu
  · obtain ⟨t', ht', e⟩ := hold a t ha
    obtain ⟨u', hu', e'⟩ := hold b u hb
    exact hs.2 a b t' u' ht' hu' (by rw [← e, he, e'])

theorem serialHeld_false {s : State} {n : Nat} (h : s.serialHeld n = false) {j : EntryIx} {u : Tool}
    (hu : s.tool j = some u) : u.serial ≠ n := by
  intro he
  have hheld : s.serialHeld n = true := by
    rw [State.serialHeld, List.any_eq_true]
    exact ⟨j, List.mem_finRange j, by simp [hu, he]⟩
  rw [hheld] at h
  cases h

theorem serialLaw_enrol {s : State} {i : EntryIx} {t : Tool} (hserial : t.serial ≠ 0)
    (hnew : s.serialHeld t.serial = false) (hs : SerialLaw s) : SerialLaw (s.setTool i (some t)) := by
  refine ⟨fun j u hu => ?_, fun a b u v ha hb he => ?_⟩
  · rw [State.tool_setTool] at hu
    split at hu
    · obtain rfl := Option.some.inj hu
      exact hserial
    · exact hs.1 j u hu
  · rw [State.tool_setTool] at ha hb
    split at ha <;> split at hb
    · next h1 h2 => exact h1.symm.trans h2
    · obtain rfl := Option.some.inj ha
      exact absurd he.symm (serialHeld_false hnew hb)
    · obtain rfl := Option.some.inj hb
      exact absurd he (serialHeld_false hnew ha)
    · exact hs.2 a b u v ha hb he

theorem Prim.serialLaw {C : PosIx → Prop} {s t : State} (h : Prim C s t) (hs : SerialLaw s) : SerialLaw t := by
  obtain h | ⟨k, v, rfl⟩ | ⟨k, r, -, rfl⟩ | ⟨k, f, -, -, rfl⟩ | ⟨i, f, hf, rfl⟩ | ⟨i, rfl⟩ | ⟨i, u, hserial, hnew, -, rfl⟩ |
    ⟨x, p, -, h⟩ | h := h.cases_records
  · exact hs.congr h.tools
  · exact hs
  · exact hs
  · exact hs
  · refine serialLaw_setTool (fun t ht => ?_) hs
    obtain ⟨u, hu, rfl⟩ := Option.map_eq_some_iff.mp ht
    exact ⟨u, hu, (hf u hu).serial⟩
  · exact serialLaw_setTool (fun t ht => nomatch ht) hs
  · exact serialLaw_enrol hserial hnew hs
  · exact SerialLaw.congr (s := s) hs h.tools
  · exact SerialLaw.congr (s := s) hs h.tools

/-! ## Figures (R1 to R6, R22 to R25) -/

/-- The type records and the accounts of the live entries are in range. -/
def FiguresLaw (s : State) : Prop := CatalogueLaw s ∧ AccountLaw s

theorem FiguresLaw.congr {s t : State} (h : FiguresLaw s) (htyp : t.typ = s.typ) (htool : t.tool = s.tool) :
    FiguresLaw t := by
  unfold FiguresLaw CatalogueLaw AccountLaw
  rw [htyp, htool]
  exact h

/-- An entry that is free or has its account in range leaves the figures in range. -/
theorem figuresLaw_setTool {s : State} {i : EntryIx} {v : Option Tool}
    (hv : ∀ t, v = some t → Accounted s t) (hs : FiguresLaw s) : FiguresLaw (s.setTool i v) := by
  refine ⟨hs.1, fun j t ht => ?_⟩
  rw [State.tool_setTool] at ht
  split at ht
  · exact hv t ht
  · exact hs.2 j t ht

theorem figuresLaw_setType {s : State} {k : TypeIx} {f : Option TypeRec}
    (hrange : CatalogueLaw s → ∀ r, f = some r → r.InRange)
    (hkeep : (∃ old new, s.typ k = some old ∧ f = some new ∧ new.lnew = old.lnew) ∨
      ∀ i u, s.tool i = some u → u.type ≠ k) (hs : FiguresLaw s) : FiguresLaw (s.setType k f) := by
  refine ⟨fun j r hr => ?_, fun i u hu => ?_⟩
  · rw [State.typ_setType] at hr
    split at hr
    · exact hrange hs.1 r hr
    · exact hs.1 j r hr
  · obtain ⟨⟨g, hg, hle⟩, hrest⟩ := hs.2 i u hu
    refine ⟨?_, hrest⟩
    by_cases hk : k = u.type
    · obtain ⟨old, new, hold, hnew, hlnew⟩ | hfree := hkeep
      · refine ⟨new, by rw [State.typ_setType, if_pos hk, hnew], ?_⟩
        rw [hk, hg] at hold
        obtain rfl := Option.some.inj hold
        rw [hlnew]
        exact hle
      · exact absurd hk.symm (hfree i u hu)
    · exact ⟨g, by rw [State.typ_setType, if_neg hk, hg], hle⟩

theorem Prim.figuresLaw {C : PosIx → Prop} {s t : State} (h : Prim C s t) (hs : FiguresLaw s) : FiguresLaw t := by
  obtain h | ⟨k, v, rfl⟩ | ⟨k, r, -, rfl⟩ | ⟨k, f, hrange, hkeep, rfl⟩ | ⟨i, f, hf, rfl⟩ | ⟨i, rfl⟩ |
    ⟨i, u, -, -, hacc, rfl⟩ | ⟨x, p, -, h⟩ | h := h.cases_records
  · exact hs.congr h.types h.tools
  · exact hs
  · exact hs
  · exact figuresLaw_setType hrange hkeep hs
  · refine figuresLaw_setTool (fun t ht => ?_) hs
    obtain ⟨u, hu, rfl⟩ := Option.map_eq_some_iff.mp ht
    exact (hf u hu).account hs.1 (hs.2 i u hu)
  · exact figuresLaw_setTool (fun t ht => nomatch ht) hs
  · exact figuresLaw_setTool (fun t ht => by obtain rfl := Option.some.inj ht; exact hacc hs.1) hs
  · exact FiguresLaw.congr (s := s) hs h.types h.tools
  · exact FiguresLaw.congr (s := s) hs h.types h.tools

/-! ## Positions (R74, R92, R130, R160, R167) -/

theorem PositionLaw.congr {s t : State} (h : PositionLaw s) (hpos : t.pos = s.pos) : PositionLaw t := by
  unfold PositionLaw
  rw [hpos]
  exact h

theorem positionLaw_setPos {s : State} {x : PosIx} {p : Position} (hp : p.Lawful) (hs : PositionLaw s) :
    PositionLaw (s.setPos x p) := by
  intro y
  rw [State.pos_setPos]
  split
  · exact hp
  · exact hs y

theorem State.pos_warm (s : State) (x : PosIx) : State.pos { s with ret := s.ret.warm } x = (s.pos x).warm := by
  simp [State.pos, Retained.warm]

theorem Prim.positionLaw {C : PosIx → Prop} {s t : State} (h : Prim C s t) (hs : PositionLaw s) : PositionLaw t := by
  obtain h | ⟨k, v, rfl⟩ | ⟨k, r, -, rfl⟩ | ⟨k, f, -, -, rfl⟩ | ⟨i, f, -, rfl⟩ | ⟨i, rfl⟩ | ⟨i, u, -, -, -, rfl⟩ |
    ⟨x, p, hp, h⟩ | h := h.cases_records
  · exact hs.congr h.positions
  · exact hs
  · exact hs
  · exact hs
  · exact hs
  · exact hs
  · exact hs
  · exact (positionLaw_setPos (hp (hs x)) hs).congr h.positions
  · intro x
    rw [h.positions, State.pos_warm]
    exact (hs x).warm

/-! ## Cold retained state -/

section
variable {s : State}

theorem typ_of_cold (h : s.ret = Retained.cold) (k : TypeIx) : s.typ k = none := by
  simp [State.typ, h, Retained.cold]

theorem tool_of_cold (h : s.ret = Retained.cold) (i : EntryIx) : s.tool i = none := by
  simp [State.tool, h, Retained.cold]

theorem pocket_of_cold (h : s.ret = Retained.cold) (k : PocketIx) : s.pocket k = .free := by
  simp [State.pocket, h, Retained.cold]

theorem route_of_cold (h : s.ret = Retained.cold) (k : HwSlot) : s.route k = none := by
  simp [State.route, h, Retained.cold]

theorem pos_of_cold (h : s.ret = Retained.cold) (x : PosIx) : s.pos x = Position.cold := by
  simp [State.pos, h, Retained.cold]

theorem routeLaw_of_cold (h : s.ret = Retained.cold) : RouteLaw s :=
  fun k _ _ hk => absurd (route_of_cold h k) hk

theorem serialLaw_of_cold (h : s.ret = Retained.cold) : SerialLaw s :=
  ⟨fun i _ ht => (nomatch (tool_of_cold h i).symm.trans ht),
    fun i _ _ _ ht => (nomatch (tool_of_cold h i).symm.trans ht)⟩

theorem figuresLaw_of_cold (h : s.ret = Retained.cold) : FiguresLaw s :=
  ⟨fun k _ hk => (nomatch (typ_of_cold h k).symm.trans hk), fun i _ ht => (nomatch (tool_of_cold h i).symm.trans ht)⟩

theorem lawful_cold : Position.cold.Lawful := by
  constructor <;> simp [Position.cold]

theorem positionLaw_of_cold (h : s.ret = Retained.cold) : PositionLaw s := fun x => by
  rw [pos_of_cold h]
  exact lawful_cold

end

/-! ## The obligations about the records -/

/-- Settles O54: no change but a ROUTE SET's touches a route, and it goes to a free target; a serial enters by an ENROL that
found no live entry with it. -/
theorem routesAndSerialsStayUnique : Obligations.RoutesAndSerialsStayUnique :=
  ⟨fun _ _ hs ht => (step_runs ht).keeps (P := RouteLaw) Prim.routeLaw
      (fun h hs => hs.congr (SameRecords.of_ret h).routes) (fun _ => routeLaw_of_cold) hs,
    fun _ _ hs ht => (step_runs ht).keeps (P := SerialLaw) Prim.serialLaw
      (fun h hs => hs.congr (SameRecords.of_ret h).tools) (fun _ => serialLaw_of_cold) hs⟩

/-- Settles O55: each change of a type record or of an account stays within its table's ranges. -/
theorem figuresStayInRange : Obligations.FiguresStayInRange :=
  fun _ _ hs ht => (step_runs ht).keeps (P := FiguresLaw) Prim.figuresLaw
    (fun h hs => hs.congr (SameRecords.of_ret h).types (SameRecords.of_ret h).tools) (fun _ => figuresLaw_of_cold) hs

/-- Settles O56: each change of a position record keeps it lawful. -/
theorem positionsStayLawful : Obligations.PositionsStayLawful :=
  fun _ _ hs ht => (step_runs ht).keeps (P := PositionLaw) Prim.positionLaw
    (fun h hs x => by rw [(SameRecords.of_ret h).positions]; exact hs x) (fun _ => positionLaw_of_cold) hs

end Sys2Proof.Machine

/-! PROOFS. The laws of the lists: the waiting list, the queue, the backlog and the order numbers. -/
namespace Sys2Proof.Machine

/-! ## Lists in classes -/

/-- An element of class `k` enters a list in class order behind the elements of the classes up to `k`. -/
theorem pairwise_insertClass {α : Type} {f : α → Nat} {p : α → Bool} {k : Nat} (hp : ∀ y, p y = true ↔ f y ≤ k) {x : α}
    (hx : f x = k) {l : List α} (h : l.Pairwise fun a b => f a ≤ f b) :
    (l.takeWhile p ++ x :: l.dropWhile p).Pairwise fun a b => f a ≤ f b := by
  have hbehind : ∀ b ∈ l.dropWhile p, k ≤ f b := by
    intro b hb
    have hsorted := h.sublist (List.dropWhile_sublist p)
    cases hd : l.dropWhile p with
    | nil => rw [hd] at hb; cases hb
    | cons c r =>
      have hc : ¬p c = true := by
        have := List.head_dropWhile_not p (l := l) (by rw [hd]; nofun)
        simpa [hd] using this
      rw [hd] at hb hsorted
      have hck : k < f c := by
        rw [hp] at hc
        omega
      obtain rfl | hbr := List.mem_cons.mp hb
      · omega
      · have := (List.pairwise_cons.mp hsorted).1 b hbr
        omega
  refine List.pairwise_append.mpr ⟨h.sublist (List.takeWhile_sublist p), List.pairwise_cons.mpr ⟨?_, h.sublist
    (List.dropWhile_sublist p)⟩, fun a ha b hb => ?_⟩
  · intro b hb
    rw [hx]
    exact hbehind b hb
  · have hak : f a ≤ k := (hp a).mp (List.mem_takeWhile_imp ha)
    obtain rfl | hbr := List.mem_cons.mp hb
    · omega
    · have := hbehind b hbr
      omega

/-- An element of the last class goes to the tail. -/
theorem pairwise_append_last {α : Type} {f : α → Nat} {x : α} {l : List α} (hlast : ∀ y ∈ l, f y ≤ f x)
    (h : l.Pairwise fun a b => f a ≤ f b) : (l ++ [x]).Pairwise fun a b => f a ≤ f b := by
  refine List.pairwise_append.mpr ⟨h, List.pairwise_singleton _ _, fun a ha b hb => ?_⟩
  obtain rfl := List.mem_singleton.mp hb
  exact hlast a ha

theorem perm_insertClass {α : Type} (p : α → Bool) (x : α) (l : List α) :
    (l.takeWhile p ++ x :: l.dropWhile p).Perm (x :: l) := by
  have h := List.perm_middle (a := x) (l₁ := l.takeWhile p) (l₂ := l.dropWhile p)
  rwa [List.takeWhile_append_dropWhile] at h

/-! ## The waiting list (R103) -/

theorem WaitingLaw.congr {s t : State} (h : WaitingLaw s) (hw : t.ret.waiting = s.ret.waiting)
    (hneed : ∀ x, (t.pos x).need = (s.pos x).need) (hurgent : ∀ x ∈ s.ret.waiting, (t.pos x).urgent = (s.pos x).urgent) :
    WaitingLaw t := by
  obtain ⟨hnodup, hmem, hclass⟩ := h
  refine ⟨hw ▸ hnodup, fun x => ?_, ?_⟩
  · rw [hw, hneed]
    exact hmem x
  · rw [hw]
    refine hclass.imp_of_mem fun {a b} ha hb hab => ?_
    rw [hurgent a ha, hurgent b hb]
    exact hab

/-- A position leaves the waiting list with its need. -/
theorem waitingLaw_leave {s : State} {x : PosIx} {p : Position} (hp : p.need ≠ .waiting) (hs : WaitingLaw s) :
    WaitingLaw { s.setPos x p with ret.waiting := s.ret.waiting.filter (· ≠ x) } := by
  obtain ⟨hnodup, hmem, hclass⟩ := hs
  have hpos : ∀ y, State.pos { s.setPos x p with ret.waiting := s.ret.waiting.filter (· ≠ x) } y =
      if x = y then p else s.pos y := State.pos_setPos s x p
  refine ⟨hnodup.filter _, fun y => ?_, ?_⟩
  · show y ∈ s.ret.waiting.filter (· ≠ x) ↔ _
    rw [List.mem_filter, hpos, hmem]
    split
    · next h => simp [h, hp]
    · next h => simp [Ne.symm h]
  · refine (hclass.filter _).imp_of_mem fun {a b} ha hb hab => ?_
    have hne : ∀ c, c ∈ s.ret.waiting.filter (· ≠ x) → x ≠ c := fun c hc => by
      have := (List.mem_filter.mp hc).2
      simp only [decide_eq_true_eq] at this
      exact Ne.symm this
    rw [hpos, hpos, if_neg (hne a ha), if_neg (hne b hb)]
    exact hab

/-- The class of a position on the waiting list: the urgent ones first. -/
def waitingClass (s : State) (x : PosIx) : Nat := if (s.pos x).urgent then 0 else 1

theorem waitingClass_le {s : State} {x y : PosIx} :
    waitingClass s x ≤ waitingClass s y ↔ ((s.pos y).urgent = true → (s.pos x).urgent = true) := by
  unfold waitingClass
  cases (s.pos x).urgent <;> cases (s.pos y).urgent <;> simp

theorem State.waiting_joinWaiting (s : State) (x : PosIx) :
    (s.joinWaiting x).ret.waiting =
      if (s.pos x).urgent then
        (s.ret.waiting.filter (· ≠ x)).takeWhile (fun y => (s.pos y).urgent) ++
          x :: (s.ret.waiting.filter (· ≠ x)).dropWhile (fun y => (s.pos y).urgent)
      else s.ret.waiting.filter (· ≠ x) ++ [x] := by
  unfold State.joinWaiting
  dsimp only
  split <;> rfl

/-- A position joins the waiting list at the tail of its class. -/
theorem waitingLaw_join {s : State} {x : PosIx} {p : Position} (hp : p.need = .waiting) (hs : WaitingLaw s) :
    WaitingLaw ((s.setPos x p).joinWaiting x) := by
  set m := s.setPos x p with hm
  obtain ⟨hnodup, hmem, hclass⟩ := waitingLaw_leave (x := x) (p := { p with need := .noNeed }) nofun hs
  have hothers : ∀ y ∈ s.ret.waiting.filter (· ≠ x), y ≠ x := fun y hy => by
    have := (List.mem_filter.mp hy).2
    simpa using this
  have hpos : ∀ y, y ≠ x → m.pos y = s.pos y := fun y hy => by rw [hm, State.pos_setPos, if_neg (Ne.symm hy)]
  have hsorted : (s.ret.waiting.filter (· ≠ x)).Pairwise fun a b => waitingClass m a ≤ waitingClass m b := by
    refine (hs.2.2.filter _).imp_of_mem fun {a b} ha hb hab => ?_
    rw [waitingClass_le, hpos a (hothers a ha), hpos b (hothers b hb)]
    exact hab
  have hrec := (sameRecords_joinWaiting m x).positions
  have hperm : (m.joinWaiting x).ret.waiting.Perm (x :: s.ret.waiting.filter (· ≠ x)) := by
    rw [State.waiting_joinWaiting]
    split
    · exact perm_insertClass _ x _
    · exact List.perm_append_singleton x _
  refine ⟨hperm.nodup_iff.mpr (List.nodup_cons.mpr ⟨fun hx => hothers x hx rfl, hnodup⟩), fun y => ?_, ?_⟩
  · rw [hperm.mem_iff, List.mem_cons, hrec]
    by_cases hy : y = x
    · subst hy
      simp [hm, hp]
    · have hyw := hs.2.1 y
      simp [hy, hpos y hy, hyw]
  · have hresult : (m.joinWaiting x).ret.waiting.Pairwise fun a b => waitingClass m a ≤ waitingClass m b := by
      rw [State.waiting_joinWaiting]
      split
      · next hu =>
        refine pairwise_insertClass (k := 0) (fun y => ?_) (by simp [waitingClass, hu]) hsorted
        unfold waitingClass
        cases (m.pos y).urgent <;> simp
      · next hu =>
        refine pairwise_append_last (fun y _ => ?_) hsorted
        unfold waitingClass
        rw [if_neg hu]
        split <;> omega
    refine hresult.imp fun {a b} hab => ?_
    rw [hrec]
    exact waitingClass_le.mp hab

theorem State.waiting_dropOrder (s : State) (n : Nat) : (s.dropOrder n).ret.waiting = s.ret.waiting := by
  unfold State.dropOrder State.promote
  split
  · dsimp only
    split
    · rfl
    · split <;> rfl
  · rfl

/-- The waiting list and the needs and urgent flags of the positions are the same. -/
theorem WaitingLaw.of_same {s t : State} (h : WaitingLaw s) (hw : t.ret.waiting = s.ret.waiting)
    (hrec : SameRecords s t) : WaitingLaw t :=
  h.congr hw (fun x => by rw [hrec.positions]) fun x _ => by rw [hrec.positions]

theorem WaitingLaw.of_ret {s t : State} (hs : WaitingLaw s) (h : t.ret = s.ret) : WaitingLaw t :=
  hs.of_same (by rw [h]) (.of_ret h)

theorem Prim.waitingLaw {C : PosIx → Prop} {s t : State} (h : Prim C s t) (hs : WaitingLaw s) : WaitingLaw t := by
  cases h with
  | quiet h => exact hs.of_ret h.ret
  | pocket k v => exact hs
  | timeout n => exact hs
  | route h => exact hs
  | typ h g => exact hs
  | tool h => exact hs
  | free i => exact hs
  | enrol h g k => exact hs
  | @pos x p _ hneed hurgent =>
    refine hs.congr rfl (fun y => ?_) fun y hy => ?_
    · rw [State.pos_setPos]
      split
      · next h => rw [hneed, h]
      · rfl
    · rw [State.pos_setPos]
      split
      · next h =>
        subst h
        exact hurgent.resolve_right fun hno => hno ((hs.2.1 x).mp hy)
      · rfl
  | settle _ _ hwait => exact waitingLaw_leave hwait hs
  | clear _ => exact waitingLaw_leave nofun hs
  | join _ hneed _ => exact waitingLaw_join hneed hs
  | enqueue _ _ =>
    refine hs.of_same ?_ (sameRecords_enqueue s _)
    unfold State.enqueue
    split <;> rfl
  | drop n => exact hs.of_same (State.waiting_dropOrder s n) (sameRecords_dropOrder s n)
  | take _ _ => exact hs
  | hasten i => exact hs
  | replace _ _ _ _ =>
    refine hs.of_same ?_ (sameRecords_replaceOrder s _ _)
    unfold State.replaceOrder
    split <;> rfl
  | expire n => exact hs.of_same (State.waiting_dropOrder s n) (sameRecords_remember_dropOrder s n)
  | warm => exact hs.congr rfl (fun x => by rw [State.pos_warm]; rfl) fun x _ => by rw [State.pos_warm]; rfl

theorem waitingLaw_of_cold {s : State} (h : s.ret = Retained.cold) : WaitingLaw s := by
  have hw : s.ret.waiting = [] := by rw [h]; rfl
  refine ⟨by rw [hw]; exact List.nodup_nil, fun x => ?_, by rw [hw]; exact List.Pairwise.nil⟩
  rw [hw, pos_of_cold h]
  simp [Position.cold]

theorem Runs.waitingLaw {w : Clearing} {s t : State} (h : Runs w s t) (hs : WaitingLaw s) : WaitingLaw t :=
  h.keeps (P := WaitingLaw) Prim.waitingLaw (fun h hs => hs.of_ret h) (fun _ => waitingLaw_of_cold) hs

/-! ## Numbers (R114) -/

theorem succNumber_range {n : Nat} (_ : 1 ≤ n ∧ n ≤ 65535) : 1 ≤ succNumber n ∧ succNumber n ≤ 65535 := by
  unfold succNumber
  split <;> omega

theorem iterate_succNumber_range {c : Nat} (hc : 1 ≤ c ∧ c ≤ 65535) (k : Nat) :
    1 ≤ succNumber^[k] c ∧ succNumber^[k] c ≤ 65535 := by
  induction k with
  | zero => exact hc
  | succ k ih => rw [Function.iterate_succ_apply']; exact succNumber_range ih

/-- The numbers from the counter on are distinct for a whole turn. -/
theorem iterate_succNumber {c : Nat} (hc : 1 ≤ c ∧ c ≤ 65535) (k : Nat) :
    succNumber^[k] c = (c - 1 + k) % 65535 + 1 := by
  induction k with
  | zero => simp; omega
  | succ k ih =>
    rw [Function.iterate_succ_apply', ih]
    unfold succNumber
    split <;> omega

theorem nextFree_eq (fuel c : Nat) (used : List Nat) :
    ∃ k ≤ fuel, nextFree fuel c used = succNumber^[k] c ∧ (∀ j < k, succNumber^[j] c ∈ used) ∧
      (k = fuel ∨ succNumber^[k] c ∉ used) := by
  induction fuel generalizing c with
  | zero => exact ⟨0, le_rfl, rfl, nofun, .inl rfl⟩
  | succ fuel ih =>
    rw [nextFree]
    split
    · next hc =>
      obtain ⟨k, hk, he, hpassed, hend⟩ := ih (succNumber c)
      refine ⟨k + 1, by omega, he, fun j hj => ?_, ?_⟩
      · cases j with
        | zero => exact hc
        | succ j => exact hpassed j (by omega)
      · exact hend.imp (by omega) id
    · next hc => exact ⟨0, Nat.zero_le _, rfl, nofun, .inr hc⟩

/-- The next number is not in use: a turn of numbers has more than the numbers in use. -/
theorem nextFree_fresh {c : Nat} (hc : 1 ≤ c ∧ c ≤ 65535) {used : List Nat} (hlen : used.length < 65535) :
    nextFree used.length c used ∉ used := by
  obtain ⟨k, hk, he, hpassed, rfl | hend⟩ := nextFree_eq used.length c used
  · rw [he]
    intro hmem
    have hall : ∀ j ∈ Finset.range (used.length + 1), succNumber^[j] c ∈ used.toFinset := by
      intro j hj
      rw [List.mem_toFinset]
      obtain hlt | rfl := Nat.lt_or_eq_of_le (Nat.lt_succ_iff.mp (Finset.mem_range.mp hj))
      · exact hpassed j hlt
      · exact hmem
    obtain ⟨i, hi, j, hj, hij, heq⟩ := Finset.exists_ne_map_eq_of_card_lt_of_maps_to (by
      rw [Finset.card_range]
      exact Nat.lt_succ_of_le (List.toFinset_card_le _)) hall
    rw [iterate_succNumber hc, iterate_succNumber hc] at heq
    have hi' := Finset.mem_range.mp hi
    have hj' := Finset.mem_range.mp hj
    omega
  · rw [he]
    exact hend

theorem nextFree_range {c : Nat} (hc : 1 ≤ c ∧ c ≤ 65535) (fuel : Nat) (used : List Nat) :
    1 ≤ nextFree fuel c used ∧ nextFree fuel c used ≤ 65535 := by
  obtain ⟨k, -, he, -⟩ := nextFree_eq fuel c used
  rw [he]
  exact iterate_succNumber_range hc k

theorem OrderLaw.nextNumber_fresh {s : State} (h : OrderLaw s) :
    s.nextNumber ∉ s.standing.map (·.number) ∧ s.nextNumber ∉ s.ret.expired := by
  have hlen : s.usedNumbers.length < 65535 := by
    have h1 := h.queueSize
    have h2 := h.backlogSize
    have h3 := h.memory
    simp only [State.usedNumbers, State.standing, List.length_append, List.length_map]
    omega
  have hfresh := nextFree_fresh h.counter hlen
  exact ⟨fun hm => hfresh (List.mem_append_left _ hm), fun hm => hfresh (List.mem_append_right _ hm)⟩

theorem OrderLaw.nextNumber_range {s : State} (h : OrderLaw s) : 1 ≤ s.nextNumber ∧ s.nextNumber ≤ 65535 :=
  nextFree_range h.counter _ _

/-! ## Collections in class order (R120) -/

/-- A collection stands in class order, with at most one order TAKEN or IN_DOUBT. -/
structure Classed (q : List Order) : Prop where
  classes : q.Pairwise fun a b => a.rank ≤ b.rank
  oneBusy : q.Pairwise fun a b => ¬(a.busy = true ∧ b.busy = true)

theorem Order.ahead_iff (o : Order) : o.ahead = true ↔ o.rank ≤ 1 := by
  unfold Order.ahead Order.rank
  cases o.busy <;> cases o.urgent <;> simp

theorem Order.rank_le_two (o : Order) : o.rank ≤ 2 := by
  unfold Order.rank
  split
  · omega
  · split <;> omega

theorem perm_insertOrder (o : Order) (q : List Order) : (insertOrder o q).Perm (o :: q) := by
  unfold insertOrder
  split
  · exact perm_insertClass _ o q
  · exact List.perm_append_singleton o q

theorem Classed.insert {q : List Order} (h : Classed q) {o : Order} (ho : o.busy = false) :
    Classed (insertOrder o q) := by
  refine ⟨?_, ?_⟩
  · unfold insertOrder
    split
    · next hu => exact pairwise_insertClass (k := 1) Order.ahead_iff (by simp [Order.rank, ho, hu]) h.classes
    · next hu =>
      refine pairwise_append_last (fun p _ => ?_) h.classes
      have hrank : o.rank = 2 := by simp [Order.rank, ho, hu]
      rw [hrank]
      exact p.rank_le_two
  · have hcons : (o :: q).Pairwise fun a b => ¬(a.busy = true ∧ b.busy = true) :=
      List.pairwise_cons.mpr ⟨fun b _ hb => by simp [ho] at hb, h.oneBusy⟩
    exact ((perm_insertOrder o q).pairwise_iff fun {a b} hab => fun hba => hab hba.symm).mpr hcons

theorem Classed.sublist {q r : List Order} (h : Classed q) (hr : r.Sublist q) : Classed r :=
  ⟨h.classes.sublist hr, h.oneBusy.sublist hr⟩

theorem dropNumber_sublist (n : Nat) (q : List Order) : (dropNumber n q).Sublist q := List.filter_sublist

theorem Classed.drop {q : List Order} (h : Classed q) (n : Nat) : Classed (dropNumber n q) :=
  h.sublist (dropNumber_sublist n q)

/-- A collection is one of its orders and the others. -/
theorem perm_dropNumber {o : Order} {q : List Order} (hq : (q.map (·.number)).Nodup) (ho : o ∈ q) :
    q.Perm (o :: dropNumber o.number q) := by
  induction q with
  | nil => cases ho
  | cons a r ih =>
    rw [List.map_cons, List.nodup_cons] at hq
    obtain ⟨ha, hr⟩ := hq
    obtain rfl | hor := List.mem_cons.mp ho
    · have hrest : dropNumber o.number (o :: r) = r := by
        unfold dropNumber
        rw [List.filter_cons_of_neg (by simp), List.filter_eq_self]
        intro b hb
        simp only [decide_eq_true_eq]
        exact fun he => ha (List.mem_map.mpr ⟨b, hb, he⟩)
      rw [hrest]
    · have hne : a.number ≠ o.number := fun he => ha (List.mem_map.mpr ⟨o, hor, he.symm⟩)
      have hrest : dropNumber o.number (a :: r) = a :: dropNumber o.number r := by
        unfold dropNumber
        rw [List.filter_cons_of_pos (by simpa using hne)]
      rw [hrest]
      exact ((ih hr hor).cons a).trans (.swap o a _)

theorem numbers_dropNumber (n : Nat) (q : List Order) :
    (dropNumber n q).map (·.number) = (q.map (·.number)).filter (· ≠ n) := by
  unfold dropNumber
  rw [List.filter_map]
  rfl

/-- Orders of a collection stand under distinct numbers. -/
theorem eq_of_number_eq {q : List Order} (hq : (q.map (·.number)).Nodup) {a b : Order} (ha : a ∈ q) (hb : b ∈ q)
    (h : a.number = b.number) : a = b :=
  List.inj_on_of_nodup_map hq ha hb h

end Sys2Proof.Machine

/-! PROOFS. Every change keeps the queue, the backlog and the order numbers lawful. -/
namespace Sys2Proof.Machine

/-! ## The law of the orders, over the lists that it reads -/

/-- The law of the orders, over the queue, the backlog, the expired-number memory and the order counter. -/
structure Orders (q b : List Order) (ex : List Nat) (c : Nat) : Prop where
  queueSize : q.length ≤ 16
  backlogSize : b.length ≤ 24
  full : b ≠ [] → q.length = 16
  queueClassed : Classed q
  backlogClassed : Classed b
  ready : ∀ o ∈ q, o.busy = true ∨ o.state = .ready
  backlog : ∀ o ∈ b, o.state = .backlog
  numbers : ((q ++ b).map (·.number)).Nodup
  remembered : ∀ n ∈ ex, n ∉ (q ++ b).map (·.number)
  memory : ex.length ≤ 4
  range : ∀ o ∈ q ++ b, 1 ≤ o.number ∧ o.number ≤ 65535
  counter : 1 ≤ c ∧ c ≤ 65535

/-- No order of a lawful backlog is TAKEN or IN_DOUBT. -/
theorem busy_of_backlog {o : Order} (h : o.state = .backlog) : o.busy = false := by
  simp [Order.busy, h]

theorem busy_of_ready {o : Order} (h : o.state = .ready) : o.busy = false := by
  simp [Order.busy, h]

theorem orderLaw_iff (s : State) : OrderLaw s ↔ Orders s.ret.queue s.ret.backlog s.ret.expired s.ret.counter := by
  constructor
  · intro h
    refine ⟨h.queueSize, h.backlogSize, h.full, ⟨h.queueClasses, h.oneBusy⟩, ⟨h.backlogClasses, ?_⟩, h.ready, h.backlog,
      h.numbers, h.remembered, h.memory, h.range, h.counter⟩
    refine (List.pairwise_of_forall (R := fun _ _ => True) fun _ _ => trivial).imp_of_mem fun {a _} ha _ _ hab => ?_
    rw [busy_of_backlog (h.backlog a ha)] at hab
    cases hab.1
  · intro h
    exact ⟨h.queueSize, h.backlogSize, h.full, h.queueClassed.classes, h.backlogClassed.classes, h.queueClassed.oneBusy,
      h.ready, h.backlog, h.numbers, h.remembered, h.memory, h.range, h.counter⟩

section
variable {q b q' b' : List Order} {ex : List Nat} {c : Nat}

theorem Orders.queueNumbers (h : Orders q b ex c) : (q.map (·.number)).Nodup := by
  have hn := h.numbers
  rw [List.map_append] at hn
  exact hn.of_append_left

theorem Orders.backlogNumbers (h : Orders q b ex c) : (b.map (·.number)).Nodup := by
  have hn := h.numbers
  rw [List.map_append] at hn
  exact hn.of_append_right

theorem Orders.disjoint (h : Orders q b ex c) {o p : Order} (ho : o ∈ q) (hp : p ∈ b) : o.number ≠ p.number := by
  have hn := h.numbers
  rw [List.map_append] at hn
  exact fun he => (List.disjoint_of_nodup_append hn) (List.mem_map_of_mem ho) (he ▸ List.mem_map_of_mem hp)

/-- The numbers of a collection whose orders changed but for one and kept their numbers. -/
theorem Orders.of_numbers (h : Orders q b ex c) (hperm : ((q' ++ b').map (·.number)).Perm ((q ++ b).map (·.number))) :
    ((q' ++ b').map (·.number)).Nodup ∧ (∀ n ∈ ex, n ∉ (q' ++ b').map (·.number)) ∧
      ∀ o ∈ q' ++ b', 1 ≤ o.number ∧ o.number ≤ 65535 := by
  refine ⟨hperm.nodup_iff.mpr h.numbers, fun n hn hm => h.remembered n hn (hperm.mem_iff.mp hm), fun o ho => ?_⟩
  obtain ⟨p, hp, he⟩ := List.mem_map.mp (hperm.mem_iff.mp (List.mem_map_of_mem ho))
  rw [← he]
  exact h.range p hp

/-- The numbers of collections with one more order, of a number that was not in use. -/
theorem Orders.with_number (h : Orders q b ex c) {n : Nat} (hfresh : n ∉ (q ++ b).map (·.number) ∧ n ∉ ex)
    (hrange : 1 ≤ n ∧ n ≤ 65535) {l : List Nat} (hl : l.Sublist ((q ++ b).map (·.number)))
    (hperm : ((q' ++ b').map (·.number)).Perm (n :: l)) :
    ((q' ++ b').map (·.number)).Nodup ∧ (∀ m ∈ ex, m ∉ (q' ++ b').map (·.number)) ∧
      ∀ o ∈ q' ++ b', 1 ≤ o.number ∧ o.number ≤ 65535 := by
  refine ⟨hperm.nodup_iff.mpr (List.nodup_cons.mpr ⟨fun hm => hfresh.1 (hl.subset hm), h.numbers.sublist hl⟩),
    fun m hm hmem => ?_, fun o ho => ?_⟩
  · obtain rfl | hin := List.mem_cons.mp (hperm.mem_iff.mp hmem)
    · exact hfresh.2 hm
    · exact h.remembered m hm (hl.subset hin)
  · obtain he | hin := List.mem_cons.mp (hperm.mem_iff.mp (List.mem_map_of_mem ho))
    · have : o.number = n := he
      rw [this]
      exact hrange
    · obtain ⟨p, hp, he⟩ := List.mem_map.mp (hl.subset hin)
      have : p.number = o.number := he
      rw [← this]
      exact h.range p hp

/-! ## Posting (R114, R120, R121) -/

theorem numbers_insertOrder (o : Order) (l : List Order) :
    ((insertOrder o l).map (·.number)).Perm (o.number :: l.map (·.number)) :=
  (perm_insertOrder o l).map _

theorem length_insertOrder (o : Order) (l : List Order) : (insertOrder o l).length = l.length + 1 :=
  (perm_insertOrder o l).length_eq

/-- A posted order enters the queue. -/
theorem Orders.enterQueue (h : Orders q b ex c) {o : Order} (hroom : q.length < 16)
    (hfresh : o.number ∉ (q ++ b).map (·.number) ∧ o.number ∉ ex) (hrange : 1 ≤ o.number ∧ o.number ≤ 65535)
    (hstate : o.state = .ready) : Orders (insertOrder o q) b ex (succNumber o.number) := by
  have hb : b = [] := by
    by_contra hne
    have := h.full hne
    omega
  have hperm : ((insertOrder o q ++ b).map (·.number)).Perm (o.number :: (q ++ b).map (·.number)) := by
    rw [List.map_append, List.map_append]
    exact (numbers_insertOrder o q).append_right _
  obtain ⟨hnumbers, hremembered, hranges⟩ := h.with_number hfresh hrange (List.Sublist.refl _) hperm
  refine ⟨?_, h.backlogSize, fun hne => absurd hb hne, h.queueClassed.insert (busy_of_ready hstate), h.backlogClassed,
    fun p hp => ?_, h.backlog, hnumbers, hremembered, h.memory, hranges, succNumber_range hrange⟩
  · rw [length_insertOrder]
    omega
  · obtain rfl | hp := mem_insertOrder.mp hp
    · exact .inr hstate
    · exact h.ready p hp

/-- A posted order enters the backlog. -/
theorem Orders.enterBacklog (h : Orders q b ex c) {o : Order} (hqueue : ¬q.length < 16) (hroom : b.length < 24)
    (hfresh : o.number ∉ (q ++ b).map (·.number) ∧ o.number ∉ ex) (hrange : 1 ≤ o.number ∧ o.number ≤ 65535)
    (hstate : o.state = .backlog) : Orders q (insertOrder o b) ex (succNumber o.number) := by
  have hsize := h.queueSize
  have hperm : ((q ++ insertOrder o b).map (·.number)).Perm (o.number :: (q ++ b).map (·.number)) := by
    rw [List.map_append, List.map_append]
    exact ((numbers_insertOrder o b).append_left _).trans List.perm_middle
  obtain ⟨hnumbers, hremembered, hranges⟩ := h.with_number hfresh hrange (List.Sublist.refl _) hperm
  refine ⟨hsize, ?_, fun _ => by omega, h.queueClassed, h.backlogClassed.insert (busy_of_backlog hstate), h.ready,
    fun p hp => ?_, hnumbers, hremembered, h.memory, hranges, succNumber_range hrange⟩
  · rw [length_insertOrder]
    omega
  · obtain rfl | hp := mem_insertOrder.mp hp
    · exact hstate
    · exact h.backlog p hp

/-! ## An order leaves (R121) -/

theorem length_dropNumber {l : List Order} (hl : (l.map (·.number)).Nodup) {o : Order} (ho : o ∈ l) :
    (dropNumber o.number l).length + 1 = l.length :=
  (perm_dropNumber hl ho).length_eq.symm

/-- An order leaves the queue. -/
theorem Orders.leaveQueue (h : Orders q [] ex c) (n : Nat) : Orders (dropNumber n q) [] ex c := by
  have hsub : (dropNumber n q ++ ([] : List Order)).Sublist (q ++ []) := (dropNumber_sublist n q).append (List.Sublist.refl _)
  exact ⟨((dropNumber_sublist n q).length_le).trans h.queueSize, h.backlogSize, nofun, h.queueClassed.drop n,
    h.backlogClassed, fun o ho => h.ready o (mem_dropNumber.mp ho).1, h.backlog, h.numbers.sublist (hsub.map _),
    fun m hm hmem => h.remembered m hm ((hsub.map _).subset hmem), h.memory, fun o ho => h.range o (hsub.subset ho),
    h.counter⟩

/-- An order leaves the queue, and the first of the backlog takes its place. -/
theorem Orders.promote {p : Order} {rest : List Order} (h : Orders q (p :: rest) ex c) {o : Order} (ho : o ∈ q) :
    Orders (insertOrder { p with state := .ready } (dropNumber o.number q)) rest ex c := by
  have hlen := length_dropNumber h.queueNumbers ho
  have hfull := h.full nofun
  have hperm : ((insertOrder { p with state := .ready } (dropNumber o.number q) ++ rest).map (·.number)).Perm
      ((dropNumber o.number q ++ (p :: rest)).map (·.number)) := by
    rw [List.map_append, List.map_append]
    exact ((numbers_insertOrder _ _).append_right _).trans List.perm_middle.symm
  have hsub : ((dropNumber o.number q ++ (p :: rest)).map (·.number)).Sublist ((q ++ (p :: rest)).map (·.number)) :=
    ((dropNumber_sublist _ q).append (List.Sublist.refl _)).map _
  refine ⟨?_, ?_, fun _ => ?_, (h.queueClassed.drop _).insert (busy_of_ready rfl),
    h.backlogClassed.sublist (List.sublist_cons_self p rest), fun r hr => ?_,
    fun r hr => h.backlog r (List.mem_cons_of_mem _ hr), hperm.nodup_iff.mpr (h.numbers.sublist hsub),
    fun m hm hmem => h.remembered m hm (hsub.subset (hperm.mem_iff.mp hmem)), h.memory, fun r hr => ?_, h.counter⟩
  · rw [length_insertOrder]
    omega
  · have := h.backlogSize
    rw [List.length_cons] at this
    omega
  · rw [length_insertOrder]
    omega
  · obtain rfl | hr := mem_insertOrder.mp hr
    · exact .inr rfl
    · exact h.ready r (mem_dropNumber.mp hr).1
  · obtain ⟨a, ha, he⟩ := List.mem_map.mp (hsub.subset (hperm.mem_iff.mp (List.mem_map_of_mem hr)))
    have : a.number = r.number := he
    rw [← this]
    exact h.range a ha

/-- An order leaves the backlog. -/
theorem Orders.leaveBacklog (h : Orders q b ex c) (n : Nat) : Orders q (dropNumber n b) ex c := by
  have hsub : (q ++ dropNumber n b).Sublist (q ++ b) := (List.Sublist.refl _).append (dropNumber_sublist n b)
  refine ⟨h.queueSize, ((dropNumber_sublist n b).length_le).trans h.backlogSize, fun hne => h.full ?_, h.queueClassed,
    h.backlogClassed.drop n, h.ready, fun o ho => h.backlog o (mem_dropNumber.mp ho).1, h.numbers.sublist (hsub.map _),
    fun m hm hmem => h.remembered m hm ((hsub.map _).subset hmem), h.memory, fun o ho => h.range o (hsub.subset ho),
    h.counter⟩
  rintro rfl
  exact hne rfl

/-- What an order's leaving makes of the queue and the backlog. -/
theorem dropOrder_cases (s : State) (n : Nat) :
    (∃ o ∈ s.ret.queue, o.number = n ∧ s.ret.backlog = [] ∧ (s.dropOrder n).ret.queue = dropNumber n s.ret.queue ∧
      (s.dropOrder n).ret.backlog = []) ∨
    (∃ o ∈ s.ret.queue, ∃ p rest, o.number = n ∧ s.ret.backlog = p :: rest ∧
      (s.dropOrder n).ret.queue = (if (dropNumber n s.ret.queue).length < 16 then
        insertOrder { p with state := .ready } (dropNumber n s.ret.queue) else dropNumber n s.ret.queue) ∧
      (s.dropOrder n).ret.backlog = if (dropNumber n s.ret.queue).length < 16 then rest else p :: rest) ∨
    (∀ o ∈ s.ret.queue, o.number ≠ n) ∧ (s.dropOrder n).ret.queue = s.ret.queue ∧
      (s.dropOrder n).ret.backlog = dropNumber n s.ret.backlog := by
  unfold State.dropOrder State.promote queueSize
  split
  · next hany =>
    obtain ⟨o, ho, hn⟩ := List.any_eq_true.mp hany
    rw [decide_eq_true_eq] at hn
    dsimp only
    split
    · next hb => exact .inl ⟨o, ho, hn, hb, rfl, hb⟩
    · next p rest hb =>
      refine .inr (.inl ⟨o, ho, p, rest, hn, hb, ?_⟩)
      split
      · exact ⟨rfl, rfl⟩
      · exact ⟨rfl, hb⟩
  · next hany =>
    refine .inr (.inr ⟨fun o ho hn => hany ?_, rfl, rfl⟩)
    exact List.any_eq_true.mpr ⟨o, ho, decide_eq_true hn⟩

theorem dropOrder_lists (s : State) (n : Nat) :
    (s.dropOrder n).ret.expired = s.ret.expired ∧ (s.dropOrder n).ret.counter = s.ret.counter := by
  unfold State.dropOrder State.promote
  split
  · dsimp only
    split
    · exact ⟨rfl, rfl⟩
    · split <;> exact ⟨rfl, rfl⟩
  · exact ⟨rfl, rfl⟩

/-- An order leaves its collection, and its number goes with it. -/
theorem orderLaw_dropOrder {s : State} (hs : OrderLaw s) (n : Nat) :
    OrderLaw (s.dropOrder n) ∧ n ∉ (s.dropOrder n).standing.map (·.number) := by
  have h := (orderLaw_iff s).mp hs
  obtain ⟨hexpired, hcounter⟩ := dropOrder_lists s n
  rw [orderLaw_iff, State.standing, hexpired, hcounter]
  obtain ⟨o, -, rfl, hb, hq', hb'⟩ | ⟨o, ho, p, rest, rfl, hb, hq', hb'⟩ | ⟨hnone, hq', hb'⟩ := dropOrder_cases s n
  · rw [hq', hb']
    rw [hb] at h
    refine ⟨h.leaveQueue _, ?_⟩
    rw [List.append_nil, numbers_dropNumber, List.mem_filter]
    simp
  · have hlen := length_dropNumber h.queueNumbers ho
    have hsize := h.queueSize
    have hroom : (dropNumber o.number s.ret.queue).length < 16 := by omega
    rw [if_pos hroom] at hq' hb'
    rw [hq', hb']
    rw [hb] at h
    refine ⟨h.promote ho, fun hmem => ?_⟩
    rw [List.map_append, List.mem_append, (numbers_insertOrder _ _).mem_iff, List.mem_cons, numbers_dropNumber,
      List.mem_filter] at hmem
    obtain (he | ⟨-, hne⟩) | hr := hmem
    · exact h.disjoint ho List.mem_cons_self he
    · simp at hne
    · obtain ⟨r, hr, he⟩ := List.mem_map.mp hr
      exact h.disjoint ho (List.mem_cons_of_mem _ hr) he.symm
  · rw [hq', hb']
    refine ⟨h.leaveBacklog n, fun hmem => ?_⟩
    rw [List.map_append, List.mem_append, numbers_dropNumber, List.mem_filter] at hmem
    obtain hm | ⟨-, hne⟩ := hmem
    · obtain ⟨o, ho, he⟩ := List.mem_map.mp hm
      exact hnone o ho he
    · simp at hne

/-! ## An order changes in its collection (R119, R122, R124) -/

/-- The first order becomes TAKEN at the head of the queue. -/
theorem Orders.take (h : Orders q b ex c) {o : Order} (ho : o ∈ q) (hidle : ∀ p ∈ q, p.busy = false) :
    Orders ({ o with state := .taken } :: dropNumber o.number q) b ex c := by
  have hlen := length_dropNumber h.queueNumbers ho
  have hperm : (({ o with state := .taken } :: dropNumber o.number q ++ b).map (·.number)).Perm ((q ++ b).map (·.number)) := by
    have hq : ((o :: dropNumber o.number q).map (·.number)).Perm (q.map (·.number)) :=
      ((perm_dropNumber h.queueNumbers ho).map _).symm
    rw [List.map_append, List.map_append]
    exact hq.append_right _
  obtain ⟨hnumbers, hremembered, hranges⟩ := h.of_numbers hperm
  refine ⟨?_, h.backlogSize, fun hne => ?_, ⟨?_, ?_⟩, h.backlogClassed, fun p hp => ?_, h.backlog, hnumbers, hremembered,
    h.memory, hranges, h.counter⟩
  · have := h.queueSize
    rw [List.length_cons]
    omega
  · have := h.full hne
    rw [List.length_cons]
    omega
  · exact List.pairwise_cons.mpr ⟨fun p _ => by simp [Order.rank, Order.busy], (h.queueClassed.drop _).classes⟩
  · refine List.pairwise_cons.mpr ⟨fun p hp hbusy => ?_, (h.queueClassed.drop _).oneBusy⟩
    rw [hidle p (mem_dropNumber.mp hp).1] at hbusy
    cases hbusy.2
  · obtain rfl | hp := List.mem_cons.mp hp
    · exact .inl rfl
    · exact h.ready p (mem_dropNumber.mp hp).1

/-- An order that is not TAKEN or IN_DOUBT becomes urgent. -/
theorem makeUrgent_cases (i : EntryIx) (l : List Order) :
    makeUrgent (Order.hastens i) l = l ∨
      ∃ o ∈ l, o.busy = false ∧
        makeUrgent (Order.hastens i) l = insertOrder { o with urgent := true } (dropNumber o.number l) := by
  unfold makeUrgent
  split
  · next o ho =>
    have hpick := List.find?_some ho
    simp only [Order.hastens, Bool.and_eq_true, Bool.not_eq_true'] at hpick
    exact .inr ⟨o, List.mem_of_find?_eq_some ho, hpick.1.2, rfl⟩
  · exact .inl rfl

/-- What a change of class leaves of a collection. -/
theorem makeUrgent_keeps (i : EntryIx) {l : List Order} (hl : (l.map (·.number)).Nodup) (hclass : Classed l) :
    Classed (makeUrgent (Order.hastens i) l) ∧
      ((makeUrgent (Order.hastens i) l).map (·.number)).Perm (l.map (·.number)) ∧
      ∀ p ∈ makeUrgent (Order.hastens i) l, ∃ r ∈ l, p.state = r.state := by
  obtain he | ⟨o, ho, hbusy, he⟩ := makeUrgent_cases i l
  · rw [he]
    exact ⟨hclass, .refl _, fun p hp => ⟨p, hp, rfl⟩⟩
  · rw [he]
    have hnumbers : (o.number :: (dropNumber o.number l).map (·.number)).Perm (l.map (·.number)) :=
      ((perm_dropNumber hl ho).map Order.number).symm
    refine ⟨(hclass.drop _).insert hbusy, (numbers_insertOrder _ _).trans hnumbers, fun p hp => ?_⟩
    obtain rfl | hp := mem_insertOrder.mp hp
    · exact ⟨o, ho, rfl⟩
    · exact ⟨p, (mem_dropNumber.mp hp).1, rfl⟩

theorem Orders.hasten (h : Orders q b ex c) (i : EntryIx) :
    Orders (makeUrgent (Order.hastens i) q) (makeUrgent (Order.hastens i) b) ex c := by
  obtain ⟨hqc, hqn, hqs⟩ := makeUrgent_keeps i h.queueNumbers h.queueClassed
  obtain ⟨hbc, hbn, hbs⟩ := makeUrgent_keeps i h.backlogNumbers h.backlogClassed
  have hqlen : (makeUrgent (Order.hastens i) q).length = q.length := by simpa using hqn.length_eq
  have hblen : (makeUrgent (Order.hastens i) b).length = b.length := by simpa using hbn.length_eq
  obtain ⟨hnumbers, hremembered, hranges⟩ := h.of_numbers (q' := makeUrgent (Order.hastens i) q)
    (b' := makeUrgent (Order.hastens i) b) (by
      rw [List.map_append, List.map_append]
      exact hqn.append hbn)
  refine ⟨hqlen ▸ h.queueSize, hblen ▸ h.backlogSize, fun hne => ?_, hqc, hbc, fun p hp => ?_, fun p hp => ?_, hnumbers,
    hremembered, h.memory, hranges, h.counter⟩
  · rw [hqlen]
    refine h.full ?_
    rintro rfl
    exact hne rfl
  · obtain ⟨r, hr, he⟩ := hqs p hp
    rw [Order.busy, he]
    exact h.ready r hr
  · obtain ⟨r, hr, he⟩ := hbs p hp
    rw [he]
    exact h.backlog r hr

/-- An order takes the place of another in the queue. -/
theorem Orders.replaceQueue (h : Orders q b ex c) {o p : Order} (hp : p ∈ q)
    (hfresh : o.number ∉ (q ++ b).map (·.number) ∧ o.number ∉ ex) (hrange : 1 ≤ o.number ∧ o.number ≤ 65535)
    (hstate : o.state = .ready) : Orders (insertOrder o (dropNumber p.number q)) b ex (succNumber o.number) := by
  have hlen := length_dropNumber h.queueNumbers hp
  have hperm : ((insertOrder o (dropNumber p.number q) ++ b).map (·.number)).Perm
      (o.number :: (dropNumber p.number q ++ b).map (·.number)) := by
    rw [List.map_append, List.map_append]
    exact (numbers_insertOrder o _).append_right _
  have hsub : ((dropNumber p.number q ++ b).map (·.number)).Sublist ((q ++ b).map (·.number)) :=
    ((dropNumber_sublist _ q).append (List.Sublist.refl _)).map _
  obtain ⟨hnumbers, hremembered, hranges⟩ := h.with_number hfresh hrange hsub hperm
  refine ⟨?_, h.backlogSize, fun hne => ?_, (h.queueClassed.drop _).insert (busy_of_ready hstate), h.backlogClassed,
    fun r hr => ?_, h.backlog, hnumbers, hremembered, h.memory, hranges, succNumber_range hrange⟩
  · have := h.queueSize
    rw [length_insertOrder]
    omega
  · have := h.full hne
    rw [length_insertOrder]
    omega
  · obtain rfl | hr := mem_insertOrder.mp hr
    · exact .inr hstate
    · exact h.ready r (mem_dropNumber.mp hr).1

/-- An order takes the place of another in the backlog. -/
theorem Orders.replaceBacklog (h : Orders q b ex c) {o p : Order} (hp : p ∈ b)
    (hfresh : o.number ∉ (q ++ b).map (·.number) ∧ o.number ∉ ex) (hrange : 1 ≤ o.number ∧ o.number ≤ 65535)
    (hstate : o.state = .backlog) : Orders q (insertOrder o (dropNumber p.number b)) ex (succNumber o.number) := by
  have hlen := length_dropNumber h.backlogNumbers hp
  have hperm : ((q ++ insertOrder o (dropNumber p.number b)).map (·.number)).Perm
      (o.number :: (q ++ dropNumber p.number b).map (·.number)) := by
    rw [List.map_append, List.map_append]
    exact ((numbers_insertOrder o _).append_left _).trans List.perm_middle
  have hsub : ((q ++ dropNumber p.number b).map (·.number)).Sublist ((q ++ b).map (·.number)) :=
    ((List.Sublist.refl _).append (dropNumber_sublist _ b)).map _
  obtain ⟨hnumbers, hremembered, hranges⟩ := h.with_number hfresh hrange hsub hperm
  refine ⟨h.queueSize, ?_, fun _ => h.full (List.ne_nil_of_mem hp), h.queueClassed,
    (h.backlogClassed.drop _).insert (busy_of_backlog hstate), h.ready, fun r hr => ?_, hnumbers, hremembered, h.memory,
    hranges, succNumber_range hrange⟩
  · have := h.backlogSize
    rw [length_insertOrder]
    omega
  · obtain rfl | hr := mem_insertOrder.mp hr
    · exact hstate
    · exact h.backlog r (mem_dropNumber.mp hr).1

/-- A number that no standing order has is remembered. -/
theorem Orders.remember (h : Orders q b ex c) {n : Nat} (hn : n ∉ (q ++ b).map (·.number)) :
    Orders q b (rememberExpired n ex) c := by
  refine { h with remembered := fun m hm => ?_, memory := ?_ }
  · have hmem : m ∈ ex ++ [n] := (List.drop_sublist _ _).subset hm
    obtain hm | hm := List.mem_append.mp hmem
    · exact h.remembered m hm
    · rw [List.mem_singleton.mp hm]
      exact hn
  · simp only [rememberExpired, List.length_drop, List.length_append, List.length_singleton]
    omega

theorem Order.rank_warm (o : Order) : o.warm.rank = o.rank ∧ o.warm.busy = o.busy := by
  have hbusy : o.warm.busy = o.busy := by
    unfold Order.warm Order.busy
    by_cases h : o.state = .taken <;> simp [h]
  exact ⟨by unfold Order.rank; rw [hbusy]; rfl, hbusy⟩

/-- The adjustment of a warm start. -/
theorem Orders.warm (h : Orders q b ex c) : Orders (q.map Order.warm) b ex c := by
  have hnumbers : (q.map Order.warm ++ b).map (·.number) = (q ++ b).map (·.number) := by
    rw [List.map_append, List.map_append, List.map_map]
    rfl
  obtain ⟨h1, h2, h3⟩ := h.of_numbers (q' := q.map Order.warm) (b' := b) (by rw [hnumbers])
  refine ⟨by rw [List.length_map]; exact h.queueSize, h.backlogSize, fun hne => by rw [List.length_map]; exact h.full hne,
    ⟨?_, ?_⟩, h.backlogClassed, fun p hp => ?_, h.backlog, h1, h2, h.memory, h3, h.counter⟩
  · refine List.pairwise_map.mpr (h.queueClassed.classes.imp fun {a b} hab => ?_)
    rw [a.rank_warm.1, b.rank_warm.1]
    exact hab
  · refine List.pairwise_map.mpr (h.queueClassed.oneBusy.imp fun {a b} hab => ?_)
    rw [a.rank_warm.2, b.rank_warm.2]
    exact hab
  · obtain ⟨r, hr, rfl⟩ := List.mem_map.mp hp
    rw [r.rank_warm.2]
    refine (h.ready r hr).imp_right fun hready => ?_
    unfold Order.warm
    simp [hready]

end

/-! ## Every change -/

theorem OrderLaw.of_ret {s t : State} (h : OrderLaw s) (hq : t.ret.queue = s.ret.queue)
    (hb : t.ret.backlog = s.ret.backlog) (hx : t.ret.expired = s.ret.expired) (hc : t.ret.counter = s.ret.counter) :
    OrderLaw t := by
  rw [orderLaw_iff, hq, hb, hx, hc]
  exact (orderLaw_iff s).mp h

theorem orderLaw_enqueue {s : State} {o : Order} (hroom : s.hasRoom = true) (hnumber : o.number = s.nextNumber)
    (hs : OrderLaw s) : OrderLaw (s.enqueue o) := by
  have h := (orderLaw_iff s).mp hs
  have hfresh := hs.nextNumber_fresh
  have hrange := hs.nextNumber_range
  rw [← hnumber] at hfresh hrange
  rw [orderLaw_iff]
  rw [State.hasRoom, Bool.or_eq_true, decide_eq_true_eq, decide_eq_true_eq] at hroom
  unfold State.enqueue queueSize
  split
  · next hq => exact h.enterQueue (o := { o with state := .ready }) hq hfresh hrange rfl
  · next hq =>
    exact h.enterBacklog (o := { o with state := .backlog }) hq (hroom.resolve_left hq) hfresh hrange rfl

theorem orderLaw_replaceOrder {s : State} {stage o : Order} (hstage : stage ∈ s.standing)
    (hnumber : o.number = s.nextNumber)
    (hstate : o.state = if s.ret.queue.any fun q => decide (q.number = stage.number) then .ready else .backlog)
    (hs : OrderLaw s) : OrderLaw (s.replaceOrder stage.number o) := by
  have h := (orderLaw_iff s).mp hs
  have hfresh := hs.nextNumber_fresh
  have hrange := hs.nextNumber_range
  rw [← hnumber] at hfresh hrange
  rw [orderLaw_iff]
  unfold State.replaceOrder
  split
  · next hany =>
    obtain ⟨p, hp, hn⟩ := List.any_eq_true.mp hany
    rw [decide_eq_true_eq] at hn
    rw [← hn]
    exact h.replaceQueue hp hfresh hrange (by rw [hstate, if_pos hany])
  · next hany =>
    have hbacklog : stage ∈ s.ret.backlog := by
      refine (List.mem_append.mp hstage).resolve_left fun hq => hany ?_
      exact List.any_eq_true.mpr ⟨stage, hq, decide_eq_true rfl⟩
    exact h.replaceBacklog hbacklog hfresh hrange (by rw [hstate, if_neg hany])

theorem busyOrder_none {s : State} (h : s.busyOrder = none) : ∀ o ∈ s.ret.queue, o.busy = false := by
  intro o ho
  simpa using List.find?_eq_none.mp h o ho

theorem Prim.orderLaw {C : PosIx → Prop} {s t : State} (h : Prim C s t) (hs : OrderLaw s) : OrderLaw t := by
  cases h with
  | quiet h => exact hs.of_ret (by rw [h.ret]) (by rw [h.ret]) (by rw [h.ret]) (by rw [h.ret])
  | pocket k v => exact hs.of_ret rfl rfl rfl rfl
  | timeout n => exact hs.of_ret rfl rfl rfl rfl
  | route h => exact hs.of_ret rfl rfl rfl rfl
  | typ h g => exact hs.of_ret rfl rfl rfl rfl
  | tool h => exact hs.of_ret rfl rfl rfl rfl
  | free i => exact hs.of_ret rfl rfl rfl rfl
  | enrol h g k => exact hs.of_ret rfl rfl rfl rfl
  | pos _ _ _ => exact hs.of_ret rfl rfl rfl rfl
  | settle _ _ _ => exact hs.of_ret rfl rfl rfl rfl
  | clear _ => exact hs.of_ret rfl rfl rfl rfl
  | @join x p _ _ _ =>
    have hlists : ((s.setPos x p).joinWaiting x).ret.queue = s.ret.queue ∧
        ((s.setPos x p).joinWaiting x).ret.backlog = s.ret.backlog ∧
        ((s.setPos x p).joinWaiting x).ret.expired = s.ret.expired ∧
        ((s.setPos x p).joinWaiting x).ret.counter = s.ret.counter := by
      unfold State.joinWaiting
      dsimp only
      split <;> exact ⟨rfl, rfl, rfl, rfl⟩
    obtain ⟨hq, hb, hx, hc⟩ := hlists
    exact hs.of_ret hq hb hx hc
  | enqueue hroom hnumber => exact orderLaw_enqueue hroom hnumber hs
  | drop n => exact (orderLaw_dropOrder hs n).1
  | take hbusy ho => exact (orderLaw_iff _).mpr (((orderLaw_iff s).mp hs).take ho (busyOrder_none hbusy))
  | hasten i => exact (orderLaw_iff _).mpr (((orderLaw_iff s).mp hs).hasten i)
  | replace hstage hnumber _ hstate => exact orderLaw_replaceOrder hstage hnumber hstate hs
  | expire n =>
    obtain ⟨hlaw, hgone⟩ := orderLaw_dropOrder hs n
    exact (orderLaw_iff _).mpr (((orderLaw_iff _).mp hlaw).remember hgone)
  | warm => exact (orderLaw_iff _).mpr ((orderLaw_iff s).mp hs).warm

theorem orderLaw_of_cold {s : State} (h : s.ret = Retained.cold) : OrderLaw s := by
  rw [orderLaw_iff, h]
  constructor <;> simp [Retained.cold]
  all_goals exact ⟨List.Pairwise.nil, List.Pairwise.nil⟩

theorem Runs.orderLaw {w : Clearing} {s t : State} (h : Runs w s t) (hs : OrderLaw s) : OrderLaw t :=
  h.keeps (P := OrderLaw) Prim.orderLaw (fun h hs => hs.of_ret (by rw [h]) (by rw [h]) (by rw [h]) (by rw [h])) (fun _ => orderLaw_of_cold) hs

/-- Settles O59: each change of the queue, the backlog, the counter and the memory keeps their law; a new number is one that
neither an order nor the memory holds. -/
theorem ordersStayLawful : Obligations.OrdersStayLawful := fun _ _ hs ht => (step_runs ht).orderLaw hs

end Sys2Proof.Machine

/-! PROOFS. The order of the waiting list (R103). -/
namespace Sys2Proof.Machine

/-! ## A class of the waiting list -/

/-- The positions of one class of the waiting list, in their order. -/
def waitingOf (s : State) (u : Bool) : List PosIx := s.ret.waiting.filter fun x => decide ((s.pos x).urgent = u)

theorem mem_waitingOf {s : State} {u : Bool} {x : PosIx} :
    x ∈ waitingOf s u ↔ x ∈ s.ret.waiting ∧ (s.pos x).urgent = u := by
  simp [waitingOf]

/-- The list `l` has kept the positions of `a`, but for `moved`, in their order; those that join stand behind them. -/
def Keeps (moved : Option PosIx) (a l : List PosIx) : Prop :=
  ∃ joined, l = a.filter (fun x => decide (x ∈ l ∧ moved ≠ some x)) ++ joined

theorem Keeps.refl (a : List PosIx) : Keeps none a a :=
  ⟨[], by rw [List.append_nil, List.filter_eq_self.mpr]; simp⟩

/-- A position leaves. -/
theorem Keeps.leave {moved : Option PosIx} {a l : List PosIx} (h : Keeps moved a l) (x : PosIx) :
    Keeps moved a (l.filter (· ≠ x)) := by
  obtain ⟨joined, hl⟩ := h
  refine ⟨joined.filter (· ≠ x), ?_⟩
  conv_lhs => rw [hl]
  rw [List.filter_append, List.filter_filter]
  congr 1
  refine List.filter_congr fun y _ => ?_
  by_cases hy : y = x <;> simp [hy]

/-- A position joins that was not there before or is the one that may move. -/
theorem Keeps.join {moved : Option PosIx} {a l : List PosIx} (h : Keeps moved a l) {x : PosIx}
    (hx : x ∈ a → moved = some x) : Keeps moved a (l ++ [x]) := by
  obtain ⟨joined, hl⟩ := h
  refine ⟨joined ++ [x], ?_⟩
  conv_lhs => rw [hl]
  rw [List.append_assoc]
  congr 1
  refine List.filter_congr fun y hy => ?_
  by_cases he : y = x
  · subst he
    simp [hx hy]
  · simp [he]

/-- A position that leaves may be the one that moves. -/
theorem Keeps.cleared {a l : List PosIx} (h : Keeps none a l) (x : PosIx) : Keeps (some x) a (l.filter (· ≠ x)) := by
  obtain ⟨joined, hl⟩ := h.leave x
  refine ⟨joined, ?_⟩
  conv_lhs => rw [hl]
  congr 1
  refine List.filter_congr fun y _ => ?_
  by_cases hy : y = x
  · simp [hy]
  · have hy' : x ≠ y := Ne.symm hy
    simp [hy, hy']

/-! ## Along the changes -/

/-- From `s` to `t` each class of the waiting list keeps its order, but for the position `moved`; a position that was
waiting waits still, no less urgent, or its need is reserved. -/
structure Tracks (moved : Option PosIx) (s t : State) : Prop where
  law : WaitingLaw t
  stays : ∀ x ∈ s.ret.waiting, moved ≠ some x →
    (x ∈ t.ret.waiting ∧ ((s.pos x).urgent = true → (t.pos x).urgent = true)) ∨
      (t.pos x).need ≠ .noNeed ∧ (t.pos x).need ≠ .waiting
  order : ∀ u, Keeps moved (waitingOf s u) (waitingOf t u)

theorem Tracks.refl {s : State} (h : WaitingLaw s) : Tracks none s s :=
  ⟨h, fun _ hx _ => .inl ⟨hx, id⟩, fun _ => .refl _⟩

/-- A change that leaves the waiting list, the needs, and the urgent flags of those who wait. -/
theorem Tracks.same {moved : Option PosIx} {s t v : State} (h : Tracks moved s t) (hlaw : WaitingLaw v)
    (hw : v.ret.waiting = t.ret.waiting) (hneed : ∀ x, (v.pos x).need = (t.pos x).need)
    (hurgent : ∀ x ∈ t.ret.waiting, (v.pos x).urgent = (t.pos x).urgent) : Tracks moved s v := by
  have hclass : ∀ u, waitingOf v u = waitingOf t u := fun u => by
    unfold waitingOf
    rw [hw]
    exact List.filter_congr fun x hx => by rw [hurgent x hx]
  refine ⟨hlaw, fun x hx hm => ?_, fun u => by rw [hclass]; exact h.order u⟩
  rw [hw, hneed]
  exact (h.stays x hx hm).imp_left fun ⟨hin, hu⟩ => ⟨hin, fun he => by rw [hurgent x hin]; exact hu he⟩

theorem Tracks.of_records {moved : Option PosIx} {s t v : State} (h : Tracks moved s t) (hlaw : WaitingLaw v)
    (hw : v.ret.waiting = t.ret.waiting) (hrec : SameRecords t v) : Tracks moved s v :=
  h.same hlaw hw (fun x => by rw [hrec.positions]) fun x _ => by rw [hrec.positions]

/-- The classes after a position has left. -/
theorem waitingOf_leave (t : State) (x : PosIx) (p : Position) (u : Bool) :
    waitingOf { t.setPos x p with ret.waiting := t.ret.waiting.filter (· ≠ x) } u = (waitingOf t u).filter (· ≠ x) := by
  have hpos : ∀ y, State.pos { t.setPos x p with ret.waiting := t.ret.waiting.filter (· ≠ x) } y =
      if x = y then p else t.pos y := State.pos_setPos t x p
  unfold waitingOf
  rw [List.filter_filter, List.filter_filter]
  refine List.filter_congr fun y _ => ?_
  rw [hpos]
  by_cases hy : y = x
  · simp [hy]
  · rw [if_neg (Ne.symm hy), Bool.and_comm]

/-- A need is settled, or cleared where the position was not waiting before or may move. -/
theorem Tracks.leave {moved : Option PosIx} {s t : State} (h : Tracks moved s t) {x : PosIx} {p : Position}
    (hp : p.need ≠ .waiting) (hx : p.need = .noNeed → x ∉ s.ret.waiting ∨ moved = some x) :
    Tracks moved s { t.setPos x p with ret.waiting := t.ret.waiting.filter (· ≠ x) } := by
  refine ⟨waitingLaw_leave hp h.law, fun y hy hm => ?_, fun u => by rw [waitingOf_leave]; exact (h.order u).leave x⟩
  show (y ∈ t.ret.waiting.filter (· ≠ x) ∧ (_ → ((t.setPos x p).pos y).urgent = true)) ∨
    ((t.setPos x p).pos y).need ≠ .noNeed ∧ ((t.setPos x p).pos y).need ≠ .waiting
  rw [State.pos_setPos]
  split
  · next hxy =>
    subst hxy
    exact .inr ⟨fun hno => (hx hno).elim (fun hnot => hnot hy) hm, hp⟩
  · next hxy =>
    refine (h.stays y hy hm).imp_left fun ⟨hin, hu⟩ => ⟨List.mem_filter.mpr ⟨hin, ?_⟩, hu⟩
    simpa using Ne.symm hxy

/-- Behind the urgent positions of a lawful list stands no urgent one. -/
theorem dropWhile_urgent {f : PosIx → Bool} {l : List PosIx} (h : l.Pairwise fun a b => f b = true → f a = true) :
    ∀ y ∈ l.dropWhile f, f y = false := by
  have hsorted := h.sublist (List.dropWhile_sublist f)
  cases hd : l.dropWhile f with
  | nil => nofun
  | cons c r =>
    have hc : f c = false := by
      have := List.head_dropWhile_not f (l := l) (by rw [hd]; nofun)
      simpa [hd] using this
    rw [hd] at hsorted
    intro y hy
    obtain rfl | hr := List.mem_cons.mp hy
    · exact hc
    · have hyc := (List.pairwise_cons.mp hsorted).1 y hr
      cases hfy : f y with
      | false => rfl
      | true => rw [hyc hfy] at hc; cases hc

/-- One class of a lawful list that an urgent element joins. -/
theorem filter_insertUrgent {f : PosIx → Bool} {l : List PosIx} (h : l.Pairwise fun a b => f b = true → f a = true)
    {x : PosIx} (hx : f x = true) (u : Bool) :
    (l.takeWhile f ++ x :: l.dropWhile f).filter (fun y => decide (f y = u)) =
      l.filter (fun y => decide (f y = u)) ++ if u = true then [x] else [] := by
  have hsplit : l.filter (fun y => decide (f y = u)) =
      (l.takeWhile f).filter (fun y => decide (f y = u)) ++ (l.dropWhile f).filter fun y => decide (f y = u) := by
    rw [← List.filter_append, List.takeWhile_append_dropWhile]
  rw [hsplit, List.filter_append, List.append_assoc]
  congr 1
  cases u with
  | true =>
    have hnone : (l.dropWhile f).filter (fun y => decide (f y = true)) = [] :=
      List.filter_eq_nil_iff.mpr fun y hy => by simp [dropWhile_urgent h y hy]
    rw [List.filter_cons_of_pos (by simpa using hx), hnone]
    rfl
  | false => rw [List.filter_cons_of_neg (by simp [hx])]; simp

/-- The classes after a position has joined. -/
theorem waitingOf_join {t : State} (ht : WaitingLaw t) (x : PosIx) (p : Position) (u : Bool) :
    waitingOf ((t.setPos x p).joinWaiting x) u =
      (waitingOf t u).filter (· ≠ x) ++ if p.urgent = u then [x] else [] := by
  set m := t.setPos x p with hm
  have hx : m.pos x = p := by rw [hm, State.pos_setPos, if_pos rfl]
  have hothers : ∀ y ∈ t.ret.waiting.filter (· ≠ x), m.pos y = t.pos y := fun y hy => by
    have hyx : y ≠ x := by simpa using (List.mem_filter.mp hy).2
    rw [hm, State.pos_setPos, if_neg (Ne.symm hyx)]
  have hcomm : (t.ret.waiting.filter (· ≠ x)).filter (fun y => decide ((m.pos y).urgent = u)) =
      (waitingOf t u).filter (· ≠ x) := by
    unfold waitingOf
    rw [List.filter_congr fun y hy => by rw [hothers y hy], List.filter_filter, List.filter_filter]
    exact List.filter_congr fun y _ => Bool.and_comm _ _
  have hrec := (sameRecords_joinWaiting m x).positions
  have hlist := State.waiting_joinWaiting m x
  rw [show m.ret.waiting = t.ret.waiting from rfl, hx] at hlist
  rw [← hcomm, waitingOf, hrec, hlist]
  split
  · next hurgent =>
    have hsorted : (t.ret.waiting.filter (· ≠ x)).Pairwise fun a b => (m.pos b).urgent = true → (m.pos a).urgent = true := by
      refine (ht.2.2.filter _).imp_of_mem fun {a b} ha hb hab => ?_
      rw [hothers a ha, hothers b hb]
      exact hab
    rw [filter_insertUrgent (f := fun y => (m.pos y).urgent) hsorted (by rw [hx]; exact hurgent) u, hurgent]
    simp only [eq_comm]
  · next hnormal =>
    rw [List.filter_append, List.filter_singleton, hx]
    congr 1
    by_cases he : p.urgent = u <;> simp [he]

/-- A position joins the list: it had no need, or waits as urgent from now on. -/
theorem Tracks.join {moved : Option PosIx} {s t : State} (h : Tracks moved s t) {x : PosIx} {p : Position}
    (hp : p.need = .waiting)
    (hold : (t.pos x).need = .noNeed ∨ (t.pos x).need = .waiting ∧ (t.pos x).urgent = false ∧ p.urgent = true) :
    Tracks moved s ((t.setPos x p).joinWaiting x) := by
  have hlaw := waitingLaw_join (x := x) hp h.law
  have hpos : ∀ y, ((t.setPos x p).joinWaiting x).pos y = if x = y then p else t.pos y := fun y => by
    rw [(sameRecords_joinWaiting _ x).positions, State.pos_setPos]
  have hnew : ∀ u, p.urgent = u → x ∈ waitingOf s u → moved = some x := by
    intro u hu hx
    obtain ⟨hxs, hxu⟩ := mem_waitingOf.mp hx
    by_contra hm
    obtain ⟨hxt, hle⟩ | ⟨hno, hwait⟩ := h.stays x hxs hm
    · obtain hno | ⟨-, hnormal, hurgent⟩ := hold
      · exact Need.noConfusion (hno.symm.trans ((h.law.2.1 x).mp hxt))
      · rw [hle (by rw [hxu, ← hu, hurgent])] at hnormal
        cases hnormal
    · obtain hn | ⟨hw, -⟩ := hold
      · exact hno hn
      · exact hwait hw
  refine ⟨hlaw, fun y hy hm => ?_, fun u => ?_⟩
  · rw [hpos]
    split
    · next hxy =>
      subst hxy
      refine .inl ⟨(hlaw.2.1 x).mpr (by rw [hpos, if_pos rfl, hp]), fun _ => ?_⟩
      obtain hno | ⟨-, -, hurgent⟩ := hold
      · obtain ⟨hin, -⟩ | ⟨hneed, -⟩ := h.stays x hy hm
        · exact Need.noConfusion (hno.symm.trans ((h.law.2.1 x).mp hin))
        · exact absurd hno hneed
      · exact hurgent
    · next hxy =>
      refine (h.stays y hy hm).imp_left fun ⟨hin, hu⟩ => ⟨?_, hu⟩
      rw [hlaw.2.1, hpos, if_neg hxy]
      exact (h.law.2.1 y).mp hin
  · rw [waitingOf_join h.law x p u]
    split
    · next hu => exact ((h.order u).leave x).join (hnew u hu)
    · rw [List.append_nil]
      exact (h.order u).leave x

/-- One change. -/
theorem Tracks.prim {moved : Option PosIx} {C : PosIx → Prop} {s t v : State}
    (hC : ∀ x, C x → x ∉ s.ret.waiting ∨ moved = some x) (hv : Prim C t v) (h : Tracks moved s t) : Tracks moved s v := by
  have hlaw := hv.waitingLaw h.law
  cases hv with
  | quiet h' => exact h.of_records hlaw (by rw [h'.ret]) (.of_ret h'.ret)
  | pocket k v => exact h.same hlaw rfl (fun _ => rfl) fun _ _ => rfl
  | timeout n => exact h.same hlaw rfl (fun _ => rfl) fun _ _ => rfl
  | route _ => exact h.same hlaw rfl (fun _ => rfl) fun _ _ => rfl
  | typ _ _ => exact h.same hlaw rfl (fun _ => rfl) fun _ _ => rfl
  | tool _ => exact h.same hlaw rfl (fun _ => rfl) fun _ _ => rfl
  | free i => exact h.same hlaw rfl (fun _ => rfl) fun _ _ => rfl
  | enrol _ _ _ => exact h.same hlaw rfl (fun _ => rfl) fun _ _ => rfl
  | @pos x p _ hneed hurgent =>
    refine h.same hlaw rfl (fun y => ?_) fun y hy => ?_
    · rw [State.pos_setPos]
      split
      · next hxy => rw [hneed, hxy]
      · rfl
    · rw [State.pos_setPos]
      split
      · next hxy =>
        subst hxy
        exact hurgent.resolve_right fun hno => hno ((h.law.2.1 x).mp hy)
      · rfl
  | settle _ hneed hwait => exact h.leave hwait fun hno => absurd hno hneed
  | clear hx => exact h.leave nofun fun _ => hC _ hx
  | join _ hneed hold => exact h.join hneed hold
  | enqueue _ _ =>
    refine h.of_records hlaw ?_ (sameRecords_enqueue t _)
    unfold State.enqueue
    split <;> rfl
  | drop n => exact h.of_records hlaw (State.waiting_dropOrder t n) (sameRecords_dropOrder t n)
  | take _ _ => exact h.same hlaw rfl (fun _ => rfl) fun _ _ => rfl
  | hasten i => exact h.same hlaw rfl (fun _ => rfl) fun _ _ => rfl
  | replace _ _ _ _ =>
    refine h.of_records hlaw ?_ (sameRecords_replaceOrder t _ _)
    unfold State.replaceOrder
    split <;> rfl
  | expire n => exact h.of_records hlaw (State.waiting_dropOrder t n) (sameRecords_remember_dropOrder t n)
  | warm => exact h.same hlaw rfl (fun x => by rw [State.pos_warm]; rfl) fun x _ => by rw [State.pos_warm]; rfl

theorem Tracks.steps {moved : Option PosIx} {C : PosIx → Prop} {s t v : State}
    (hC : ∀ x, C x → x ∉ s.ret.waiting ∨ moved = some x) (hv : Steps C t v) (h : Tracks moved s t) : Tracks moved s v := by
  induction hv with
  | refl => exact h
  | tail _ hp ih => exact ih.prim hC hp

/-- The changes that clear no need. -/
theorem Tracks.steps_nobody {moved : Option PosIx} {s t v : State} (hv : Steps (fun _ => False) t v)
    (h : Tracks moved s t) : Tracks moved s v := h.steps (fun _ => nofun) hv

theorem Tracks.quiet {moved : Option PosIx} {s t v : State} (hv : v.ret = t.ret) (h : Tracks moved s t) :
    Tracks moved s v := h.of_records (h.law.of_ret hv) (by rw [hv]) (.of_ret hv)

theorem Tracks.finish {moved : Option PosIx} {s u : State} {e : Ev} (h : Tracks moved s e.st) :
    Tracks moved s (finish u e) := (h.steps_nobody (steps_offerPockets u e)).quiet (ret_finish u e)

theorem Tracks.warmStart {moved : Option PosIx} {s t : State} (pins : Strap) (h : Tracks moved s t) :
    Tracks moved s (warmStart pins t) :=
  ((h.prim (C := fun _ => False) nofun .warm).quiet (State.ret_warmed t pins)).steps_nobody (steps_warmStart _ pins t)
    |>.quiet (ret_warmStart pins t)

/-! ## Moves that clear no need -/

theorem Tracks.event_nobody {moved : Option PosIx} {s t : State} {e : Ev} (h : Tracks moved s t) (ho : Own .nobody t e) :
    Tracks moved s (Machine.finish t e) := by
  refine (h.steps ?_ ho.steps).finish
  rintro x (hw | ⟨hw, -⟩)
  · cases hw
  · exact absurd rfl hw

theorem Tracks.moves {moved : Option PosIx} {s t v : State} (hm : Relation.ReflTransGen (Move .nobody) t v)
    (h : Tracks moved s t) : Tracks moved s v := by
  induction hm with
  | refl => exact h
  | tail _ hmove ih =>
    cases hmove with
    | calm hc => exact ih.quiet hc.ret
    | event ho _ => exact ih.event_nobody ho

theorem Tracks.breaks {moved : Option PosIx} {s t v : State} (hb : Break t v) (h : Tracks moved s t) :
    Tracks moved s v := by
  cases hb with
  | silenced hs => exact h.quiet hs.ret
  | warm pins hret => exact (h.quiet hret).warmStart pins

/-- Each class has kept its order, but for the position `moved`. -/
def Ordered (moved : Option PosIx) (s t : State) : Prop := ∀ u, Keeps moved (waitingOf s u) (waitingOf t u)

theorem ordered_of_cold (moved : Option PosIx) (s : State) {t : State} (h : t.ret = Retained.cold) : Ordered moved s t := by
  intro u
  have hnil : waitingOf t u = [] := by
    have hw : t.ret.waiting = [] := by rw [h]; rfl
    rw [waitingOf, hw, List.filter_nil]
  exact ⟨[], by simp [hnil]⟩

theorem Runs.ordered {s t : State} (h : Runs .nobody s t) (hs : WaitingLaw s) : Ordered none s t := by
  cases h with
  | moves hu hv hm =>
    have hcalm := (Tracks.refl hs).quiet hu.ret
    refine (Tracks.moves hm ?_).order
    obtain rfl | hb := hv
    · exact hcalm
    · exact hcalm.breaks hb
  | event hu ho ht => exact ((((Tracks.refl hs).quiet hu.ret).event_nobody ho).quiet ht.ret).order
  | cold pins ht => exact ordered_of_cold _ s (ht.ret.trans (ret_coldStart _ _))

/-! ## The events of an order -/

theorem Given.of_ret {s u : State} (hu : u.ret = s.ret) {x : PosIx} (h : Given u x) : Given s x := by
  unfold Given State.busyOrder State.pos at h ⊢
  rwa [hu] at h

theorem OrderKind.spindle_iff {k : OrderKind} : k.spindle = true ↔ k = .exchange ∨ k = .direct ∨ k = .remove := by
  cases k <;> decide

/-- In a lawful cell the event of an order clears the need of no position that waits. -/
theorem Given.not_waiting {s : State} (hcell : CellLaw s) (hwaiting : WaitingLaw s) (hpos : PositionLaw s) {x : PosIx}
    (h : Given s x) : x ∉ s.ret.waiting := by
  intro hx
  have hneed := (hwaiting.2.1 x).mp hx
  obtain hsister | ⟨o, ho, hkind, rfl⟩ := h
  · rw [(hpos x).waiting hneed] at hsister
    cases hsister
  · have hbusy : o.busy = true := List.find?_some ho
    have hmem : o ∈ s.standing := List.mem_append_left _ (List.mem_of_find?_eq_some ho)
    obtain ⟨hno, -⟩ | ⟨hwait, -⟩ := hcell.exchanges o hmem ⟨hbusy, OrderKind.spindle_iff.mp hkind⟩
    · rw [hneed] at hno
      cases hno
    · exact hwait hneed

/-- An event that is no ASSIGN and no DECLARE keeps each class in its order. -/
theorem Tracks.event {s u : State} {e : Ev} (hcell : CellLaw s) (hwaiting : WaitingLaw s) (hpos : PositionLaw s)
    (hu : u.ret = s.ret) (ho : Own .order u e) : Tracks none s (Machine.finish u e) := by
  refine (((Tracks.refl hwaiting).quiet hu).steps ?_ ho.steps).finish
  rintro x (hw | ⟨-, hgiven⟩)
  · cases hw
  · exact .inl ((hgiven.of_ret hu).not_waiting hcell hwaiting hpos)

theorem Accepted.tracks {p : Port} {s t : State} (hcell : CellLaw s) (hwaiting : WaitingLaw s) (hpos : PositionLaw s)
    (h : Accepted .order p s t) : Tracks none s t := by
  cases h with
  | same => exact .refl hwaiting
  | event ho => exact .event hcell hwaiting hpos rfl ho
  | warm _ => exact (Tracks.refl hwaiting).warmStart _

/-! ## ASSIGN and DECLARE of a position -/

/-- The need of a position that may move becomes NONE. -/
theorem Tracks.cleared {s t : State} (h : Tracks none s t) (x : PosIx) :
    Tracks (some x) s { t.setPos x (t.pos x).noNeed with ret.waiting := t.ret.waiting.filter (· ≠ x) } := by
  refine ⟨waitingLaw_leave nofun h.law, fun y hy hm => ?_, fun u => ?_⟩
  · have hxy : ¬ x = y := fun he => hm (congrArg some he)
    show (y ∈ t.ret.waiting.filter (· ≠ x) ∧ (_ → ((t.setPos x _).pos y).urgent = true)) ∨
      ((t.setPos x _).pos y).need ≠ .noNeed ∧ ((t.setPos x _).pos y).need ≠ .waiting
    rw [State.pos_setPos, if_neg hxy]
    exact (h.stays y hy nofun).imp_left fun ⟨hin, hu⟩ => ⟨List.mem_filter.mpr ⟨hin, by simpa using Ne.symm hxy⟩, hu⟩
  · rw [waitingOf_leave]
    exact (h.order u).cleared x

/-- A position that may move has its need cancelled. -/
theorem Tracks.cancelNeed {s : State} {e : Ev} {x : PosIx} (hx : x ∈ s.ret.waiting) (h : Tracks none s e.st) :
    Tracks (some x) s (e.cancelNeed x).st := by
  have hclear : Tracks (some x) s (e.clearNeed x).st := h.cleared x
  unfold Ev.cancelNeed
  dsimp only
  split
  · next hno =>
    obtain ⟨hin, -⟩ | ⟨hneed, -⟩ := h.stays x hx nofun
    · rw [(h.law.2.1 x).mp hin] at hno
      cases hno
    · exact absurd hno hneed
  · exact hclear
  · exact hclear.steps_nobody (Ev.steps_releaseSister _ _)
  · exact hclear.steps_nobody (Ev.steps_cancelStaging _ _)
  · exact hclear.steps_nobody (Ev.steps_cancelStaged _ _ _)
  · exact hclear

/-- What an accepted ASSIGN or DECLARE leaves: where its position was waiting, that position may move. -/
def TracksBut (x : PosIx) (s t : State) : Prop := ∃ moved, (∀ y, moved = some y → x = y) ∧ Tracks moved s t

/-- An event whose only cleared need is that of `x`. -/
theorem tracksBut_of_needs {s : State} {x : PosIx} (hwaiting : WaitingLaw s) {first last : Ev}
    (hfirst : Steps (fun _ => False) s first.st) (hall : Steps (· = x) s last.st)
    (hlast : Steps (fun _ => False) (first.cancelNeed x).st last.st) : TracksBut x s (finish s last) := by
  by_cases hx : x ∈ s.ret.waiting
  · exact ⟨some x, fun y hy => Option.some.inj hy,
      ((((Tracks.refl hwaiting).steps_nobody hfirst).cancelNeed hx).steps_nobody hlast).finish⟩
  · refine ⟨none, nofun, ((Tracks.refl hwaiting).steps ?_ hall).finish⟩
    rintro y rfl
    exact .inl hx

theorem tracks_assign {s : State} (hwaiting : WaitingLaw s) (x : PosIx) (req : Option TypeIx) :
    TracksBut x s (assignEvent x req s) :=
  tracksBut_of_needs hwaiting (steps_storeRequired _ s x req) (steps_assign s req rfl) (Ev.steps_needTest _ x)

theorem tracks_declarePosition {s : State} (hwaiting : WaitingLaw s) (x : PosIx) :
    TracksBut x s (declarePositionEvent x s) :=
  tracksBut_of_needs (first := Ev.start s) hwaiting .refl (steps_declarePosition s rfl) (Ev.steps_declared _ x _)

/-! ## Every command -/

/-- A served request leaves what its body leaves, but for its reply. -/
theorem serve_ret {p : Port} {code : Nat} {body : Answer} {s t : State} (h : serve p code body s = .next t) :
    t.ret = s.ret ∨ ∃ s' r, body = .ok (s', r) ∧ t.ret = s'.ret := by
  unfold serve at h
  obtain rfl := Host.Outcome.next.inj h
  split_ifs
  · split
    · exact .inl (calm_answer s p _).ret
    · next s' r => exact .inr ⟨s', r, rfl, (calm_answer s' p _).ret⟩
  · exact .inl (calm_endReception s p).ret

theorem asSupervisor_eq_ok {p : Port} {body : Answer} {a : State × List Byte} (h : asSupervisor p body = .ok a) :
    p = .ps ∧ body = .ok a := by
  unfold asSupervisor at h
  split_ifs at h with hp
  exact ⟨hp, h⟩

theorem assign_tracks {p : Port} {v code : Nat} {s t : State} (hwaiting : WaitingLaw s)
    (h : exec (.assign p v code) s = .next t) :
    Tracks none s t ∨ ∃ x, v = x.val ∧ p = .ps ∧ TracksBut x s t := by
  obtain hret | ⟨s', r, hbody, hret⟩ := serve_ret h
  · exact .inl ((Tracks.refl hwaiting).quiet hret)
  · obtain ⟨rfl, hok⟩ := asSupervisor_eq_ok hbody
    unfold assignBody at hok
    split at hok
    · next x req hx _ =>
      split_ifs at hok with _ _ hsame
      · obtain ⟨rfl, -⟩ := Prod.mk.inj (Except.ok.inj hok)
        exact .inl ((Tracks.refl hwaiting).quiet hret)
      · obtain ⟨rfl, -⟩ := Prod.mk.inj (Except.ok.inj hok)
        obtain ⟨moved, hmoved, htracks⟩ := tracks_assign hwaiting x req
        exact .inr ⟨x, (presentOperand_eq_some hx).1.symm, rfl, moved, hmoved, htracks.quiet hret⟩
    · cases hok

theorem declarePosition_tracks {p : Port} {v : Nat} {s t : State} (hwaiting : WaitingLaw s)
    (h : exec (.declarePosition p v) s = .next t) :
    Tracks none s t ∨ ∃ x, v = x.val ∧ p = .ps ∧ TracksBut x s t := by
  obtain hret | ⟨s', r, hbody, hret⟩ := serve_ret h
  · exact .inl ((Tracks.refl hwaiting).quiet hret)
  · obtain ⟨rfl, hok⟩ := asSupervisor_eq_ok hbody
    unfold declarePositionBody at hok
    split at hok
    · cases hok
    · next x hx =>
      split_ifs at hok
      obtain ⟨rfl, -⟩ := Prod.mk.inj (Except.ok.inj hok)
      obtain ⟨moved, hmoved, htracks⟩ := tracks_declarePosition hwaiting x
      exact .inr ⟨x, (presentOperand_eq_some hx).1.symm, rfl, moved, hmoved, htracks.quiet hret⟩

/-- The expiry of a swap deadline that a lawful state has. -/
theorem swapExpiry_tracks {s u : State} (hcell : CellLaw s) (hwaiting : WaitingLaw s) (hpos : PositionLaw s)
    (hu : u.ret = s.ret) : Tracks none s (swapExpiry u) := by
  unfold swapExpiry
  split
  · next ho => exact .event hcell hwaiting hpos hu (.expiry nofun (expiring_busy ho))
  · exact (Tracks.refl hwaiting).quiet hu

theorem takeExpiries_tracks {s : State} (hcell : CellLaw s) (hwaiting : WaitingLaw s) (hpos : PositionLaw s) :
    Tracks none s (takeExpiries s) :=
  .moves (moves_foldl retryExpiry_moves _ _) (swapExpiry_tracks hcell hwaiting hpos (lossExpiry_calm s).ret)

/-- The commands whose events clear no need of a position but by an order. -/
theorem order_allows_cases {c : Instr} (hc : Clearing.order.allows c) :
    isRequest c = true ∨ Clearing.nobody.allows c ∨ c = .swapDeadlineExpiry ∨ c = .millisecondTick := by
  by_cases hrequest : isRequest c = true
  · exact .inl hrequest
  · cases c with
    | swapDeadlineExpiry => exact .inr (.inr (.inl rfl))
    | millisecondTick => exact .inr (.inr (.inr rfl))
    | undecodedRequest p sent => cases hc
    | fetchReply p => exact .inr (.inl trivial)
    | fetchNotices p => exact .inr (.inl trivial)
    | wellFormedFrame words => exact .inr (.inl trivial)
    | malformedFrame how => exact .inr (.inl trivial)
    | lossDeadlineReached => exact .inr (.inl trivial)
    | retryTimerExpiry x => exact .inr (.inl trivial)
    | resetAssert => exact .inr (.inl trivial)
    | resetRelease pins => exact .inr (.inl trivial)
    | powerOnStart pins => exact .inr (.inl trivial)
    | mainSupplyFail => exact .inr (.inl trivial)
    | vbatLowLatch => exact .inr (.inl trivial)
    | _ => exact absurd rfl hrequest

theorem not_order_allows_cases {c : Instr} (hc : ¬ Clearing.order.allows c) :
    (∃ p v code, c = .assign p v code) ∨ (∃ p v, c = .declarePosition p v) ∨ ∃ p sent, c = .undecodedRequest p sent := by
  cases c <;> simp [Clearing.allows] at hc ⊢

/-- A command other than an ASSIGN or a DECLARE keeps each class in its order. -/
theorem ordered_of_exec {c : Instr} {s t : State} (hcell : CellLaw s) (hwaiting : WaitingLaw s) (hpos : PositionLaw s)
    (hc : Clearing.order.allows c) (h : exec c s = .next t) : Ordered none s t := by
  obtain hrequest | hnobody | rfl | rfl := order_allows_cases hc
  · obtain ⟨p, -, -, code, body, hout, hbody⟩ := runRequest_served hrequest hc s
    obtain hret | ⟨s', r, rfl, hret⟩ := serve_ret (hout.symm.trans h)
    · exact ((Tracks.refl hwaiting).quiet hret).order
    · exact (((hbody s' r rfl).tracks hcell hwaiting hpos).quiet hret).order
  · exact (exec_runs hnobody h).ordered hwaiting
  · obtain rfl := Host.Outcome.next.inj h
    split
    · exact (swapExpiry_tracks hcell hwaiting hpos rfl).order
    · exact (Tracks.refl hwaiting).order
  · obtain rfl := Host.Outcome.next.inj h
    split
    · exact ((takeExpiries_tracks hcell hwaiting hpos).quiet (calm_advance _).ret).order
    · exact (Tracks.refl hwaiting).order

/-- The classes in the form of the statement. -/
theorem Keeps.filter_eq {moved : Option PosIx} {s t : State} {u : Bool} (h : Keeps moved (waitingOf s u) (waitingOf t u)) :
    ∃ joined, t.ret.waiting.filter (fun x => decide ((t.pos x).urgent = u)) =
      s.ret.waiting.filter (fun x => decide ((s.pos x).urgent = u ∧ x ∈ t.ret.waiting ∧
        (t.pos x).urgent = u ∧ moved ≠ some x)) ++ joined := by
  obtain ⟨joined, h⟩ := h
  refine ⟨joined, h.trans ?_⟩
  congr 1
  refine Eq.trans (List.filter_filter ..) (List.filter_congr fun x _ => ?_)
  rw [Bool.eq_iff_iff]
  simp only [Bool.and_eq_true, decide_eq_true_eq, mem_waitingOf]
  tauto

/-- Settles O58: the law is kept by every change that a command is made of, and along these changes each class of the list
is tracked, with one position that an ASSIGN or a DECLARE may move. -/
theorem waitingListStaysLawful : Obligations.WaitingListStaysLawful := by
  refine ⟨fun s t hs ht => (step_runs ht).waitingLaw hs, fun c s t hsent ⟨hcell, _, hwaiting, hpos⟩ ht => ?_⟩
  have hstill : Ordered none s t → ∃ moved : Option PosIx,
      (∀ x, moved = some x → (∃ code, c = .assign .ps x.val code) ∨ c = .declarePosition .ps x.val) ∧
      Ordered moved s t := fun h => ⟨none, nofun, h⟩
  suffices hordered : ∃ moved : Option PosIx,
      (∀ x, moved = some x → (∃ code, c = .assign .ps x.val code) ∨ c = .declarePosition .ps x.val) ∧
      Ordered moved s t by
    obtain ⟨moved, hmoved, h⟩ := hordered
    exact ⟨moved, hmoved, fun u => (h u).filter_eq⟩
  by_cases hc : Clearing.order.allows c
  · exact hstill (ordered_of_exec hcell hwaiting hpos hc ht)
  · obtain ⟨p, v, code, rfl⟩ | ⟨p, v, rfl⟩ | ⟨p, sent, rfl⟩ := not_order_allows_cases hc
    · obtain h | ⟨x, rfl, rfl, moved, hmoved, h⟩ := assign_tracks hwaiting ht
      · exact hstill h.order
      · exact ⟨moved, fun y hy => .inl ⟨code, by rw [hmoved y hy]⟩, h.order⟩
    · obtain h | ⟨x, rfl, rfl, moved, hmoved, h⟩ := declarePosition_tracks hwaiting ht
      · exact hstill h.order
      · exact ⟨moved, fun y hy => .inr (by rw [hmoved y hy]), h.order⟩
    · exact absurd rfl (hsent p sent)

end Sys2Proof.Machine

/-! PROOFS. The checks of the requests (R175). -/
namespace Sys2Proof.Machine

/-! ## The operand forms (Table 9-4) -/

theorem slotOperand_none {v : Nat} (h : 3 ≤ v) : slotOperand v = none := by
  unfold slotOperand
  split
  case h_4 => rfl
  all_goals omega

theorem wheelSlotOperand_num {sl : Slot} (h : sl ≠ .d) : wheelSlotOperand sl.num = some sl := by
  cases sl with
  | a => rfl
  | b => rfl
  | d => exact absurd rfl h

theorem wheelSlotOperand_none {v : Nat} (h : 2 ≤ v) : wheelSlotOperand v = none := by
  unfold wheelSlotOperand
  split
  case h_3 => rfl
  all_goals omega

theorem positionOperand_val (x : PosIx) : positionOperand x.val = some x := by
  simp [positionOperand]

theorem entryOperand_val (i : EntryIx) : entryOperand i.val = some i := by
  simp [entryOperand]

theorem entryOperand_none {v : Nat} (h : 64 ≤ v) : entryOperand v = none := by
  simp [entryOperand, h]

theorem pocketOperand_succ (k : PocketIx) : pocketOperand (k.val + 1) = some k := by
  have hk : 1 ≤ k.val + 1 ∧ k.val + 1 ≤ 48 := by omega
  simp [pocketOperand, hk]

theorem pocketOperand_none {v : Nat} (h : v = 0 ∨ 48 < v) : pocketOperand v = none := by
  have hv : ¬ (1 ≤ v ∧ v ≤ 48) := by omega
  simp [pocketOperand, hv]

theorem hwSlotOperand_val (h : HwSlot) : hwSlotOperand h.val = some h := by
  simp [hwSlotOperand]

theorem hwSlotOperand_none {v : Nat} (h : 15 < v) : hwSlotOperand v = none := by
  have hv : ¬ v < 16 := by omega
  simp [hwSlotOperand, hv]

theorem signalOperand_num (g : Signal) : signalOperand g.num = some g := by
  cases g <;> rfl

theorem signalOperand_none {v : Nat} (h : 1 < v) : signalOperand v = none := by
  unfold signalOperand
  split
  case h_3 => rfl
  all_goals omega

theorem modeOperand_num (m : Mode) : modeOperand m.num = some m := by
  cases m <;> rfl

theorem modeOperand_none {v : Nat} (h : 3 < v) : modeOperand v = none := by
  unfold modeOperand
  split
  case h_5 => rfl
  all_goals omega

theorem reasonOperand_none {v : Nat} (h : 2 < v) : reasonOperand v = none := by
  unfold reasonOperand
  split
  case h_4 => rfl
  all_goals omega

theorem lifeOperand_none {mode : Nat} (h : 1 < mode) (r : Nat) : lifeOperand mode r = none := by
  unfold lifeOperand
  split
  case h_3 => rfl
  all_goals omega

theorem presentOperand_val {s : State} {x : PosIx} (h : s.present x = true) : s.presentOperand x.val = some x := by
  simp [State.presentOperand, positionOperand_val, h]

theorem presentOperand_none {s : State} {v : Nat} (h : ∀ x : PosIx, x.val = v → s.present x = false) :
    s.presentOperand v = none := by
  unfold State.presentOperand positionOperand
  by_cases hv : v < 12
  · simp [hv, h ⟨v, hv⟩ rfl]
  · simp [hv]

/-! ## The roles -/

theorem asStation_role {p : Port} (h : p = .pc ∨ p = .ps) (body : Station → Answer) :
    asStation p body = .error .role := by
  obtain rfl | rfl := h <;> rfl

theorem asChanger_role {p : Port} (h : p ≠ .pc) (body : Answer) : asChanger p body = .error .role := if_neg h

theorem asSupervisor_role {p : Port} (h : p ≠ .ps) (body : Answer) : asSupervisor p body = .error .role := if_neg h

/-! ## The station requests -/

theorem Service.consuming_iff (v : Service) : v.consuming = true ↔ v = .serving ∨ v = .due ∨ v = .held := by
  simp [Service.consuming, or_assoc]

theorem Service.not_consuming {v : Service} (h : ¬ (v = .serving ∨ v = .due ∨ v = .held)) : v.consuming = false := by
  rwa [← Service.consuming_iff, Bool.not_eq_true] at h

/-- A refusal of a station request after its slot has been read. -/
theorem serve_station_error {n : Station} {s : State} (hl : s.listening (.station n) = true) {code : Nat} {st : Status}
    {body : Station → Answer} (hbody : body n = .error st) :
    serve (.station n) code (asStation (.station n) body) s = .next (s.answer (.station n) ⟨code, st, []⟩) := by
  rw [show asStation (.station n) body = .error st from hbody, serve_error hl]

theorem partsBody_range {n : Station} {slot k : Nat} {s : State} (h : 2 ≤ slot ∨ k = 0 ∨ 15 < k) :
    partsBody n slot k s = .error .range := by
  unfold partsBody
  split
  · rfl
  · next sl hsl =>
    obtain hslot | hk := h
    · rw [wheelSlotOperand_none hslot] at hsl
      cases hsl
    · exact if_pos hk

theorem dressBody_range {n : Station} {slot k : Nat} {s : State} (h : 2 ≤ slot ∨ k = 0 ∨ 15 < k) :
    dressBody n slot k s = .error .range := by
  unfold dressBody
  split
  · rfl
  · next sl hsl =>
    obtain hslot | hk := h
    · rw [wheelSlotOperand_none hslot] at hsl
      cases hsl
    · exact if_pos hk

theorem gaugeBody_range {n : Station} {slot d : Nat} {s : State} (h : 3 ≤ slot ∨ 1048575 < d) :
    gaugeBody n slot d s = .error .range := by
  unfold gaugeBody
  split
  · rfl
  · next sl hsl =>
    obtain hslot | hd := h
    · rw [slotOperand_none hslot] at hsl
      cases hsl
    · exact if_pos hd

/-- Settles O40: each refusal is one branch of the request's body. -/
theorem stationChecks : Obligations.StationChecks := by
  intro s
  refine ⟨fun p slot n hp hl => ?_, fun n hl => ?_⟩
  · have hrole : ∀ code body, serve p code (asStation p body) s = .next (s.answer p ⟨code, .role, []⟩) := fun code body => by
      rw [asStation_role hp, serve_error hl]
    exact ⟨hrole 1 _, hrole 2 _, hrole 4 _, hrole 5 _, hrole 6 _, hrole 7 _, hrole 8 _, hrole 9 _, hrole 9 _⟩
  · refine ⟨fun slot k h => ⟨?_, ?_⟩, fun slot d h => ?_, fun slot h => ?_, fun sl => ?_⟩
    · exact serve_station_error hl (partsBody_range h)
    · exact serve_station_error hl (dressBody_range h)
    · exact serve_station_error hl (gaugeBody_range h)
    · have hslot := slotOperand_none h
      refine ⟨?_, ?_, ?_, ?_, ?_⟩
      · exact serve_station_error hl (by simp [openBody, hslot])
      · exact serve_station_error hl (by simp [releaseBody, hslot])
      · exact serve_station_error hl (by simp [reclaimBody, hslot])
      · exact serve_station_error hl (by simp [verdictOkBody, hslot])
      · exact serve_station_error hl (by simp [verdictBrokenBody, hslot])
    · have hslot := slotOperand_num sl
      refine ⟨fun k hsl hk1 hk15 => ⟨fun hp => ?_, fun hpd => ?_⟩, fun g hg hp => ?_, fun hp => ⟨?_, ?_⟩, fun hp => ?_,
        fun hp => ?_, fun hp => ?_⟩
      · have hcount : ¬ (k = 0 ∨ maxCount < k) := by unfold maxCount; omega
        exact serve_station_error hl (by simp [partsBody, wheelSlotOperand_num hsl, hcount, Service.not_consuming hp])
      · have hcount : ¬ (k = 0 ∨ maxCount < k) := by unfold maxCount; omega
        replace hpd := hpd.imp Service.not_consuming Service.not_consuming
        refine serve_station_error hl ?_
        simp only [dressBody, wheelSlotOperand_num hsl, hcount, if_false]
        split_ifs with hx hd
        · rfl
        · rfl
        · exact absurd hpd (not_or.mpr ⟨hx, hd⟩)
      · have hlimit : ¬ maxDiameter < g := by unfold maxDiameter; omega
        exact serve_station_error hl (by simp [gaugeBody, hslot, hlimit, Service.not_consuming hp])
      · refine serve_station_error hl ?_
        simp only [openBody, hslot]
        split_ifs with hwindow hservice
        · rfl
        · rfl
        · exact absurd hp (not_or.mpr ⟨hwindow, hservice⟩)
      · refine serve_station_error hl ?_
        simp only [releaseBody, hslot]
        split_ifs with hready
        · obtain ⟨hservice, hwindow⟩ := hready
          rw [← not_or, hwindow] at hp
          exact absurd hservice (hp.resolve_left nofun)
        · rfl
      · exact serve_station_error hl (by simp [reclaimBody, hslot, hp])
      · exact serve_station_error hl (by simp [verdictOkBody, hslot, hp])
      · exact serve_station_error hl (by simp only [verdictBrokenBody, hslot, if_neg hp])

/-! ## TAKE, DONE and FAIL -/

theorem busyOrder_isSome {s : State} (h : ∃ o ∈ s.ret.queue, o.busy = true) : s.busyOrder.isSome = true :=
  List.find?_isSome.mpr h

theorem busyOrder_eq_none {s : State} (h : ∀ o ∈ s.ret.queue, o.busy = false) : s.busyOrder = none :=
  List.find?_eq_none.mpr fun o ho => by simp [h o ho]

theorem nextOrder_eq_none {s : State} (h : ∀ o ∈ s.ret.queue, o.state = .ready → s.present o.pos = false) :
    s.nextOrder = none :=
  List.find?_eq_none.mpr fun o ho => by
    simp only [State.takeable, Bool.and_eq_true, decide_eq_true_eq, not_and, Bool.not_eq_true]
    exact h o ho

theorem reported_eq_none {s : State} {n : Nat}
    (h : ∀ o ∈ s.ret.queue, o.busy = true → o.number ≠ n ∨ s.present o.pos = false) : s.reported n = none := by
  unfold State.reported
  split
  · next o ho =>
    refine if_neg fun ⟨hn, hp⟩ => ?_
    obtain hne | hno := h o (List.mem_of_find?_eq_some ho) (List.find?_some ho :)
    · exact hne hn
    · rw [hp] at hno
      cases hno
  · rfl

theorem reported_busy {s : State} {o : Order} (ho : s.busyOrder = some o) (hp : s.present o.pos = true) :
    s.reported o.number = some o := by
  simp [State.reported, ho, hp]

theorem failBody_range {n r e : Nat} (s : State) (h : n = 0 ∨ 2 < r) : failBody n r e s = .error .range := by
  unfold failBody
  split
  · rfl
  · next hr =>
    obtain hn | hgt := h
    · exact if_pos hn
    · rw [reasonOperand_none hgt] at hr
      cases hr

theorem reasonOperand_some {r : Nat} (h : r ≤ 2) : ∃ m, reasonOperand r = some m := by
  interval_cases r <;> exact ⟨_, rfl⟩

theorem missingOperand_none {o : Order} {e : Nat}
    (h : ∀ i : EntryIx, i.val = e → o.incoming ≠ some i ∧ o.outgoing ≠ some i) : missingOperand o .empty e = none := by
  unfold missingOperand
  dsimp only
  split
  · next i hi =>
    have hval : i.val = e := by
      unfold entryOperand at hi
      split_ifs at hi
      rw [← Option.some.inj hi]
    exact if_neg (by simp [Order.names, h i hval])
  · rfl

theorem serve_changer_error {s : State} (hl : s.listening .pc = true) {code : Nat} {st : Status} {body : Answer}
    (hbody : body = .error st) : serve .pc code (asChanger .pc body) s = .next (s.answer .pc ⟨code, st, []⟩) := by
  rw [hbody]
  exact serve_error hl code st

/-- Settles O41: each refusal is one branch of the request's body. -/
theorem changerChecks : Obligations.ChangerChecks := by
  intro s
  refine ⟨fun p n r e hp hl => ?_, fun hl => ⟨fun h => ?_, fun hfree hnone => ?_, ?_, fun n r e h => ?_, fun n r e hn hr h => ?_,
    fun o e ho hn hp hnames => ?_⟩⟩
  · have hrole : ∀ code body, serve p code (asChanger p body) s = .next (s.answer p ⟨code, .role, []⟩) := fun code body => by
      rw [asChanger_role hp, serve_error hl]
    exact ⟨hrole 16 _, hrole 17 _, hrole 18 _⟩
  · exact serve_changer_error hl (by rw [takeBody, if_pos (busyOrder_isSome h)])
  · refine serve_changer_error hl ?_
    rw [takeBody, busyOrder_eq_none hfree, nextOrder_eq_none hnone]
    rfl
  · exact serve_changer_error hl rfl
  · exact serve_changer_error hl (failBody_range s h)
  · obtain ⟨m, hm⟩ := reasonOperand_some hr
    have hnone := reported_eq_none h
    exact ⟨serve_changer_error hl (by simp [doneBody, hn, hnone, State.notReported]),
      serve_changer_error hl (by simp [failBody, hm, hn, hnone, State.notReported])⟩
  · exact serve_changer_error hl (by
      simp [failBody, show reasonOperand 2 = some .empty from rfl, hn, reported_busy ho hp, missingOperand_none hnames])

end Sys2Proof.Machine

/-! PROOFS. The checks of the catalogue, of the tools and of the other supervisor requests (R8, R30, R33, R36 and others). -/
namespace Sys2Proof.Machine

/-! ## The type flags (Table 9-4) -/

theorem kindOf_eq_wheel_iff (f : TypeSetOperands) : kindOf f = .wheel ↔ f.flags.testBit 0 = false := by
  unfold kindOf
  rw [Nat.testBit_eq_decide_div_mod_eq, pow_zero, Nat.div_one]
  split_ifs with h <;> simp [h]

theorem kindOf_eq (f : TypeSetOperands) : kindOf f = if f.flags.testBit 0 then .dresser else .wheel := by
  unfold kindOf
  rw [Nat.testBit_eq_decide_div_mod_eq, pow_zero, Nat.div_one]
  simp

theorem policyOf_eq (f : TypeSetOperands) : policyOf f = if f.flags.testBit 1 then .mostFirst else .leastFirst := by
  unfold policyOf
  rw [Nat.testBit_eq_decide_div_mod_eq, pow_one]
  simp

theorem givesFactor_eq (f : TypeSetOperands) : givesFactor f = f.flags.testBit 2 := by
  rw [Nat.testBit_eq_decide_div_mod_eq]
  rfl

/-- Table 1-1 and the cross-checks of R2 and R3. -/
theorem typeSetInRange_iff (f : TypeSetOperands) : typeSetInRange f = true ↔
    (20000 ≤ f.dnew ∧ f.dnew ≤ 1000000) ∧ (1 ≤ f.ddiff ∧ f.ddiff ≤ 40000 ∧ f.ddiff + 10000 ≤ f.dnew) ∧ f.dd ≤ 500 ∧
    f.wp ≤ 100 ∧ (f.flags.testBit 0 = true → f.wp = 0) ∧ (1 ≤ f.ppd ∧ f.ppd ≤ 255) ∧
    (f.rchg ≤ 50000 ∧ f.rchg < 5 * f.ddiff) ∧ f.stage ≤ 65535 ∧ f.pmin ≤ 65535 ∧ f.k ≤ 255 ∧ f.z ≤ 50000 ∧
    f.g ≤ 5000 ∧ f.aeLimit ≤ 32767 ∧ f.powerLimit ≤ 32767 ∧ f.blank ≤ 4095 ∧ f.deglitch ≤ 255 ∧
    (f.flags.testBit 2 = true → 500 ≤ f.factor ∧ f.factor ≤ 1500) := by
  have hwear : (f.flags.testBit 0 = false ∨ f.wp = 0) ↔ (f.flags.testBit 0 = true → f.wp = 0) := by
    cases f.flags.testBit 0 <;> simp
  have hfactor : (f.flags.testBit 2 = false ∨ 500 ≤ f.factor ∧ f.factor ≤ 1500) ↔
      (f.flags.testBit 2 = true → 500 ≤ f.factor ∧ f.factor ≤ 1500) := by
    cases f.flags.testBit 2 <;> simp
  have hlayer : decide (f.rchg < layerOfGeometry f) = true ↔ f.rchg < 5 * f.ddiff := decide_eq_true_iff
  simp only [typeSetInRange, hlayer, Bool.and_eq_true, Bool.or_eq_true, decide_eq_true_eq, Bool.not_eq_true',
    kindOf_eq_wheel_iff, givesFactor_eq, hwear, hfactor, and_assoc]

/-! ## Refusals of the supervisor port -/

theorem serve_supervisor_error {s : State} (hl : s.listening .ps = true) {code : Nat} {st : Status} {body : Answer}
    (hbody : body = .error st) : serve .ps code (asSupervisor .ps body) s = .next (s.answer .ps ⟨code, st, []⟩) := by
  rw [hbody]
  exact serve_error hl code st

/-! ## TYPE SET (R8) -/

theorem sameGeometry_iff (f : TypeSetOperands) (old : TypeRec) :
    sameGeometry f old = true ↔ old.kind = kindOf f ∧ old.dnew = f.dnew ∧ old.dscrap = f.dnew - f.ddiff := by
  simp only [sameGeometry, Bool.and_eq_true, decide_eq_true_eq, and_assoc]
  exact ⟨fun ⟨a, b, c⟩ => ⟨a.symm, b.symm, c.symm⟩, fun ⟨a, b, c⟩ => ⟨a.symm, b.symm, c.symm⟩⟩

theorem edits_eq_false {s : State} {k : TypeIx} {f : TypeSetOperands}
    (h : ∀ old, s.typ k = some old → ¬ (old.kind = kindOf f ∧ old.dnew = f.dnew ∧ old.dscrap = f.dnew - f.ddiff)) :
    s.edits k f = false := by
  unfold State.edits
  cases htyp : s.typ k with
  | none => rfl
  | some old =>
    rw [Option.any_some, ← Bool.not_eq_true, sameGeometry_iff]
    exact h old htyp

theorem edits_of_some {s : State} {k : TypeIx} {f : TypeSetOperands} {old : TypeRec} (htyp : s.typ k = some old)
    (h : old.kind = kindOf f ∧ old.dnew = f.dnew ∧ old.dscrap = f.dnew - f.ddiff) : s.edits k f = true := by
  rw [State.edits, htyp, Option.any_some, sameGeometry_iff]
  exact h

theorem typeSetBody_range {code : Nat} {f : TypeSetOperands} (s : State)
    (h : code = 0 ∨ 16 < code ∨ typeSetInRange f = false) : typeSetBody code f s = .error .range := by
  unfold typeSetBody
  rw [← or_assoc] at h
  obtain hcode | hrange := h
  · rw [(typeOperand_eq_none_iff code).mpr hcode]
  · split
    · rfl
    · exact if_pos hrange

/-! ## ENROL (R30) -/

theorem enrolBody_range {serial code kind number mode r : Nat} (s : State)
    (h : serial = 0 ∨ code = 0 ∨ 16 < code ∨ 1 < mode ∨ ∀ pl, placeOperand kind number = some pl → s.reachable pl = false) :
    enrolBody serial code kind number mode r s = .error .range := by
  unfold enrolBody
  split
  · next hcode hplace hmode =>
    obtain h | h | h | h | h := h
    · exact if_pos (.inl h)
    · rw [(typeOperand_eq_none_iff code).mpr (.inl h)] at hcode
      cases hcode
    · rw [(typeOperand_eq_none_iff code).mpr (.inr h)] at hcode
      cases hcode
    · rw [lifeOperand_none h] at hmode
      cases hmode
    · exact if_pos (.inr (.inr (h _ hplace)))
  · rfl

/-- The life that a mode gives, as the tool's R and as the limit of the check. -/
theorem lifeOperand_some {mode : Nat} (h : mode ≤ 1) (r : Nat) :
    ∃ given, lifeOperand mode r = some given ∧ (given = none ↔ mode = 0) ∧ (given.getD 0 = if mode = 1 then r else 0) ∧
      ∀ l, given.getD l = if mode = 0 then l else r := by
  interval_cases mode
  · exact ⟨none, rfl, by simp, rfl, fun _ => rfl⟩
  · exact ⟨some r, rfl, by simp, rfl, fun _ => rfl⟩

/-- The checks of ENROL after those of its operands, in their order, and the effect. -/
theorem enrolBody_operands {serial kind number mode r : Nat} {k : TypeIx} {pl : PutPlace} {given : Option Nat} {s : State}
    (hserial : 1 ≤ serial ∧ serial ≤ 4294967295) (hplace : placeOperand kind number = some pl)
    (hreach : s.reachable pl = true) (hlife : lifeOperand mode r = some given) :
    enrolBody serial (k.val + 1) kind number mode r s =
      match s.typ k with
      | none => .error .state
      | some f =>
        if f.lnew < given.getD 0 ∨ pl.takes f.kind = false then .error .range
        else if s.serialHeld serial then .error .duplicate
        else
          match s.freeEntry with
          | none => .error .full
          | some i =>
            if s.readyForEnrol pl = false then .error .state
            else .ok (enrolEvent i serial k pl given s, (enrolEvent i serial k pl given s).toolRecord i) := by
  have hfirst : ¬ (serial = 0 ∨ 4294967295 < serial ∨ s.reachable pl = false) := by
    rintro (h | h | h)
    · omega
    · omega
    · rw [hreach] at h; cases h
  simp only [enrolBody, typeOperand_succ, hplace, hlife, if_neg hfirst] <;> rfl

theorem serialHeld_iff (s : State) (serial : Nat) :
    s.serialHeld serial = true ↔ ∃ i u, s.tool i = some u ∧ u.serial = serial := by
  simp only [State.serialHeld, allEntries, List.any_eq_true, List.mem_finRange, true_and, Option.any_eq_true,
    decide_eq_true_eq]

theorem freeEntry_eq_none {s : State} (h : ∀ i, s.tool i ≠ none) : s.freeEntry = none :=
  List.find?_eq_none.mpr fun i _ => by simpa [Option.isNone_iff_eq_none] using h i

theorem freeEntry_isSome {s : State} (h : ∃ i, s.tool i = none) : ∃ i, s.freeEntry = some i := by
  obtain ⟨i, hi⟩ := h
  exact Option.isSome_iff_exists.mp (List.find?_isSome.mpr ⟨i, List.mem_finRange i, by simp [hi]⟩)

theorem spindleReady_eq_false {s : State} {x : PosIx}
    (h : (s.pos x).service ≠ .uncertain ∨ ∃ i, (s.pos x).mounted = .entry i) : s.spindleReady x = false := by
  unfold State.spindleReady
  obtain h | ⟨i, hi⟩ := h
  · simp [h]
  · simp [hi]

theorem spindleReady_eq_true {s : State} {x : PosIx} (h : (s.pos x).service = .uncertain)
    (hm : ∀ i, (s.pos x).mounted ≠ .entry i) : s.spindleReady x = true := by
  unfold State.spindleReady
  rw [h]
  split
  · next i hi => exact absurd hi (hm i)
  · rfl

theorem readyForEnrol_eq_false {s : State} {pl : PutPlace}
    (h : match pl with
      | .pocket k => s.pocket k ≠ .free
      | .rack x => (s.pos x).rack ≠ .bare
      | .spindle x => (s.pos x).service ≠ .uncertain ∨ ∃ i, (s.pos x).mounted = .entry i) : s.readyForEnrol pl = false := by
  cases pl with
  | pocket k => exact decide_eq_false h
  | rack x => exact decide_eq_false h
  | spindle x => exact spindleReady_eq_false h

/-! ## REINSTATE (R36) -/

theorem givenType_none {code : Nat} (h : 16 < code) : givenType code = none := by
  rw [givenType, if_neg (by omega), (typeOperand_eq_none_iff code).mpr (.inr h)]
  rfl

theorem reinstateBody_range {entry code kind number mode r : Nat} (s : State)
    (h : 64 ≤ entry ∨ 16 < code ∨ 1 < mode ∨ ∀ pl, placeOperand kind number = some pl → s.reachable pl = false) :
    reinstateBody entry code kind number mode r s = .error .range := by
  unfold reinstateBody
  split
  · next hentry hcode hplace hmode =>
    obtain h | h | h | h := h
    · rw [entryOperand_none h] at hentry
      cases hentry
    · rw [givenType_none h] at hcode
      cases hcode
    · rw [lifeOperand_none h] at hmode
      cases hmode
    · exact if_pos (h _ hplace)
  · rfl

/-- The checks of REINSTATE after those of its operands, in their order, and the effect. -/
theorem reinstateBody_operands {code kind number mode r : Nat} {i : EntryIx} {gt : Option TypeIx} {pl : PutPlace}
    {given : Option Nat} {s : State} (hcode : givenType code = some gt) (hplace : placeOperand kind number = some pl)
    (hreach : s.reachable pl = true) (hlife : lifeOperand mode r = some given) :
    reinstateBody i.val code kind number mode r s =
      match s.tool i with
      | none => .error .state
      | some t =>
        if gt.isSome = true ∧ (s.typ (gt.getD t.type)).isNone = true then .error .state
        else if t.state ≠ .quarantined then .error .state
        else if (gt.getD t.type ≠ t.type ∧ given = none) ∨ (s.figures (gt.getD t.type)).lnew < given.getD 0 ∨
            pl.takes (s.figures (gt.getD t.type)).kind = false then .error .range
        else if s.readyForReinstate i pl = false then .error .state
        else .ok (reinstateEvent i t (gt.getD t.type) pl given s,
          (reinstateEvent i t (gt.getD t.type) pl given s).toolRecord i) := by
  simp only [reinstateBody, entryOperand_val, hcode, hplace, hlife, if_neg (show ¬ s.reachable pl = false by simp [hreach])] <;> rfl

theorem givenType_succ (k : TypeIx) : givenType (k.val + 1) = some (some k) := by
  rw [givenType, if_neg (Nat.succ_ne_zero _), typeOperand_succ]
  rfl

theorem givenType_isSome {code : Nat} (h : code ≤ 16) : ∃ gt, givenType code = some gt := by
  unfold givenType
  split_ifs with h0
  · exact ⟨none, rfl⟩
  · cases hk : typeOperand code with
    | none =>
      rw [typeOperand_eq_none_iff] at hk
      omega
    | some k => exact ⟨some k, rfl⟩

/-- The type code that names a type: its own, or 0 for that of the tool. -/
theorem givenType_of_named {code : Nat} {ty own : TypeIx} (h : code = 0 ∧ ty = own ∨ code = ty.val + 1) :
    ∃ gt, givenType code = some gt ∧ gt.getD own = ty := by
  obtain ⟨rfl, rfl⟩ | rfl := h
  · exact ⟨none, rfl, rfl⟩
  · exact ⟨some ty, givenType_succ ty, rfl⟩

theorem readyForReinstate_eq_false {s : State} {i : EntryIx} {pl : PutPlace}
    (h : match pl with
      | .pocket k => s.pocket k ≠ .free ∧ s.pocket k ≠ .unknown ∧ s.pocket k ≠ .holds i
      | .rack x => (s.pos x).rack ≠ .bare ∧ (s.pos x).rack ≠ .unknown
      | .spindle x => (s.pos x).service ≠ .uncertain ∨ ∃ j, (s.pos x).mounted = .entry j) :
    s.readyForReinstate i pl = false := by
  cases pl with
  | pocket k => simp [State.readyForReinstate, h.1, h.2.1, h.2.2]
  | rack x => simp [State.readyForReinstate, h.1, h.2]
  | spindle x => exact spindleReady_eq_false h

/-! ## WITHDRAW (R33) -/

theorem orderNaming_isNone_iff (s : State) (i : EntryIx) :
    (s.orderNaming i).isNone = true ↔ ∀ o ∈ s.standing, o.incoming ≠ some i ∧ o.outgoing ≠ some i := by
  simp [State.orderNaming, Order.names, List.find?_eq_none]

theorem withdrawable_iff (s : State) (i : EntryIx) (t : Tool) : s.withdrawable i t = true ↔
    t.state = .stored ∨ t.state = .quarantined ∨
      t.state = .offloaded ∧ ∀ o ∈ s.standing, o.incoming ≠ some i ∧ o.outgoing ≠ some i := by
  rw [State.withdrawable, Bool.or_eq_true, Bool.or_eq_true, Bool.and_eq_true, orderNaming_isNone_iff]
  simp only [decide_eq_true_eq, or_assoc]

theorem withdrawBody_state {s : State} {i : EntryIx} (h : ∀ u, s.tool i = some u → s.withdrawable i u = false) :
    withdrawBody i.val s = .error .state := by
  rw [withdrawBody, entryOperand_val]
  dsimp only
  split
  · rfl
  · next u hu => rw [h u hu]; rfl

/-- Settles O42: each refusal is one branch of the request's body. -/
theorem catalogueAndToolChecks : Obligations.CatalogueAndToolChecks := by
  intro s hl
  refine ⟨typeSetInRange_iff, fun code f h => ?_, fun k f hf hused hgeometry => ?_, fun serial code kind number mode r h => ?_,
    fun serial k kind number pl mode r h1 hmax hmode hplace hreach => ?_, fun entry code kind number mode r h => ?_,
    fun i code kind number pl mode r hcode hmode hplace hreach => ?_, fun entry h => ?_, fun i h => ?_,
    fun i u hu hstate hnamed => ?_⟩
  · exact serve_supervisor_error hl (typeSetBody_range s h)
  · refine serve_supervisor_error hl ?_
    simp [typeSetBody, typeOperand_succ, hf, (inUse_iff s k).mpr hused, edits_eq_false hgeometry]
  · exact serve_supervisor_error hl (enrolBody_range s h)
  · obtain ⟨given, hlife, -, hlimit, -⟩ := lifeOperand_some hmode r
    have hbody := enrolBody_operands (k := k) (given := given) ⟨h1, hmax⟩ hplace hreach hlife
    have hwhen : ∀ f : TypeRec, (f.lnew < given.getD 0 ∨ pl.takes f.kind = false) ↔
        (mode = 1 ∧ f.lnew < r ∨ pl.takes f.kind = false) := fun f => by
      rw [hlimit]
      split_ifs with hm <;> simp [hm]
    refine ⟨fun hk => serve_supervisor_error hl (by rw [hbody, hk]), fun f hf => ⟨fun h => ?_, fun hlow htakes => ⟨fun hheld => ?_,
      fun hnew => ⟨fun hfull => ?_, fun hfree hplaced => ?_⟩⟩⟩⟩
    · exact serve_supervisor_error hl (by rw [hbody, hf]; exact if_pos ((hwhen f).mpr h))
    all_goals
      have hok : ¬ (f.lnew < given.getD 0 ∨ pl.takes f.kind = false) := by
        rw [hwhen, htakes]
        simpa using hlow
    · exact serve_supervisor_error hl (by
        rw [hbody, hf]
        dsimp only
        rw [if_neg hok, if_pos ((serialHeld_iff s serial).mpr hheld)])
    all_goals
      have hserial : ¬ s.serialHeld serial = true := by
        rw [serialHeld_iff]
        rintro ⟨i, u, hu, he⟩
        exact hnew i u hu he
    · exact serve_supervisor_error hl (by
        rw [hbody, hf]
        dsimp only
        rw [if_neg hok, if_neg hserial, freeEntry_eq_none hfull])
    · obtain ⟨i, hi⟩ := freeEntry_isSome hfree
      exact serve_supervisor_error hl (by
        rw [hbody, hf]
        dsimp only
        rw [if_neg hok, if_neg hserial, hi]
        exact if_pos (readyForEnrol_eq_false hplaced))
  · exact serve_supervisor_error hl (reinstateBody_range s h)
  · obtain ⟨given, hlife, hnone, hlimit, -⟩ := lifeOperand_some hmode r
    have hbody := fun gt (hgt : givenType code = some gt) =>
      reinstateBody_operands (i := i) (gt := gt) (given := given) hgt hplace hreach hlife
    refine ⟨fun hi => ?_, fun u hu => ⟨fun k hk hundef => ?_, fun hstate => ?_, fun ty f hty hf hstate => ?_⟩⟩
    · obtain ⟨gt, hgt⟩ := givenType_isSome hcode
      exact serve_supervisor_error hl (by rw [hbody gt hgt, hi])
    · subst hk
      exact serve_supervisor_error hl (by simp [hbody _ (givenType_succ k), hu, hundef])
    · obtain ⟨gt, hgt⟩ := givenType_isSome hcode
      refine serve_supervisor_error hl ?_
      rw [hbody gt hgt, hu]
      dsimp only
      split_ifs
      · rfl
      · rfl
    · obtain ⟨gt, hgt, hown⟩ := givenType_of_named hty
      have hfig : s.figures ty = f := by rw [State.figures, hf, Option.getD_some]
      have hwhen : (ty ≠ u.type ∧ given = none ∨ f.lnew < given.getD 0 ∨ pl.takes f.kind = false) ↔
          (mode = 0 ∧ ty ≠ u.type ∨ mode = 1 ∧ f.lnew < r ∨ pl.takes f.kind = false) := by
        rw [hnone, hlimit, and_comm]
        split_ifs with hm <;> simp [hm]
      have hfirst : ¬ (gt.isSome = true ∧ (s.typ ty).isNone = true) := by simp [hf]
      refine ⟨fun h => serve_supervisor_error hl ?_, fun h hplaced => serve_supervisor_error hl ?_⟩
      · rw [hbody gt hgt, hu]
        dsimp only
        rw [hown, hfig, if_neg hfirst, if_neg (not_not.mpr hstate), if_pos (hwhen.mpr h)]
      · rw [hbody gt hgt, hu]
        dsimp only
        rw [hown, hfig, if_neg hfirst, if_neg (not_not.mpr hstate), if_neg (mt hwhen.mp h),
          if_pos (readyForReinstate_eq_false hplaced)]
  · exact serve_supervisor_error hl (by rw [withdrawBody, entryOperand_none h])
  · refine serve_supervisor_error hl (withdrawBody_state fun u hu => ?_)
    rw [← Bool.not_eq_true, withdrawable_iff]
    have hstates := h u hu
    tauto
  · refine serve_supervisor_error hl (withdrawBody_state fun w hw => ?_)
    obtain rfl := Option.some.inj (hu.symm.trans hw)
    rw [← Bool.not_eq_true, withdrawable_iff]
    obtain ⟨o, ho, hname⟩ := hnamed
    rintro (h | h | ⟨-, h⟩)
    · rw [hstate] at h; cases h
    · rw [hstate] at h; cases h
    · exact hname.elim (h o ho).1 (h o ho).2

end Sys2Proof.Machine

/-! PROOFS. The checks of the other supervisor requests and of the queries (R39, R71, R89, R91, R135, R136, R146, R167, R182). -/
namespace Sys2Proof.Machine

/-! ## Positions by station and slot -/

theorem posAt_stationOf (x : PosIx) : posAt (stationOf x) (slotOf x) = x := by
  revert x
  decide

theorem stationOf_posAt (n : Station) (sl : Slot) : stationOf (posAt n sl) = n := by
  revert n
  cases sl <;> decide

theorem stationOf_eq_iff (x : PosIx) (n : Station) : stationOf x = n ↔ ∃ sl, x = posAt n sl := by
  constructor
  · rintro rfl
    exact ⟨slotOf x, (posAt_stationOf x).symm⟩
  · rintro ⟨sl, rfl⟩
    exact stationOf_posAt n sl

/-! ## The queries -/

theorem Tool.atStation_iff (n : Station) (u : Tool) : u.atStation n = true ↔
    ∃ sl, u.state = .mounted ∧ u.place = .spindle (posAt n sl) ∨ u.state = .staged ∧ u.place = .rack (posAt n sl) := by
  unfold Tool.atStation
  split
  · next x hx => simp [hx, stationOf_eq_iff]
  · next x hx => simp [hx, stationOf_eq_iff]
  · next hs hr =>
    refine ⟨nofun, ?_⟩
    rintro ⟨sl, ⟨-, h⟩ | ⟨-, h⟩⟩
    · exact absurd h (hs _)
    · exact absurd h (hr _)

theorem mayAsk_station_iff (s : State) (n : Station) (i : EntryIx) :
    s.mayAsk (.station n) i = true ↔ ∃ u, s.tool i = some u ∧ u.atStation n = true := Option.any_eq_true ..

theorem queryToolBody_station {n : Station} {i : EntryIx} {s : State}
    (h : ∀ u sl, s.tool i = some u →
      ¬ (u.state = .mounted ∧ u.place = .spindle (posAt n sl)) ∧ ¬ (u.state = .staged ∧ u.place = .rack (posAt n sl))) :
    queryToolBody (.station n) i.val s = .error .role := by
  have hask : s.mayAsk (.station n) i = false := by
    rw [← Bool.not_eq_true, mayAsk_station_iff]
    rintro ⟨u, hu, hat⟩
    obtain ⟨sl, hat⟩ := (Tool.atStation_iff n u).mp hat
    exact hat.elim (h u sl hu).1 (h u sl hu).2
  rw [queryToolBody, entryOperand_val]
  simp [hask]

theorem routeOperand_range {s : State} {v g : Nat} (h : 1 < g ∨ v ≠ 255 ∧ ∀ x : PosIx, x.val = v → s.present x = false) :
    s.routeOperand v g = none := by
  unfold State.routeOperand
  split
  · rfl
  · next hg =>
    obtain hgt | ⟨hv, hx⟩ := h
    · rw [signalOperand_none hgt] at hg
      cases hg
    · rw [if_neg hv, presentOperand_none hx]
      rfl

theorem routeBody_range {slot v g : Nat} {s : State}
    (h : 15 < slot ∨ 1 < g ∨ v ≠ 255 ∧ ∀ x : PosIx, x.val = v → s.present x = false) :
    routeBody slot v g s = .error .range := by
  unfold routeBody
  split
  · next hslot hroute =>
    obtain hgt | h := h
    · rw [hwSlotOperand_none hgt] at hslot
      cases hslot
    · rw [routeOperand_range h] at hroute
      cases hroute
  · rfl

theorem routeOperand_target {s : State} {x : PosIx} (hx : s.present x = true) (g : Signal) :
    s.routeOperand x.val g.num = some (some ⟨x, g⟩) := by
  have hv : x.val ≠ 255 := by have := x.isLt; omega
  simp [State.routeOperand, signalOperand_num, hv, presentOperand_val hx]

theorem routedElsewhere_iff (s : State) (h : HwSlot) (t : Target) :
    s.routedElsewhere h (some t) = true ↔ ∃ k, k ≠ h ∧ s.route k = some t := by
  simp [State.routedElsewhere, allHwSlots]

theorem monitorBody_range {v m r l : Nat} (s : State) (h : 3 < m ∨ r ≠ 1 ∧ r ≠ 2 ∧ r ≠ 4 ∧ r ≠ 8 ∨ l = 0 ∨ 7 < l) :
    monitorBody v m r l s = .error .range := by
  unfold monitorBody
  split
  · next hm =>
    obtain hgt | h := h
    · rw [modeOperand_none hgt] at hm
      cases hm
    · refine if_pos (h.imp_left fun ⟨h1, h2, h4, h8⟩ => ?_)
      simp [goodRetryTime, h1, h2, h4, h8]
  · rfl

theorem requiredOperand_succ (k : TypeIx) : requiredOperand (k.val + 1) = some (some k) := by
  rw [requiredOperand, if_neg (Nat.succ_ne_zero _), typeOperand_succ]
  rfl

theorem requiredOperand_none {code : Nat} (h : 16 < code) : requiredOperand code = none := by
  rw [requiredOperand, if_neg (by omega), (typeOperand_eq_none_iff code).mpr (.inr h)]
  rfl

theorem timeoutBody_range {n : Nat} (s : State) (h : n < 30 ∨ 1800 < n) : timeoutBody n s = .error .range := if_pos h

/-- Settles O43: each refusal is one branch of the request's body. -/
theorem supervisorChecks : Obligations.SupervisorChecks := by
  intro s
  refine ⟨fun p a b c d e r f hp hl => ?_, fun p entry hl h => ?_, fun n hl => ⟨fun i h => ?_, fun slot h => ?_, fun k => ?_⟩,
    fun hl v => ?_, fun hl => ⟨fun v a b c h => ?_, fun v h => ?_, fun v h => ?_, fun k h => ?_, fun slot v g h => ?_,
      fun n h => ?_, fun x hx => ?_⟩⟩
  · have hrole : ∀ code body, serve p code (asSupervisor p body) s = .next (s.answer p ⟨code, .role, []⟩) := fun code body => by
      rw [asSupervisor_role hp, serve_error hl]
    exact ⟨hrole _ _, hrole _ _, hrole _ _, hrole _ _, hrole _ _, hrole _ _, hrole _ _, hrole _ _, hrole _ _, hrole _ _,
      hrole _ _, hrole _ _, hrole _ _, hrole _ _, hrole _ _, hrole _ _, hrole _ _⟩
  · show serve p 49 (queryToolBody p entry s) s = _
    rw [queryToolBody, entryOperand_none h, serve_error hl]
  · show serve (.station n) 49 (queryToolBody (.station n) i.val s) s = _
    rw [queryToolBody_station h, serve_error hl]
  · show serve (.station n) 50 (queryPositionBody (.station n) slot s) s = _
    rw [queryPositionBody, slotOperand_none h, serve_error hl]
  · exact serve_error hl 51 .role
  · exact serve_error hl 50 .role
  · have hnone := presentOperand_none h
    refine ⟨?_, ?_, ?_, ?_, ?_, ?_, fun hv => ?_⟩
    · exact serve_supervisor_error hl (by rw [declarePositionBody, hnone])
    · exact serve_supervisor_error hl (by rw [assignBody, hnone])
    · exact serve_supervisor_error hl (by rw [monitorBody, hnone])
    · exact serve_supervisor_error hl (by rw [clearRetriesBody, hnone])
    · exact serve_supervisor_error hl (by rw [resumeBody, hnone])
    · show serve .ps 50 (queryPositionBody .ps v s) s = _
      rw [queryPositionBody, hnone, serve_error hl]
    · exact serve_supervisor_error hl (routeBody_range (.inr (.inr ⟨hv, h⟩)))
  · exact serve_supervisor_error hl (by rw [queryTypeBody, (typeOperand_eq_none_iff v).mpr h])
  · exact serve_supervisor_error hl (by rw [declarePocketBody, pocketOperand_none h])
  · exact serve_supervisor_error hl (by simp [declarePocketBody, pocketOperand_succ, h])
  · exact serve_supervisor_error hl (routeBody_range (h.imp_right .inl))
  · exact serve_supervisor_error hl (timeoutBody_range s h)
  · have hval := presentOperand_val hx
    refine ⟨fun hservice hrack => ?_, fun code hcode => ?_, fun k hk => ?_, fun k f hf hkind => ?_, fun m r l h => ?_,
      fun hfree => ?_, fun h k g hne hroute => ?_⟩
    · exact serve_supervisor_error hl (by simp [declarePositionBody, hval, hservice, hrack])
    · exact serve_supervisor_error hl (by simp [assignBody, hval, requiredOperand_none hcode])
    · exact serve_supervisor_error hl (by
        simp [assignBody, hval, requiredOperand_succ, State.undefinedType, hk])
    · exact serve_supervisor_error hl (by
        simp [assignBody, hval, requiredOperand_succ, State.undefinedType, State.kindMismatch, State.figures, hf, hkind])
    · exact serve_supervisor_error hl (monitorBody_range s h)
    · exact serve_supervisor_error hl (by simp [resumeBody, hval, hfree])
    · have helse := (routedElsewhere_iff s h ⟨x, g⟩).mpr ⟨k, hne, hroute⟩
      exact serve_supervisor_error hl (by simp [routeBody, hwSlotOperand_val, routeOperand_target hx, helse])

end Sys2Proof.Machine

/-! PROOFS. Frames as bytes, and the reply that every request has (R174 to R176). -/
namespace Sys2Proof.Machine

/-! ## Numbers and bytes (R173) -/

theorem toNat_byte (v : Nat) : (byte v).toNat = v % 256 := BitVec.toNat_ofNat v 8

theorem foldl_ofBytes (bs : List Byte) (a : Nat) :
    bs.foldl (fun v b => v * 256 + b.toNat) a = a * 256 ^ bs.length + ofBytes bs := by
  induction bs generalizing a with
  | nil => simp [ofBytes]
  | cons b bs ih =>
    show bs.foldl _ (a * 256 + b.toNat) = a * 256 ^ (bs.length + 1) + bs.foldl _ (0 * 256 + b.toNat)
    rw [ih, ih (0 * 256 + b.toNat)]
    ring

theorem ofBytes_cons (b : Byte) (bs : List Byte) : ofBytes (b :: bs) = b.toNat * 256 ^ bs.length + ofBytes bs := by
  rw [ofBytes, List.foldl_cons, foldl_ofBytes, Nat.zero_mul, Nat.zero_add]

/-- A number that fits n bytes is read back from them. -/
theorem ofBytes_be {n v : Nat} (h : fitsBytes n v = true) : ofBytes (be n v) = v := by
  have hmod : ∀ n v : Nat, ofBytes (be n v) = v % 256 ^ n := by
    intro n
    induction n with
    | zero => intro v; simp [be, ofBytes, Nat.mod_one]
    | succ n ih =>
      intro v
      rw [be, ofBytes_cons, ih, Laws.length_be, toNat_byte, pow_succ, Nat.mod_mul, Nat.add_comm, Nat.mul_comm]
  rw [hmod, Nat.mod_eq_of_lt (of_decide_eq_true h)]

theorem ofBytes_byte {v : Nat} (h : fitsBytes 1 v = true) : ofBytes [byte v] = v := by
  have hbe := ofBytes_be h
  rwa [be, pow_zero, Nat.div_one] at hbe

/-! ## The frame checks (R174) -/

theorem recordLength_range {code n : Nat} (h : recordLength code = some n) : 2 ≤ n ∧ n ≤ 30 := by
  unfold recordLength at h
  split at h <;> simp at h <;> omega

/-- A frame of a length byte, a record and a CRC. -/
theorem decodeFrame_framed (p : Port) (l : Byte) (record : List Byte) (c : Byte) :
    decodeFrame p (l :: record ++ [c]) =
      if l.toNat < 2 ∨ 30 < l.toNat ∨ record.length ≠ l.toNat then .frame
      else if c ≠ crc8 (l :: record) then .frame
      else decodeRecord p record := by
  have hlength : (record ++ [c]).length ≠ l.toNat + 1 ↔ record.length ≠ l.toNat := by simp
  rw [List.cons_append, decodeFrame]
  simp only [hlength, List.getLast?_concat, List.dropLast_concat, ne_eq, Option.some.injEq]

/-- The frame of a record of a permitted length passes the checks. -/
theorem decodeFrame_frameOfRecord (p : Port) {record : List Byte} (h : 2 ≤ record.length ∧ record.length ≤ 30) :
    decodeFrame p (frameOfRecord record) = decodeRecord p record := by
  have hl : (byte record.length).toNat = record.length := by
    rw [toNat_byte, Nat.mod_eq_of_lt (by omega)]
  rw [frameOfRecord, decodeFrame_framed, hl, if_neg (by omega), if_neg (by simp)]

/-- A byte count, a length byte or a CRC that does not fit. -/
theorem decodeFrame_frame (p : Port) {bytes : List Byte}
    (h : bytes.length < 2 ∨ (∃ l rest, bytes = l :: rest ∧ (l.toNat < 2 ∨ 30 < l.toNat ∨ rest.length ≠ l.toNat + 1)) ∨
      ∃ body c, bytes = body ++ [c] ∧ c ≠ crc8 body) : decodeFrame p bytes = .frame := by
  match bytes, h with
  | [], _ => rfl
  | l :: rest, h =>
    rw [decodeFrame]
    split_ifs with hlength hcrc
    · rfl
    · rfl
    · exfalso
      obtain ⟨hmin, -, hrest⟩ : 2 ≤ l.toNat ∧ l.toNat ≤ 30 ∧ rest.length = l.toNat + 1 := by omega
      obtain h | ⟨l', rest', he, h⟩ | ⟨body, c, he, hc⟩ := h
      · rw [List.length_cons] at h
        omega
      · obtain ⟨rfl, rfl⟩ := List.cons.inj he
        exact hlength h
      · cases body with
        | nil =>
          obtain ⟨rfl, rfl⟩ := List.cons.inj he
          simp at hrest
        | cons b body =>
          obtain ⟨rfl, rfl⟩ := List.cons.inj he
          simp at hcrc
          exact hc hcrc

/-- A record that passed the frame checks, by its code and its length (R175). -/
theorem decodeRecord_code (p : Port) (code : Byte) (operands : List Byte) :
    decodeRecord p (code :: operands) =
      match recordLength code.toNat with
      | none => .unknown code.toNat
      | some n =>
        if operands.length + 1 ≠ n then .misfit code.toNat
        else
          match requestOf p code.toNat (code :: operands) with
          | some i => .request i
          | none => .noEncoding code.toNat := by
  have hcode : field (code :: operands) 0 1 = code.toNat := by simp [field, ofBytes]
  rw [decodeRecord]
  simp only [hcode] <;> rfl

/-! ## The encoder is read back (Tables 9-1 and 9-2) -/

/-- Where the operands of TYPE SET stand in its record (Table 9-2). -/
theorem typeSetOperandsOf_typeSetRecord (code : Nat) (f : TypeSetOperands) :
    typeSetOperandsOf (typeSetRecord code f) =
      { dnew := ofBytes (be 3 f.dnew), ddiff := ofBytes (be 2 f.ddiff), dd := ofBytes (be 2 (f.dd * 128 + f.wp)) / 128,
        wp := ofBytes (be 2 (f.dd * 128 + f.wp)) % 128, ppd := ofBytes [byte f.ppd], rchg := ofBytes (be 2 f.rchg),
        stage := ofBytes (be 2 f.stage), pmin := ofBytes (be 2 f.pmin), k := ofBytes [byte f.k], z := ofBytes (be 2 f.z),
        g := ofBytes (be 2 (f.g + 8192 * f.flags)) % 8192, flags := ofBytes (be 2 (f.g + 8192 * f.flags)) / 8192,
        aeLimit := ofBytes (be 2 f.aeLimit), powerLimit := ofBytes (be 2 f.powerLimit), blank := ofBytes (be 2 f.blank),
        deglitch := ofBytes [byte f.deglitch], factor := ofBytes (be 2 f.factor) } := by
  simp [typeSetOperandsOf, field, typeSetRecord, List.drop_append, List.take_append, List.drop_of_length_le,
    List.take_of_length_le]

theorem typeSetOperandsOf_record (code : Nat) {f : TypeSetOperands} (h : f.wf = true) :
    typeSetOperandsOf (typeSetRecord code f) = f := by
  obtain ⟨dnew, ddiff, dd, wp, ppd, rchg, stage, pmin, k, z, g, flags, aeLimit, powerLimit, blank, deglitch, factor⟩ := f
  simp only [TypeSetOperands.wf, Bool.and_eq_true, decide_eq_true_eq] at h
  have hwear : fitsBytes 2 (dd * 128 + wp) = true := by
    simp only [fitsBytes, decide_eq_true_eq]
    omega
  have hflags : fitsBytes 2 (g + 8192 * flags) = true := by
    simp only [fitsBytes, decide_eq_true_eq]
    omega
  simp only [typeSetOperandsOf_typeSetRecord, ofBytes_byte, ofBytes_be, h, hwear, hflags, TypeSetOperands.mk.injEq, true_and,
    and_true]
  omega

/-- The record of a request whose operands fit their bytes spells that request. -/
theorem requestOf_recordOf {i : Instr} {record : List Byte} {p : Port} (h : i.wf = true) (hr : recordOf i = some record)
    (hp : i.port = some p) : requestOf p (field record 0 1) record = some i := by
  cases i with
  | check q => cases hr; cases hp; rfl
  | openWindow q slot => cases hr; cases hp; exact congrArg (fun v => some (Instr.openWindow p v)) (ofBytes_byte h)
  | closeWindow q slot => cases hr; cases hp; exact congrArg (fun v => some (Instr.closeWindow p v)) (ofBytes_byte h)
  | parts q slot n =>
    cases hr; cases hp; simp only [Instr.wf, Bool.and_eq_true] at h
    show some (Instr.parts p (ofBytes [byte slot]) (ofBytes [byte n])) = _
    simp only [ofBytes_byte, h]
  | dress q slot n =>
    cases hr; cases hp; simp only [Instr.wf, Bool.and_eq_true] at h
    show some (Instr.dress p (ofBytes [byte slot]) (ofBytes [byte n])) = _
    simp only [ofBytes_byte, h]
  | gauge q slot d =>
    cases hr; cases hp; simp only [Instr.wf, Bool.and_eq_true] at h
    show some (Instr.gauge p (ofBytes [byte slot]) (ofBytes (be 3 d))) = _
    simp only [ofBytes_byte, ofBytes_be, h]
  | release q slot => cases hr; cases hp; exact congrArg (fun v => some (Instr.release p v)) (ofBytes_byte h)
  | reclaim q slot => cases hr; cases hp; exact congrArg (fun v => some (Instr.reclaim p v)) (ofBytes_byte h)
  | verdictOk q slot => cases hr; cases hp; exact congrArg (fun v => some (Instr.verdictOk p v)) (ofBytes_byte h)
  | verdictBroken q slot => cases hr; cases hp; exact congrArg (fun v => some (Instr.verdictBroken p v)) (ofBytes_byte h)
  | takeOrder q => cases hr; cases hp; rfl
  | doneOrder q n => cases hr; cases hp; exact congrArg (fun v => some (Instr.doneOrder p v)) (ofBytes_be h)
  | failOrder q n r e =>
    cases hr; cases hp; simp only [Instr.wf, Bool.and_eq_true] at h
    show some (Instr.failOrder p (ofBytes (be 2 n)) (ofBytes [byte r]) (ofBytes [byte e])) = _
    simp only [ofBytes_byte, ofBytes_be, h]
  | typeErase q code => cases hr; cases hp; exact congrArg (fun v => some (Instr.typeErase p v)) (ofBytes_byte h)
  | enrol q serial code k n m r =>
    cases hr; cases hp; simp only [Instr.wf, Bool.and_eq_true] at h
    show some (Instr.enrol p (ofBytes (be 4 serial)) (ofBytes [byte code]) (ofBytes [byte k]) (ofBytes [byte n]) (ofBytes [byte m]) (ofBytes (be 3 r))) = _
    simp only [ofBytes_byte, ofBytes_be, h]
  | withdraw q e => cases hr; cases hp; exact congrArg (fun v => some (Instr.withdraw p v)) (ofBytes_byte h)
  | reinstate q e code k n m r =>
    cases hr; cases hp; simp only [Instr.wf, Bool.and_eq_true] at h
    show some (Instr.reinstate p (ofBytes [byte e]) (ofBytes [byte code]) (ofBytes [byte k]) (ofBytes [byte n]) (ofBytes [byte m]) (ofBytes (be 3 r))) = _
    simp only [ofBytes_byte, ofBytes_be, h]
  | declarePocket q n => cases hr; cases hp; exact congrArg (fun v => some (Instr.declarePocket p v)) (ofBytes_byte h)
  | declarePosition q x => cases hr; cases hp; exact congrArg (fun v => some (Instr.declarePosition p v)) (ofBytes_byte h)
  | assign q x code =>
    cases hr; cases hp; simp only [Instr.wf, Bool.and_eq_true] at h
    show some (Instr.assign p (ofBytes [byte x]) (ofBytes [byte code])) = _
    simp only [ofBytes_byte, h]
  | monitorSet q x m t l =>
    cases hr; cases hp; simp only [Instr.wf, Bool.and_eq_true] at h
    show some (Instr.monitorSet p (ofBytes [byte x]) (ofBytes [byte m]) (ofBytes [byte t]) (ofBytes [byte l])) = _
    simp only [ofBytes_byte, h]
  | clearRetries q x => cases hr; cases hp; exact congrArg (fun v => some (Instr.clearRetries p v)) (ofBytes_byte h)
  | routeSet q slot x g =>
    cases hr; cases hp; simp only [Instr.wf, Bool.and_eq_true] at h
    show some (Instr.routeSet p (ofBytes [byte slot]) (ofBytes [byte x]) (ofBytes [byte g])) = _
    simp only [ofBytes_byte, h]
  | timeoutSet q t => cases hr; cases hp; exact congrArg (fun v => some (Instr.timeoutSet p v)) (ofBytes_be h)
  | resume q x => cases hr; cases hp; exact congrArg (fun v => some (Instr.resume p v)) (ofBytes_byte h)
  | restart q => cases hr; cases hp; rfl
  | queryType q code => cases hr; cases hp; exact congrArg (fun v => some (Instr.queryType p v)) (ofBytes_byte h)
  | queryTool q e => cases hr; cases hp; exact congrArg (fun v => some (Instr.queryTool p v)) (ofBytes_byte h)
  | queryPosition q v => cases hr; cases hp; exact congrArg (fun v => some (Instr.queryPosition p v)) (ofBytes_byte h)
  | queryOrder q n => cases hr; cases hp; exact congrArg (fun v => some (Instr.queryOrder p v)) (ofBytes_be h)
  | queryWaiting q => cases hr; cases hp; rfl
  | queryCell q => cases hr; cases hp; rfl
  | typeSet q code f =>
    cases hr; cases hp; simp only [Instr.wf, Bool.and_eq_true] at h
    have hcode : field (typeSetRecord code f) 1 1 = code := ofBytes_byte h.1
    rw [(Laws.length_typeSetRecord code f).2]
    show some (Instr.typeSet p (field (typeSetRecord code f) 1 1) (typeSetOperandsOf (typeSetRecord code f))) = _
    rw [hcode, typeSetOperandsOf_record code h.2]
  | _ => cases hr

theorem framedLength : ∀ i : Instr, Laws.FramedLength.Statement i
  | .check p => Laws.FramedLength.check p
  | .openWindow p slot => Laws.FramedLength.openWindow p slot
  | .closeWindow p slot => Laws.FramedLength.closeWindow p slot
  | .parts p slot n => Laws.FramedLength.parts p slot n
  | .dress p slot n => Laws.FramedLength.dress p slot n
  | .gauge p slot diameter => Laws.FramedLength.gauge p slot diameter
  | .release p slot => Laws.FramedLength.release p slot
  | .reclaim p slot => Laws.FramedLength.reclaim p slot
  | .verdictOk p slot => Laws.FramedLength.verdictOk p slot
  | .verdictBroken p slot => Laws.FramedLength.verdictBroken p slot
  | .takeOrder p => Laws.FramedLength.takeOrder p
  | .doneOrder p number => Laws.FramedLength.doneOrder p number
  | .failOrder p number reason entry => Laws.FramedLength.failOrder p number reason entry
  | .typeSet p code f => Laws.FramedLength.typeSet p code f
  | .typeErase p code => Laws.FramedLength.typeErase p code
  | .enrol p serial code placeKind placeNumber lifeMode r => Laws.FramedLength.enrol p serial code placeKind placeNumber lifeMode r
  | .withdraw p entry => Laws.FramedLength.withdraw p entry
  | .reinstate p entry code placeKind placeNumber lifeMode r => Laws.FramedLength.reinstate p entry code placeKind placeNumber lifeMode r
  | .declarePocket p number => Laws.FramedLength.declarePocket p number
  | .declarePosition p position => Laws.FramedLength.declarePosition p position
  | .assign p position code => Laws.FramedLength.assign p position code
  | .monitorSet p position mode retryTime retryLimit => Laws.FramedLength.monitorSet p position mode retryTime retryLimit
  | .clearRetries p position => Laws.FramedLength.clearRetries p position
  | .routeSet p slot position signal => Laws.FramedLength.routeSet p slot position signal
  | .timeoutSet p seconds => Laws.FramedLength.timeoutSet p seconds
  | .resume p position => Laws.FramedLength.resume p position
  | .restart p => Laws.FramedLength.restart p
  | .queryType p code => Laws.FramedLength.queryType p code
  | .queryTool p entry => Laws.FramedLength.queryTool p entry
  | .queryPosition p operand => Laws.FramedLength.queryPosition p operand
  | .queryOrder p number => Laws.FramedLength.queryOrder p number
  | .queryWaiting p => Laws.FramedLength.queryWaiting p
  | .queryCell p => Laws.FramedLength.queryCell p
  | .undecodedRequest p sent => Laws.FramedLength.undecodedRequest p sent
  | .fetchReply p => Laws.FramedLength.fetchReply p
  | .fetchNotices p => Laws.FramedLength.fetchNotices p
  | .wellFormedFrame words => Laws.FramedLength.wellFormedFrame words
  | .malformedFrame how => Laws.FramedLength.malformedFrame how
  | .lossDeadlineReached => Laws.FramedLength.lossDeadlineReached
  | .swapDeadlineExpiry => Laws.FramedLength.swapDeadlineExpiry
  | .retryTimerExpiry x => Laws.FramedLength.retryTimerExpiry x
  | .millisecondTick => Laws.FramedLength.millisecondTick
  | .resetAssert => Laws.FramedLength.resetAssert
  | .resetRelease pins => Laws.FramedLength.resetRelease pins
  | .powerOnStart pins => Laws.FramedLength.powerOnStart pins
  | .mainSupplyFail => Laws.FramedLength.mainSupplyFail
  | .vbatLowLatch => Laws.FramedLength.vbatLowLatch

theorem isRequest_of_recordOf {i : Instr} {record : List Byte} (h : recordOf i = some record) : isRequest i = true := by
  by_contra hc
  cases i with
  | undecodedRequest p sent => cases h
  | fetchReply p => cases h
  | fetchNotices p => cases h
  | wellFormedFrame words => cases h
  | malformedFrame how => cases h
  | lossDeadlineReached => cases h
  | swapDeadlineExpiry => cases h
  | retryTimerExpiry x => cases h
  | millisecondTick => cases h
  | resetAssert => cases h
  | resetRelease pins => cases h
  | powerOnStart pins => cases h
  | mainSupplyFail => cases h
  | vbatLowLatch => cases h
  | _ => exact hc rfl

/-- The frame of a request whose operands fit their bytes is read back as that request. -/
theorem decodeFrame_frameOf {i : Instr} {bytes : List Byte} {p : Port} (h : i.wf = true) (hi : frameOf i = some bytes)
    (hp : i.port = some p) : decodeFrame p bytes = .request i := by
  obtain ⟨record, hr, rfl⟩ := Option.map_eq_some_iff.mp hi
  obtain ⟨-, hlength⟩ := framedLength i record hr
  rw [decodeFrame_frameOfRecord p (recordLength_range hlength), decodeRecord]
  simp only [hlength, requestOf_recordOf h hr hp, ne_eq, not_true_eq_false, if_false]

/-! ## A REQUEST transaction in one command (R173, R174) -/

theorem listening_of_idle {s : State} {p : Port} (h : (s.port p).reception = .idle) : s.listening p = s.fetches p := by
  simp [State.listening, State.fetches, h]

theorem undecodedRequest_released (p : Port) (bytes : List Byte) (s : State) :
    exec (.undecodedRequest p ⟨bytes, true⟩) s = releaseSelect p (bytes.foldl (State.clockByte p) s) := rfl

/-- The bytes after a kind byte of 1 collect, and the release of chip select takes them. -/
theorem undecodedRequest_request {p : Port} {s : State} (hidle : (s.port p).reception = .idle)
    (hf : s.fetches p = true) (bytes : List Byte) :
    exec (.undecodedRequest p ⟨1 :: bytes, true⟩) s = takeFrame p bytes s := by
  have hfirst : s.clockByte p 1 = s.setReception p (.receiving []) := by
    unfold State.clockByte
    rw [if_pos hf, hidle]
    rfl
  have hall : (1 :: bytes).foldl (State.clockByte p) s = s.setReception p (.receiving bytes) := by
    rw [List.foldl_cons, hfirst, State.clockBytes_receiving p bytes _ [] (by simpa using hf) (by simp),
      State.setReception_setReception, List.nil_append]
  rw [undecodedRequest_released, hall, releaseSelect, State.port_setReception]
  show takeFrame p bytes ((s.setReception p (.receiving bytes)).setReception p .idle) = _
  rw [State.setReception_setReception, State.setReception_self hidle]

/-- A port that takes no transactions ignores one to its end. -/
theorem undecodedRequest_ignored {p : Port} {s : State} (hf : s.fetches p = false) (b : Byte) (bytes : List Byte) :
    exec (.undecodedRequest p ⟨b :: bytes, true⟩) s = .next (s.endReception p) := by
  have hall : (b :: bytes).foldl (State.clockByte p) s = s.setReception p .discarded := by
    rw [List.foldl_cons, State.clockByte, hf, if_neg Bool.false_ne_true]
    exact State.clockBytes_discarded p bytes _ (by simp)
  rw [undecodedRequest_released, hall, releaseSelect, State.port_setReception]
  show Host.Outcome.next ((s.setReception p .discarded).setReception p .idle) = _
  rw [State.setReception_setReception]
  rfl

theorem serve_ignored {p : Port} {s : State} (hl : s.listening p = false) (code : Nat) (body : Answer) :
    serve p code body s = .next (s.endReception p) := by
  simp [serve, hl]

/-- Settles O60: every record is read back by the row of its code, and the bytes of its frame as a transaction are taken as
the frame. -/
theorem framesReadBack : Obligations.FramesReadBack := by
  intro i bytes hwf hi
  obtain ⟨record, hr, -⟩ := Option.map_eq_some_iff.mp hi
  obtain ⟨p, hp⟩ := Option.isSome_iff_exists.mp (framedLength i record hr).1
  have hdecode := decodeFrame_frameOf hwf hi hp
  refine ⟨p, hp, hdecode, fun s hidle => ?_⟩
  obtain ⟨q, hq, hrun, code, body, hserve, -⟩ :=
    runRequest_served (isRequest_of_recordOf hr) (Clearing.anybody_allows i) s
  obtain rfl := Option.some.inj (hp.symm.trans hq)
  cases hf : s.fetches p with
  | true =>
    rw [undecodedRequest_request hidle hf, takeFrame, hdecode]
    exact hrun
  | false => rw [undecodedRequest_ignored hf, hserve, serve_ignored ((listening_of_idle hidle).trans hf)]

end Sys2Proof.Machine

/-! PROOFS. What a port answers, and its transactions byte by byte (R173 to R176, R179, R180, R188). -/
namespace Sys2Proof.Machine

/-! ## The reply of a request -/

theorem State.resetHeld_heldNotices (s : State) : s.heldNotices.resetHeld = s.resetHeld := by
  have hfold : ∀ (l : List PosIx) (u : State),
      (l.foldl (fun s' x => if (s.pos x).service = .held then s'.notifySlot x .held else s') u).resetHeld = u.resetHeld := by
    intro l
    induction l with
    | nil => exact fun _ => rfl
    | cons x l ih =>
      intro u
      rw [List.foldl_cons, ih]
      split
      · exact State.resetHeld_notifySlot _ _ _
      · rfl
  exact hfold _ s

theorem State.resetHeld_warmNotices (s : State) : s.warmNotices.resetHeld = s.resetHeld := by
  unfold State.warmNotices
  dsimp only
  split
  · rw [State.resetHeld_notify, State.resetHeld_heldNotices, State.resetHeld_notify]
  · rw [State.resetHeld_heldNotices, State.resetHeld_notify]

theorem State.resetHeld_commit_drive (s : State) : s.commit.drive.resetHeld = s.resetHeld := rfl

theorem resetHeld_warmStart (pins : Strap) (s : State) : (warmStart pins s).resetHeld = s.resetHeld := by
  have houtside := (steps_warmStart (fun _ => False) pins s).outside
  rw [warmStart_eq, State.resetHeld_commit_drive, State.resetHeld_warmNotices, houtside.resetHeld, State.resetHeld_warmed]

/-- What an accepted request leaves: the RESET input as it was, and its port enabled as it was. -/
theorem Accepted.port_stays {w : Clearing} {p : Port} {s t : State} (h : Accepted w p s t) :
    t.resetHeld = s.resetHeld ∧ t.enabled p = s.enabled p := by
  cases h with
  | same => exact ⟨rfl, rfl⟩
  | @event e ho =>
    have hfollows := finish_follows s e
    have houtside := ho.steps.outside
    refine ⟨hfollows.resetHeld.trans houtside.resetHeld, ?_⟩
    rw [hfollows.enabled]
    unfold State.enabled
    rw [houtside.strap]
  | warm hp =>
    subst hp
    exact ⟨resetHeld_warmStart _ s, rfl⟩

theorem running_resetHeld {s : State} (h : s.running = true) : s.resetHeld = false := by
  simp only [State.running, Bool.and_eq_true, Bool.not_eq_true'] at h
  exact h.2

theorem listening_iff (s : State) (p : Port) : s.listening p = true ↔
    s.running = true ∧ s.enabled p = true ∧ (s.port p).reception ≠ .discarded := by
  simp [State.listening, and_assoc]

/-- A reply in the mailbox of a port that is enabled, the RESET input being released. -/
theorem port_answer {t : State} {p : Port} (hreset : t.resetHeld = false) (hp : t.enabled p = true) (r : Reply) :
    ((t.answer p r).port p).mailbox = .fresh r ∧ ((t.answer p r).port p).attn = true ∧
      ((t.answer p r).port p).notices = (t.port p).notices ∧ (t.answer p r).ret = t.ret := by
  have hport : (t.answer p r).port p = { t.port p with
      mailbox := .fresh r
      reception := .idle
      attn := State.attnLevel (t.setPort p { t.port p with mailbox := .fresh r, reception := .idle }) p.ix } := by
    rw [State.answer, State.port_drive, State.port_setPort, if_pos rfl]
  refine ⟨by rw [hport], ?_, by rw [hport], rfl⟩
  rw [hport]
  exact (attnLevel_iff _ p).mpr ⟨hreset, hp, .inl ⟨r, by simp⟩⟩

/-- A request that is served at a port that listens is answered; a refusal leaves the state as it was. -/
theorem ServedAt.answered {w : Clearing} {p : Port} {s : State} {out : Host.Outcome State Fault Refusal}
    (h : ServedAt w p s out) (hl : s.listening p = true) :
    ∃ (t : State) (r : Reply), out = .next (t.answer p r) ∧ (r.status ≠ .accepted → t = s ∧ r.result = []) ∧
      t.resetHeld = false ∧ t.enabled p = true := by
  obtain ⟨code, body, rfl, hbody⟩ := h
  obtain ⟨hrun, hp, -⟩ := (listening_iff s p).mp hl
  cases body with
  | error st => exact ⟨s, _, serve_error hl code st, fun _ => ⟨rfl, rfl⟩, running_resetHeld hrun, hp⟩
  | ok a =>
    obtain ⟨hreset, henabled⟩ := (hbody a.1 a.2 rfl).port_stays
    exact ⟨a.1, _, serve_accepted hl code a.1 a.2, fun hno => absurd rfl hno, hreset.trans (running_resetHeld hrun),
      henabled.trans hp⟩

/-- Settles O39: every request is served at its port, as a decoded command or as a frame. -/
theorem refusalsChangeNothing : Obligations.RefusalsChangeNothing := by
  intro c p s hp hreply hnotices hsent hl
  suffices hserved : ServedAt .anybody p s (exec c s) by
    obtain ⟨t, r, hout, hrefused, hreset, henabled⟩ := hserved.answered hl
    exact ⟨t, r, hout, hrefused, port_answer hreset henabled r⟩
  by_cases hc : isRequest c = true
  · obtain ⟨q, hq, -, hserved⟩ := runRequest_served hc (Clearing.anybody_allows c) s
    obtain rfl := Option.some.inj (hp.symm.trans hq)
    exact hserved
  · cases c with
    | undecodedRequest q sent =>
      obtain rfl := Option.some.inj hp
      obtain ⟨hidle, hreleased, bytes, hbytes⟩ := hsent sent rfl
      obtain ⟨got, released⟩ := sent
      obtain rfl : released = true := hreleased
      obtain rfl : got = 1 :: bytes := hbytes
      rw [undecodedRequest_request hidle ((listening_of_idle hidle).symm.trans hl)]
      exact takeFrame_served q bytes s
    | fetchReply q => exact absurd (Option.some.inj hp ▸ rfl) hreply
    | fetchNotices q => exact absurd (Option.some.inj hp ▸ rfl) hnotices
    | wellFormedFrame words => cases hp
    | malformedFrame how => cases hp
    | lossDeadlineReached => cases hp
    | swapDeadlineExpiry => cases hp
    | retryTimerExpiry x => cases hp
    | millisecondTick => cases hp
    | resetAssert => cases hp
    | resetRelease pins => cases hp
    | powerOnStart pins => cases hp
    | mainSupplyFail => cases hp
    | vbatLowLatch => cases hp
    | _ => exact absurd rfl hc

/-! ## Frames that do not pass (R174, R175) -/

theorem requestOf_verdict_none (p : Port) (slot : Byte) {verdict : Byte} (h : 2 ≤ verdict.toNat) :
    requestOf p 9 [9, slot, verdict] = none := by
  have hfield : field [9, slot, verdict] 2 1 = verdict.toNat := by simp [field, ofBytes]
  show (match field [9, slot, verdict] 2 1 with
    | 0 => some (Instr.verdictOk p (field [9, slot, verdict] 1 1))
    | 1 => some (Instr.verdictBroken p (field [9, slot, verdict] 1 1))
    | _ => none) = none
  rw [hfield]
  split
  · omega
  · omega
  · rfl

theorem requestOf_declare_none (p : Port) {kind : Byte} (number : Byte) (h1 : kind ≠ 1) (h2 : kind ≠ 2) :
    requestOf p 37 [37, kind, number] = none := by
  have hfield : field [37, kind, number] 1 1 = kind.toNat := by simp [field, ofBytes]
  show (match field [37, kind, number] 1 1 with
    | 1 => some (Instr.declarePocket p (field [37, kind, number] 2 1))
    | 2 => some (Instr.declarePosition p (field [37, kind, number] 2 1))
    | _ => none) = none
  rw [hfield]
  split
  · next h => exact absurd (BitVec.eq_of_toNat_eq h) h1
  · next h => exact absurd (BitVec.eq_of_toNat_eq h) h2
  · rfl

/-- Settles O36: the branches of the decoding, each with its reply. -/
theorem frameChecks : Obligations.FrameChecks := by
  intro p bytes s hl hidle request
  have hrequest : request = takeFrame p bytes s :=
    undecodedRequest_request hidle ((listening_of_idle hidle).symm.trans hl) bytes
  refine ⟨?_, fun h => ?_, fun l code operands hlength hmin hmax hbytes => ?_⟩
  · obtain ⟨t, r, hout, -⟩ := (takeFrame_served p bytes s).answered hl
    exact ⟨t, r, hrequest.trans hout⟩
  · rw [hrequest, takeFrame, decodeFrame_frame p h]
    exact serve_error hl 0 .frame
  · have hdecode : decodeFrame p bytes = decodeRecord p (code :: operands) := by
      rw [hbytes, decodeFrame_framed, if_neg (by simp; omega), if_neg (by simp)]
    rw [decodeRecord_code, ← hlength] at hdecode
    rw [hrequest, takeFrame, hdecode]
    refine ⟨fun hn => ?_, fun n hn hne => ?_, fun slot verdict hcode hops hv => ?_, fun kind number hcode hops h1 h2 => ?_⟩
    · rw [hn]
      exact serve_error hl _ .unknown
    · rw [hn]
      dsimp only
      rw [if_pos (Ne.symm hne)]
      exact serve_error hl _ .frame
    · subst hcode hops
      rw [show recordLength (9 : Byte).toNat = some 3 from rfl]
      dsimp only
      rw [if_neg (by simpa using hlength), show (9 : Byte).toNat = 9 from rfl, requestOf_verdict_none p slot hv]
      refine ⟨fun hp => ?_, fun n hp => ?_⟩
      · show serve p 9 (asStation p fun _ => .error .range) s = _
        rw [asStation_role hp, serve_error hl]
      · subst hp
        exact serve_error hl 9 .range
    · subst hcode hops
      rw [show recordLength (37 : Byte).toNat = some 3 from rfl]
      dsimp only
      rw [if_neg (by simpa using hlength), show (37 : Byte).toNat = 37 from rfl, requestOf_declare_none p number h1 h2]
      refine ⟨fun hp => ?_, fun hp => ?_⟩
      · show serve p 37 (asSupervisor p (.error .range)) s = _
        rw [asSupervisor_role hp, serve_error hl]
      · subst hp
        exact serve_error hl 37 .range

end Sys2Proof.Machine

/-! PROOFS. Fetches and transactions byte by byte (R173, R176, R179, R180, R188). -/
namespace Sys2Proof.Machine

/-! ## The lines and the transactions -/

theorem fetches_iff (s : State) (p : Port) : s.fetches p = true ↔ s.running = true ∧ s.enabled p = true :=
  Bool.and_eq_true_iff

theorem State.ports_setPort (s : State) (p : Port) (v : PortState) (i : Fin 6) :
    (s.setPort p v).vol.ports[i] = if p.ix = i then v else s.vol.ports[i] := getFin_set _ _ _ _

theorem State.attnLevel_setPort (s : State) (p : Port) {v : PortState} (hmail : v.mailbox = (s.port p).mailbox)
    (hnotices : v.notices = (s.port p).notices) (i : Fin 6) : (s.setPort p v).attnLevel i = s.attnLevel i := by
  unfold State.attnLevel
  rw [State.ports_setPort]
  split
  · next hi =>
    subst hi
    rw [hmail, hnotices]
    rfl
  · rfl

theorem State.ports_drive (s : State) (i : Fin 6) :
    s.drive.vol.ports[i] = { s.vol.ports[i] with attn := s.attnLevel i } := by
  simp [State.drive]

theorem State.drive_setPort_ports (s : State) (p : Port) (sent : List Byte) (r : Reception) (i : Fin 6) :
    (s.drive.setPort p { s.drive.port p with sent := sent, reception := r }).vol.ports[i] =
      (s.setPort p { s.port p with sent := sent, reception := r }).drive.vol.ports[i] := by
  rw [State.ports_setPort, State.ports_drive, State.ports_drive, State.ports_setPort,
    State.attnLevel_setPort s p (v := { s.port p with sent := sent, reception := r }) rfl rfl]
  split
  · next hi =>
    subst hi
    rw [State.port_drive]
  · rfl

/-- What a transaction carries does not move the lines. -/
theorem State.setPort_drive (s : State) (p : Port) (sent : List Byte) (r : Reception) :
    s.drive.setPort p { s.drive.port p with sent := sent, reception := r } =
      (s.setPort p { s.port p with sent := sent, reception := r }).drive := by
  set a := s.drive.setPort p { s.drive.port p with sent := sent, reception := r } with ha
  set b := (s.setPort p { s.port p with sent := sent, reception := r }).drive with hb
  have hports : a.vol.ports = b.vol.ports :=
    Vector.ext fun i hi => State.drive_setPort_ports s p sent r ⟨i, hi⟩
  have hrest : a = { b with vol.ports := a.vol.ports } := rfl
  rw [hrest, hports]

/-! ## The fetches (R176, R179) -/

/-- Settles O38. -/
theorem fetchesSend : Obligations.FetchesSend := by
  intro p s hrun hp v body mailbox flags
  have hf := (fetches_iff s p).mpr ⟨hrun, hp⟩
  have hbody : v.mailbox.bytes = body := by
    cases hm : v.mailbox <;> simp only [body, hm] <;> rfl
  have hmailbox : v.mailbox.fetch = mailbox := by
    cases hm : v.mailbox <;> simp only [mailbox, hm] <;> rfl
  have hflags : noticeBytes v.notices = flags := by
    have hhigh : byte (v.notices.toNat / 256 ^ 1) = v.notices.extractLsb' 8 8 :=
      BitVec.eq_of_toNat_eq (by simp [toNat_byte, Nat.shiftRight_eq_div_pow])
    have hlow : byte (v.notices.toNat / 256 ^ 0) = v.notices.extractLsb' 0 8 :=
      BitVec.eq_of_toNat_eq (by simp [toNat_byte])
    show [byte (v.notices.toNat / 256 ^ 1), byte (v.notices.toNat / 256 ^ 0)] = flags
    rw [hhigh, hlow]
  refine ⟨?_, ?_, fun m w sent => ?_⟩
  · show Host.Outcome.next (if s.fetches p then _ else _) = _
    rw [if_pos hf, ← hbody, ← hmailbox]
    rfl
  · show Host.Outcome.next (if s.fetches p then _ else _) = _
    rw [if_pos hf, ← hflags]
    rfl
  · have hport : ∀ t : PortState, ((s.setPort p t).drive).port p = { t with attn := (s.setPort p t).attnLevel p.ix } := fun t => by
      rw [State.port_drive, State.port_setPort, if_pos rfl]
    refine ⟨by rw [hport], by rw [hport], by rw [hport], rfl, ?_⟩
    rw [hport]
    refine (attnLevel_iff _ p).trans ?_
    rw [State.port_setPort, if_pos rfl]
    exact ⟨fun h => h.2.2, fun h => ⟨running_resetHeld hrun, hp, h⟩⟩

/-! ## Transactions byte by byte (R173, R188) -/

theorem undecodedRequest_sent (p : Port) (bytes : List Byte) (s : State) :
    exec (.undecodedRequest p ⟨bytes, false⟩) s = .next (bytes.foldl (State.clockByte p) s) := rfl

/-- A transaction that is no REQUEST ends without effect. -/
theorem releaseSelect_other {p : Port} {s : State} (h : ∀ got, (s.port p).reception ≠ .receiving got) :
    releaseSelect p s = .next (s.setReception p .idle) := by
  unfold releaseSelect
  split
  · next hr => exact absurd hr (h _)
  · rfl

/-- The bytes that a port takes which takes no transactions. -/
theorem clockBytes_ignored {p : Port} {s : State} (hf : s.fetches p = false) (b : Byte) (bytes : List Byte) :
    (b :: bytes).foldl (State.clockByte p) s = s.setReception p .discarded := by
  rw [List.foldl_cons, State.clockByte, hf, if_neg Bool.false_ne_true]
  exact State.clockBytes_discarded p bytes _ (by simp)

/-- The first byte of a transaction. -/
theorem clockByte_idle {p : Port} {s : State} (hf : s.fetches p = true) (hidle : (s.port p).reception = .idle)
    (kind : Byte) : s.clockByte p kind = s.kindByte p kind := by
  unfold State.clockByte
  rw [if_pos hf, hidle]

theorem kindByte_other {p : Port} (s : State) {kind : Byte} (h1 : kind ≠ 1) (h2 : kind ≠ 2) (h3 : kind ≠ 3) :
    s.kindByte p kind = s.setReception p .discarded := by
  unfold State.kindByte
  dsimp only
  split
  · next h => exact absurd (BitVec.eq_of_toNat_eq h) h1
  · next h => exact absurd (BitVec.eq_of_toNat_eq h) h2
  · next h => exact absurd (BitVec.eq_of_toNat_eq h) h3
  · rfl

/-- A port in a fetch: the copy taken, `sent` of it sent and `rest` still to be sent. -/
def State.fetching (s : State) (p : Port) (u : PortState) (sent rest : List Byte) : State :=
  (s.setPort p { u with sent := sent, reception := .sending rest }).drive

theorem State.port_fetching (s : State) (p : Port) (u : PortState) (sent rest : List Byte) :
    ((s.fetching p u sent rest).port p).reception = .sending rest ∧ ((s.fetching p u sent rest).port p).sent = sent := by
  rw [State.fetching, State.port_drive, State.port_setPort, if_pos rfl]
  exact ⟨rfl, rfl⟩

/-- A transaction at a port in a fetch is written. -/
theorem State.fetching_setPort (s : State) (p : Port) (u : PortState) (sent rest sent' : List Byte) (r : Reception) :
    (s.fetching p u sent rest).setPort p { (s.fetching p u sent rest).port p with sent := sent', reception := r } =
      (s.setPort p { u with sent := sent', reception := r }).drive := by
  rw [State.fetching, State.setPort_drive, State.port_setPort, if_pos rfl, State.setPort_setPort]

theorem State.fetching_setReception (s : State) (p : Port) (u : PortState) (sent rest : List Byte) (r : Reception) :
    (s.fetching p u sent rest).setReception p r = (s.setPort p { u with sent := sent, reception := r }).drive := by
  obtain ⟨-, hsent⟩ := s.port_fetching p u sent rest
  rw [← s.fetching_setPort p u sent rest sent r, State.setReception]
  congr 1
  rw [PortState.mk.injEq]
  exact ⟨rfl, rfl, rfl, rfl, hsent⟩

/-- The bytes of a fetch take the copy one by one. -/
theorem clockBytes_fetching {s : State} {p : Port} (hf : s.fetches p = true) (u : PortState) (bytes : List Byte) :
    ∀ sent rest : List Byte, bytes.foldl (State.clockByte p) (s.fetching p u sent rest) =
      s.fetching p u (sent ++ rest.take bytes.length) (rest.drop bytes.length) := by
  induction bytes with
  | nil => intro sent rest; simp
  | cons b bytes ih =>
    intro sent rest
    obtain ⟨hrest, hsent⟩ := s.port_fetching p u sent rest
    have hfetches : (s.fetching p u sent rest).fetches p = true := hf
    rw [List.foldl_cons]
    cases rest with
    | nil =>
      have hstill : (s.fetching p u sent []).clockByte p b = s.fetching p u sent [] := by
        unfold State.clockByte
        rw [if_pos hfetches, hrest]
      rw [hstill, ih]
      simp
    | cons c rest =>
      have hnext : (s.fetching p u sent (c :: rest)).clockByte p b = s.fetching p u (sent ++ [c]) rest := by
        unfold State.clockByte
        rw [if_pos hfetches, hrest]
        dsimp only
        rw [hsent]
        exact s.fetching_setPort p u sent (c :: rest) (sent ++ [c]) (.sending rest)
      rw [hnext, ih]
      simp

/-- The kind byte of a fetch takes the copy. -/
theorem kindByte_fetch {s : State} {p : Port} {kind : Byte} {copy : List Byte} {u : PortState}
    (h : kind = 2 ∧ copy = withCrc (s.port p).mailbox.bytes ∧ u = { s.port p with mailbox := (s.port p).mailbox.fetch } ∨
      kind = 3 ∧ copy = withCrc (noticeBytes (s.port p).notices) ∧ u = { s.port p with notices := 0 }) :
    s.kindByte p kind = s.fetching p u [] copy := by
  obtain ⟨rfl, rfl, rfl⟩ | ⟨rfl, rfl, rfl⟩ := h <;> rfl

/-- The whole of a fetch is the command of that name. -/
theorem exec_fetch {s : State} {p : Port} (hf : s.fetches p = true) {kind : Byte} {copy : List Byte} {u : PortState}
    (h : kind = 2 ∧ copy = withCrc (s.port p).mailbox.bytes ∧ u = { s.port p with mailbox := (s.port p).mailbox.fetch } ∨
      kind = 3 ∧ copy = withCrc (noticeBytes (s.port p).notices) ∧ u = { s.port p with notices := 0 }) :
    (if kind = 2 then exec (.fetchReply p) s else exec (.fetchNotices p) s) =
      .next (s.setPort p { u with sent := copy, reception := .idle }).drive := by
  obtain ⟨rfl, rfl, rfl⟩ | ⟨rfl, rfl, rfl⟩ := h
  · rw [if_pos rfl]
    show Host.Outcome.next (if s.fetches p then _ else _) = _
    rw [if_pos hf]
    rfl
  · rw [if_neg (by decide)]
    show Host.Outcome.next (if s.fetches p then _ else _) = _
    rw [if_pos hf]
    rfl

/-- Settles O37: a transaction by its kind byte, then by induction on its bytes. -/
theorem transactionsByKind : Obligations.TransactionsByKind := by
  intro p s v send
  refine ⟨fun a b r => ⟨a.foldl (State.clockByte p) s, rfl, ?_⟩, fun hoff b bytes => ?_, fun hrun hp => ⟨fun hidle => ?_, ?_⟩, ?_⟩
  · show execUndecodedRequest p ⟨a ++ b, r⟩ s = execUndecodedRequest p ⟨b, r⟩ _
    unfold execUndecodedRequest
    rw [List.foldl_append]
  · have hf : s.fetches p = false := by
      rw [← Bool.not_eq_true, fetches_iff]
      rintro ⟨hrun, hp⟩
      rw [hrun, hp] at hoff
      exact hoff.elim nofun nofun
    exact ⟨congrArg _ (clockBytes_ignored hf b bytes), undecodedRequest_ignored hf b bytes⟩
  · have hf := (fetches_iff s p).mpr ⟨hrun, hp⟩
    have hstill : s.setReception p .idle = s := State.setReception_self hidle
    refine ⟨fun released => ?_, fun kind bytes h1 h2 h3 => ?_, fun bytes => ?_, fun kind copy u h bytes => ?_⟩
    · cases released with
      | false => rfl
      | true => exact (releaseSelect_other fun _ hr => nomatch hidle.symm.trans hr).trans (congrArg _ hstill)
    · have hall : (kind :: bytes).foldl (State.clockByte p) s = s.setReception p .discarded := by
        rw [List.foldl_cons, clockByte_idle hf hidle, kindByte_other s h1 h2 h3,
          State.clockBytes_discarded p bytes _ (by simp)]
      refine ⟨congrArg _ hall, ?_⟩
      show exec (.undecodedRequest p ⟨kind :: bytes, true⟩) s = _
      rw [undecodedRequest_released, hall, releaseSelect_other (by simp), State.setReception_setReception, hstill]
    · show exec (.undecodedRequest p ⟨1 :: bytes, false⟩) s = .next (s.setReception p (.receiving bytes))
      rw [undecodedRequest_sent, List.foldl_cons, clockByte_idle hf hidle]
      show Host.Outcome.next (bytes.foldl (State.clockByte p) (s.setReception p (.receiving []))) = _
      rw [State.clockBytes_receiving p bytes _ [] (by simpa using hf) (by simp), State.setReception_setReception,
        List.nil_append]
    · have hall : (kind :: bytes).foldl (State.clockByte p) s =
          s.fetching p u (copy.take bytes.length) (copy.drop bytes.length) := by
        rw [List.foldl_cons, clockByte_idle hf hidle, kindByte_fetch h, clockBytes_fetching hf, List.nil_append]
      have hreleased : send (kind :: bytes) true s =
          .next (s.setPort p { u with sent := copy.take bytes.length, reception := .idle }).drive := by
        obtain ⟨hrest, -⟩ := s.port_fetching p u (copy.take bytes.length) (copy.drop bytes.length)
        show exec (.undecodedRequest p ⟨kind :: bytes, true⟩) s = _
        rw [undecodedRequest_released, hall, releaseSelect_other (by simp [hrest]), State.fetching_setReception]
      refine ⟨congrArg _ hall, hreleased, fun hlength => ?_⟩
      rw [exec_fetch hf h, hreleased, List.take_of_length_le hlength]
  · intro hdiscarded bytes
    have hall := State.clockBytes_discarded p bytes s hdiscarded
    refine ⟨congrArg _ hall, ?_⟩
    show exec (.undecodedRequest p ⟨bytes, true⟩) s = _
    rw [undecodedRequest_released, hall, releaseSelect_other fun _ hr => nomatch hdiscarded.symm.trans hr]
    rfl
  · show (if (s.supplyOn && s.enabled p) = true then _ else none) = _
    simp only [Bool.and_eq_true] <;> rfl

end Sys2Proof.Machine

/-! PROOFS. The commands after which nothing follows but the commit and the lines (R95, R9, R13, R135, R146, R151, R167, R169),
and those whose only followers are the shared ones (R10, R136). -/
namespace Sys2Proof.Machine

/-! ## The machine's step -/

/-- Settles O50. -/
theorem stepRunsFront : Obligations.StepRunsFront := fun _ _ _ => ⟨rfl, rfl⟩

/-! ## OPEN (R151) -/

theorem openEvent_eq (x : PosIx) (s : State) :
    openEvent x s = ((s.setPos x { s.pos x with window := true }).setChan x
      (if (s.pos x).mode = .off then { s.chan x with aeCount := 0, powerCount := 0 }
        else (s.chan x).watch (s.mountedFigures x).blank)).commit.drive := by
  refine finish_quiet ?_ rfl rfl
  rw [Ev.touched_upd, Ev.touched_updPos_of_same, Ev.touched_start]
  exact Position.sameForHandOff_window _ true

theorem openBody_num {n : Station} {sl : Slot} {s : State} (hw : (s.pos (posAt n sl)).window = false)
    (hv : (s.pos (posAt n sl)).service = .serving ∨ (s.pos (posAt n sl)).service = .due) :
    openBody n sl.num s = .ok (openEvent (posAt n sl) s, (openEvent (posAt n sl) s).positionRecord (posAt n sl)) := by
  have hv' : ¬ ((s.pos (posAt n sl)).service ≠ .serving ∧ (s.pos (posAt n sl)).service ≠ .due) := by tauto
  simp only [openBody, slotOperand_num, hw, Bool.false_eq_true, if_false, if_neg hv']

/-- Settles O5. -/
theorem openStartsChannel : Obligations.OpenStartsChannel := by
  intro n sl s hl x p c hw hv c' t
  have ht : openEvent x s = t := openEvent_eq x s
  show serve (.station n) 2 (openBody n sl.num s) s = _
  rw [openBody_num hw hv, ht, serve_accepted hl]

/-! ## MONITOR SET (R167, R168) -/

theorem Position.sameForHandOff_settings (p : Position) (m : Mode) (t l c : Nat) :
    p.sameForHandOff { p with mode := m, retryTime := t, retryLimit := l, retryCount := c } = true := by
  simp [Position.sameForHandOff]

/-- The channel after a MONITOR SET: it changes only with the mode, under an open window, outside a hold. -/
def monitoredChannel (s : State) (x : PosIx) (m : Mode) : Channel :=
  if (s.pos x).mode = m ∨ (s.pos x).service = .held ∨ (s.pos x).window = false then s.chan x
  else if m = .off then (s.chan x).idle
  else (s.chan x).watch (s.mountedFigures x).blank

theorem State.setChan_self (s : State) (x : PosIx) : s.setChan x (s.chan x) = s := by
  have h : s.vol.channels.set x (s.chan x) = s.vol.channels := by
    ext i hi : 1
    simp only [Vector.getElem_set, State.chan]
    split
    · next h => subst h; rfl
    · rfl
  unfold State.setChan
  rw [h]

theorem monitorEvent_eq (x : PosIx) (m : Mode) (t l : Nat) (s : State) :
    monitorEvent x m t l s = ((s.setPos x { s.pos x with
      mode := m, retryTime := t, retryLimit := l, retryCount := min l (s.pos x).retryCount }).setChan x
      (monitoredChannel s x m)).commit.drive := by
  set u := s.setPos x { s.pos x with
      mode := m, retryTime := t, retryLimit := l, retryCount := min l (s.pos x).retryCount } with hu
  have hpos : u.pos x = { s.pos x with
      mode := m, retryTime := t, retryLimit := l, retryCount := min l (s.pos x).retryCount } := by simp [hu]
  have hchan : u.chan x = s.chan x := rfl
  have hfigures : u.mountedFigures x = s.mountedFigures x := by
    simp [State.mountedFigures, State.mountedTool, hu]
  have hm : (if (s.pos x).mode = m then u else u.changeMode x) = u.setChan x (monitoredChannel s x m) := by
    by_cases hmode : (s.pos x).mode = m
    · simp only [monitoredChannel, hmode, true_or, if_true, ← hchan, State.setChan_self]
    · simp only [monitoredChannel, State.changeMode, State.restartChannel, hmode, false_or, if_false, hpos, hfigures, hchan]
      by_cases hheld : (s.pos x).service = .held
      · simp only [hheld, true_or, if_true, ← hchan, State.setChan_self]
      · cases hw : (s.pos x).window with
        | false => simp [hheld, ← hchan, State.setChan_self]
        | true =>
          by_cases hoff : m = .off <;> simp [hheld, hoff]
  have hfinish : monitorEvent x m t l s = State.drive (State.commit (if (s.pos x).mode = m then u else u.changeMode x)) := by
    refine finish_quiet ?_ ?_ ?_
    · rw [Ev.touched_upd, Ev.touched_updPos_of_same, Ev.touched_start]
      exact Position.sameForHandOff_settings _ m t l _
    · show (if (s.pos x).mode = m then u else u.changeMode x).ret.queue = _
      rw [hm]
      rfl
    · show (if (s.pos x).mode = m then u else u.changeMode x).ret.pockets = _
      rw [hm]
      rfl
  rw [hfinish, hm]

/-- Settles O9. -/
theorem monitorSetStores : Obligations.MonitorSetStores := by
  intro x md r l s hl hx hr hl1 hl7 p c c' t
  have ht : monitorEvent x md r l s = t := monitorEvent_eq x md r l s
  have hgood : ¬ (goodRetryTime r = false ∨ l = 0 ∨ 7 < l) := by
    rintro (h | h | h)
    · simp only [goodRetryTime, Bool.or_eq_false_iff, decide_eq_false_iff_not] at h
      omega
    · omega
    · omega
  have hbody : monitorBody x.val md.num r l s = .ok (t, t.positionRecord x) := by
    simp only [monitorBody, presentOperand_val hx, modeOperand_num, if_neg hgood, ht]
  show serve .ps 39 (monitorBody x.val md.num r l s) s = _
  rw [hbody, serve_accepted hl]

/-! ## TYPE SET (R9 to R12) -/

theorem typeSetBody_succ {k : TypeIx} {f : TypeSetOperands} {s : State} (hf : typeSetInRange f = true)
    (h : s.inUse k = false ∨ s.edits k f = true) :
    typeSetBody (k.val + 1) f s = .ok (typeSetEvent k f s, (typeSetEvent k f s).typeResult k) := by
  have huse : ¬ (s.inUse k = true ∧ s.edits k f = false) := by
    rintro ⟨hin, hed⟩
    rcases h with h | h
    · rw [hin] at h; cases h
    · rw [hed] at h; cases h
  simp only [typeSetBody, typeOperand_succ, hf, Bool.true_eq_false, if_false, if_neg huse]

theorem clampDeglitch_eq (d : Nat) : clampDeglitch d = if d = 0 then 1 else min 64 d := by
  unfold clampDeglitch
  split_ifs with h
  · omega
  · omega

/-- The record of a definition, with the bits of the type flags. -/
theorem definedRecord_eq (f : TypeSetOperands) : definedRecord f = {
      kind := if f.flags.testBit 0 then .dresser else .wheel
      dnew := f.dnew
      dscrap := f.dnew - f.ddiff
      lnew := 5 * f.ddiff
      dd := f.dd
      wp := f.wp
      ppd := f.ppd
      rchg := f.rchg
      stage := f.stage
      pmin := f.pmin
      policy := if f.flags.testBit 1 then .mostFirst else .leastFirst
      k := min 16 f.k
      z := f.z
      g := f.g
      aeLimit := f.aeLimit
      powerLimit := f.powerLimit
      blank := f.blank
      deglitch := if f.deglitch = 0 then 1 else min 64 f.deglitch
      factor := if f.flags.testBit 2 then f.factor else 1000
      learnCount := 0 } := by
  rw [definedRecord, kindOf_eq, policyOf_eq, givesFactor_eq, clampDeglitch_eq]
  rfl

theorem editedRecord_eq (f : TypeSetOperands) (old : TypeRec) : editedRecord f old = { definedRecord f with
      kind := old.kind
      dnew := old.dnew
      dscrap := old.dscrap
      lnew := old.lnew
      factor := if f.flags.testBit 2 then f.factor else old.factor
      learnCount := if f.flags.testBit 2 then 0 else old.learnCount } := by
  rw [editedRecord, givesFactor_eq]

/-- A definition touches no field of R95, no order and no pocket. -/
theorem typeSetEvent_define {k : TypeIx} {f : TypeSetOperands} {s : State} (h : s.edits k f = false) :
    typeSetEvent k f s = (s.setType k (some (definedRecord f))).commit.drive := by
  rw [typeSetEvent, if_neg (by rw [h]; exact Bool.false_ne_true)]
  exact finish_quiet rfl rfl rfl

/-- Settles O10. -/
theorem typeSetDefines : Obligations.TypeSetDefines := by
  intro k f s hl hf htools hreq hold t
  have hfree : s.inUse k = false := (inUse_eq_false_iff s k).mpr ⟨htools, hreq⟩
  have hdef := edits_eq_false hold
  have ht : typeSetEvent k f s = t := by rw [typeSetEvent_define hdef, definedRecord_eq]
  show serve .ps 32 (typeSetBody (k.val + 1) f s) s = _
  rw [typeSetBody_succ hf (.inl hfree), ht, serve_accepted hl]

/-- Settles O11: an edit is the new record, then the wear triggers and the work that follows them. -/
theorem typeSetEdits : Obligations.TypeSetEdits := by
  intro k f s old hl hf htyp hkind hdnew hdscrap m
  have hedit := edits_of_some (f := f) htyp ⟨hkind, hdnew, hdscrap⟩
  have hm : ((Ev.start s).upd fun s => s.setType k ((s.typ k).map (editedRecord f))).st = m := by
    show s.setType k ((s.typ k).map (editedRecord f)) = m
    rw [htyp, Option.map_some, editedRecord_eq, definedRecord_eq]
  have hsettles : Settles (wearAll k none m) (typeSetEvent k f s) := by
    rw [typeSetEvent, if_pos hedit]
    refine settles_finish (Follows.trans ?_ (Ev.follows_arbitrateIfWaited _ _))
    rw [← hm]
    exact Ev.follows_reevaluate k none _
  show ∃ t, serve .ps 32 (typeSetBody (k.val + 1) f s) s = _ ∧ _
  rw [typeSetBody_succ hf (.inr hedit)]
  exact serve_ok hl (result := fun t => t.typeResult k) hsettles

/-! ## ROUTE SET (R146, R156) -/

theorem routeOperand_none {g : Nat} (hg : g ≤ 1) (s : State) : s.routeOperand 255 g = some none := by
  unfold State.routeOperand
  cases hsig : signalOperand g with
  | none =>
    obtain rfl | rfl : g = 0 ∨ g = 1 := by omega
    · cases hsig
    · cases hsig
  | some sig => rfl

theorem routeEvent_eq (h : HwSlot) (t : Option Target) (s : State) :
    routeEvent h t s = (((s.setRoute h t).clearDeglitch (s.route h)).clearDeglitch t).commit.drive := by
  have hret : ∀ (u : State) (g : Option Target), (u.clearDeglitch g).ret = u.ret := by
    intro u g
    unfold State.clearDeglitch
    split
    · rfl
    · split <;> rfl
  refine finish_quiet rfl ?_ ?_
  · show (((s.setRoute h t).clearDeglitch (s.route h)).clearDeglitch t).ret.queue = _
    rw [hret, hret]
    rfl
  · show (((s.setRoute h t).clearDeglitch (s.route h)).clearDeglitch t).ret.pockets = _
    rw [hret, hret]
    rfl

/-- Settles O18. -/
theorem routeSetReplaces : Obligations.RouteSetReplaces := by
  intro h v g to_ s hl hgiven silence t
  have hsilence : ∀ (o : Option Target) (u : State), silence o u = u.clearDeglitch o := by
    intro o u
    cases o with
    | none => rfl
    | some o =>
      obtain ⟨y, signal⟩ := o
      cases signal with
      | ae => rfl
      | power => rfl
  have hoperand : s.routeOperand v g = some to_ ∧ s.routedElsewhere h to_ = false := by
    cases to_ with
    | none =>
      obtain ⟨rfl, hg⟩ := hgiven
      exact ⟨routeOperand_none hg s, rfl⟩
    | some o =>
      obtain ⟨rfl, rfl, hx, hroutes⟩ := hgiven
      refine ⟨routeOperand_target hx o.signal, Bool.eq_false_iff.mpr fun helse => ?_⟩
      obtain ⟨k, hk, hroute⟩ := (routedElsewhere_iff s h o).mp helse
      exact hroutes k hk hroute
  have ht : (if s.route h = to_ then s else routeEvent h to_ s) = t := by
    simp only [t, hsilence, routeEvent_eq]
  have hbody : routeBody h.val v g s = .ok (t, t.routeTable) := by
    simp only [routeBody, hwSlotOperand_val, hoperand.1, hoperand.2, Bool.false_eq_true, if_false, ht]
  show serve .ps 41 (routeBody h.val v g s) s = _
  rw [hbody, serve_accepted hl]

/-! ## TIMEOUT SET, CLEAR RETRIES and RESUME (R135, R136, R169) -/

theorem timeoutEvent_eq (n : Nat) (s : State) :
    timeoutEvent n s = (State.commit { s with ret.timeout := n }).drive := finish_quiet rfl rfl rfl

theorem Position.sameForHandOff_retryCount (p : Position) (n : Nat) : p.sameForHandOff { p with retryCount := n } = true := by
  simp [Position.sameForHandOff]

theorem clearRetriesEvent_eq (x : PosIx) (s : State) :
    clearRetriesEvent x s = (s.setPos x { s.pos x with retryCount := 0 }).commit.drive :=
  finish_quiet (Ev.touched_updPos_of_same (Position.sameForHandOff_retryCount _ 0)) rfl rfl

theorem Ev.follows_arbitrateFor (x : PosIx) (e : Ev) : Follows e.st (e.arbitrateFor x).st := by
  unfold Ev.arbitrateFor
  split
  · split
    · exact Ev.follows_arbitrate _ e
    · exact Follows.refl _
  · exact Follows.refl _

/-- Settles O19. -/
theorem settingsAreStored : Obligations.SettingsAreStored := by
  intro s hl
  refine ⟨fun n hlow hhigh => ?_, fun x hx => ⟨?_, fun hsus => ?_⟩⟩
  · have hin : ¬ (n < 30 ∨ 1800 < n) := by omega
    show serve .ps 42 (timeoutBody n s) s = _
    rw [timeoutBody, if_neg hin, timeoutEvent_eq, serve_accepted hl]
  · show serve .ps 40 (clearRetriesBody x.val s) s = _
    simp only [clearRetriesBody, presentOperand_val hx]
    rw [clearRetriesEvent_eq, serve_accepted hl]
  · have hbody : resumeBody x.val s = .ok (resumeEvent x s, (resumeEvent x s).positionRecord x) := by
      simp only [resumeBody, presentOperand_val hx, hsus, if_true]
    show ∃ t, serve .ps 43 (resumeBody x.val s) s = _ ∧ _
    rw [hbody]
    exact serve_ok hl (result := fun t => t.positionRecord x)
      (settles_finish ((Ev.follows_arbitrateFor x
        ((Ev.start s).updPos x fun p => { p with suspended := false, failed := 0 })).trans (Ev.follows_needTest x _)))

/-! ## The count (R189) -/

theorem lossExpiry_of_ne {s : State} (h : s.vol.lossDeadline ≠ some s.vol.ms) : lossExpiry s = s := if_neg h

theorem expiring_eq_some_iff (s : State) (o : Order) :
    s.expiring = some o ↔ s.busyOrder = some o ∧ s.vol.swapDeadline = some s.vol.ms := by
  unfold State.expiring
  split
  · next d q hd hq =>
    rw [hq, hd]
    split_ifs with h
    · simp [h]
    · simp [h]
  · next hnone =>
    constructor
    · intro h
      cases h
    · rintro ⟨hq, hd⟩
      exact absurd hq (hnone _ _ hd)

theorem swapExpiry_of_ne {s : State} (h : s.busyOrder ≠ none → s.vol.swapDeadline ≠ some s.vol.ms) :
    swapExpiry s = s := by
  unfold swapExpiry
  split
  · next o ho =>
    obtain ⟨hbusy, hdeadline⟩ := (expiring_eq_some_iff s o).mp ho
    exact absurd hdeadline (h (by simp [hbusy]))
  · rfl

theorem retryExpiry_of_ne {s : State} {x : PosIx} (h : (s.chan x).retryTimer ≠ some s.vol.ms) : retryExpiry x s = s := by
  refine if_neg fun hdue => ?_
  simp only [State.retryDue, Bool.and_eq_true, decide_eq_true_eq] at hdue
  exact h hdue.1.1.2

/-- Where the count has reached nothing, no expiry is taken. -/
theorem takeExpiries_of_ne {s : State} (hloss : s.vol.lossDeadline ≠ some s.vol.ms)
    (hswap : s.busyOrder ≠ none → s.vol.swapDeadline ≠ some s.vol.ms)
    (hretry : ∀ x, (s.chan x).retryTimer ≠ some s.vol.ms) : takeExpiries s = s := by
  have hfold : ∀ l : List PosIx, l.foldl (fun s x => retryExpiry x s) s = s := by
    intro l
    induction l with
    | nil => rfl
    | cons x l ih => rw [List.foldl_cons, retryExpiry_of_ne (hretry x), ih]
  rw [takeExpiries, lossExpiry_of_ne hloss, swapExpiry_of_ne hswap, hfold]

end Sys2Proof.Machine

/-! PROOFS. The cold state and its laws, the starts that reach it, the RESET input and the supplies (R40 to R44). -/
namespace Sys2Proof.Machine

/-! ## The cold state (R42) -/

theorem standing_of_cold {s : State} (h : s.ret = Retained.cold) : s.standing = [] := by
  rw [State.standing, h]
  rfl

/-- With no tool, no order and every place empty there is nothing to disagree. -/
theorem cellLaw_of_cold {s : State} (h : s.ret = Retained.cold) : CellLaw s := by
  have hpos := pos_of_cold h
  have htool := tool_of_cold h
  have hpocket := pocket_of_cold h
  have hstanding := standing_of_cold h
  constructor
  case places =>
    refine ⟨fun i t ht => ?_, fun k i hk => ?_, fun x i hx => ?_, fun x i hx => ?_⟩
    · rw [htool] at ht; cases ht
    · rw [hpocket] at hk; cases hk
    · rw [hpos] at hx; cases hx
    · rw [hpos] at hx; cases hx
  case moving =>
    intro i t ht
    rw [htool] at ht; cases ht
  case promises =>
    refine ⟨fun i t ht => ?_, fun x i hx => ?_, fun x => ?_, fun x hx => ?_, fun i t ht => ?_⟩
    · rw [htool] at ht; cases ht
    · rw [hpos] at hx; cases hx
    · rw [hpos]; simp [Position.cold]
    · rw [hpos] at hx; exact absurd rfl hx
    · rw [htool] at ht; cases ht
  case needs =>
    intro x i hi
    rw [hpos] at hi; cases hi
  case spindles =>
    intro x
    rw [hpos, hstanding]
    simp [Position.cold]
  case bookings =>
    refine ⟨fun o ho => ?_, fun x n hx => ?_, fun x n hx => ?_, fun k n hk => ?_⟩
    · rw [hstanding] at ho; cases ho
    · rw [hpos] at hx; cases hx
    · rw [hpos] at hx; cases hx
    · rw [hpocket] at hk; cases hk
  case orders =>
    refine ⟨fun o ho => ?_, fun i o ho => ?_⟩
    · rw [hstanding] at ho; cases ho
    · rw [hstanding] at ho; cases ho
  case returns =>
    intro x hx
    rw [hpos] at hx; cases hx
  case exchanges =>
    intro o ho
    rw [hstanding] at ho; cases ho

theorem lineLaw_reset : LineLaw State.reset := by
  refine ⟨fun n => ?_, fun q => ?_⟩
  · have hlevel : State.reset.inhibit[n] = false := by simp [State.reset]
    have hpos : ∀ sl, (State.reset.pos (posAt n sl)).service ≠ .held := fun sl => by
      rw [pos_of_cold rfl]
      nofun
    rw [hlevel]
    exact ⟨nofun, fun h => h.elim nofun fun ⟨sl, hsl⟩ => absurd hsl (hpos sl)⟩
  · by_cases hq : q = .ps
    · subst hq
      exact ⟨fun _ => ⟨rfl, rfl, .inr (by decide)⟩, fun _ => rfl⟩
    · have hport : State.reset.port q = PortState.start := by
        have hne : (5 : Nat) ≠ q.ix := fun h => hq (Port.ix_inj.mp (Fin.ext h.symm))
        simp [State.port, State.reset, Volatile.start, hne]
      rw [hport]
      exact ⟨nofun, fun ⟨_, _, h⟩ => h.elim (fun ⟨_, hr⟩ => nomatch hr) fun hn => absurd rfl hn⟩

/-- Settles O51. -/
theorem resetIsColdAndLawful : Obligations.ResetIsColdAndLawful := by
  have hret : State.reset.ret = Retained.cold := rfl
  have hchan : ∀ x, State.reset.chan x = Channel.start := fun x => by
    simp [State.chan, State.reset, Volatile.start]
  obtain ⟨hcatalogue, haccount⟩ := figuresLaw_of_cold hret
  refine ⟨⟨typ_of_cold hret, tool_of_cold hret, pocket_of_cold hret, route_of_cold hret⟩, fun x => ?_,
    ⟨rfl, rfl, rfl, rfl, rfl, rfl⟩, ⟨rfl, rfl, rfl, rfl, rfl, rfl, fun x => ?_⟩, ⟨by decide, by decide, rfl, rfl, rfl⟩,
    rfl, lineLaw_reset, routeLaw_of_cold hret, serialLaw_of_cold hret, hcatalogue, haccount, positionLaw_of_cold hret,
    waitingLaw_of_cold hret, orderLaw_of_cold hret, cellLaw_of_cold hret⟩
  · rw [pos_of_cold hret]
    simp [Position.cold]
  · rw [hchan]
    exact ⟨rfl, rfl⟩

/-- The power-on start is cold without a latch, a marker and a check byte that speak for retained state (R41). -/
theorem startsCold_iff (s : State) :
    s.startsCold = true ↔ s.vbatLatch = true ∨ s.marker = false ∨ s.checkByte ≠ checkByteOf s.ret := by
  simp [State.startsCold, or_assoc]

/-- Settles O33. -/
theorem coldStartResets : Obligations.ColdStartResets := by
  intro pins s hstarted hcold cold
  have hno : ¬ s.started = true := by rw [hstarted]; exact Bool.false_ne_true
  refine ⟨fun hreset => ?_, fun hreset hsupply => ?_⟩
  · have hcold' : State.startsCold { s with supplyOn := true, pins := pins } = true := (startsCold_iff _).mpr hcold
    have hstart : exec (.powerOnStart pins) s = .next (powerOnStart pins { s with supplyOn := true, pins := pins }) := by
      show Host.Outcome.next _ = _
      rw [if_neg hno]
      dsimp only
      rw [if_neg (by rw [hreset]; exact Bool.false_ne_true)]
    rw [hstart, powerOnStart, if_pos hcold']
    rfl
  · have hcold' : State.startsCold { s with resetHeld := false, pins := pins } = true := (startsCold_iff _).mpr hcold
    have hstart : exec (.resetRelease pins) s = .next (powerOnStart pins { s with resetHeld := false, pins := pins }) := by
      show Host.Outcome.next _ = _
      rw [if_pos hreset, releaseStart, if_neg (by rw [hsupply]; nofun), if_neg hno]
    rw [hstart, powerOnStart, if_pos hcold']
    show Host.Outcome.next _ = Host.Outcome.next _
    simp only [coldStart, State.restartVolatile, cold]
    rw [hsupply]

/-! ## The RESET input and the supplies (R40, R41, R44) -/

theorem endReception_endReception (s : State) (p : Port) : (s.endReception p).endReception p = s.endReception p := by
  show (s.setReception p .idle).setReception p .idle = s.setReception p .idle
  rw [State.setReception_setReception]

/-- A port of a part that takes no events: a transaction begins or goes on ignored, or ends. -/
theorem undecodedRequest_not_running {s : State} (hrun : s.running = false) (p : Port) (sent : Transfer) :
    exec (.undecodedRequest p sent) s = .next s ∨ exec (.undecodedRequest p sent) s = .next (s.endReception p) ∨
      exec (.undecodedRequest p sent) s = .next (s.setReception p .discarded) := by
  have hf : s.fetches p = false := by simp [State.fetches, hrun]
  obtain ⟨bytes, released⟩ := sent
  cases bytes with
  | nil =>
    cases released with
    | false => exact .inl rfl
    | true =>
      refine .inr (.inl ?_)
      show releaseSelect p s = _
      unfold releaseSelect
      split
      · next got _ =>
        obtain ⟨code, body, hserve, -⟩ := takeFrame_served p got (s.endReception p)
        have hl : (s.endReception p).listening p = false := by
          have hrun' : (s.endReception p).running = false := hrun
          simp [State.listening, hrun']
        rw [hserve, serve_ignored hl, endReception_endReception]
      · rfl
  | cons b bytes =>
    cases released with
    | false => exact .inr (.inr (congrArg _ (clockBytes_ignored hf b bytes)))
    | true => exact .inr (.inl (undecodedRequest_ignored hf b bytes))

/-- While RESET is held a command other than those of the supplies and of its release at most begins or ends a transaction
that is ignored. -/
theorem exec_resetHeld {s : State} (hreset : s.resetHeld = true) (c : Instr)
    (hstart : ∀ pins, c ≠ .resetRelease pins ∧ c ≠ .powerOnStart pins) (hfail : c ≠ .mainSupplyFail)
    (hlatch : c ≠ .vbatLowLatch) :
    exec c s = .next s ∨ (∃ p, c.port = some p ∧ exec c s = .next (s.endReception p)) ∨
      ∃ p sent, c = .undecodedRequest p sent ∧ exec c s = .next (s.setPort p { s.port p with reception := .discarded }) := by
  have hrun : s.running = false := by simp [State.running, hreset]
  have hnorun : ¬ s.running = true := by rw [hrun]; exact Bool.false_ne_true
  by_cases hc : isRequest c = true
  · obtain ⟨p, hp, -, code, body, hserve, -⟩ := runRequest_served hc (Clearing.anybody_allows c) s
    have hl : s.listening p = false := by simp [State.listening, hrun]
    exact .inr (.inl ⟨p, hp, by rw [hserve, serve_ignored hl]⟩)
  · cases c with
    | undecodedRequest p sent =>
      obtain h | h | h := undecodedRequest_not_running hrun p sent
      · exact .inl h
      · exact .inr (.inl ⟨p, rfl, h⟩)
      · exact .inr (.inr ⟨p, sent, rfl, h⟩)
    | fetchReply p =>
      have hf : ¬ s.fetches p = true := by simp [State.fetches, hrun]
      exact .inr (.inl ⟨p, rfl, congrArg _ (if_neg hf)⟩)
    | fetchNotices p =>
      have hf : ¬ s.fetches p = true := by simp [State.fetches, hrun]
      exact .inr (.inl ⟨p, rfl, congrArg _ (if_neg hf)⟩)
    | wellFormedFrame words => exact .inl (congrArg _ (if_neg hnorun))
    | malformedFrame how => exact .inl (congrArg _ (if_neg hnorun))
    | lossDeadlineReached => exact .inl (congrArg _ (if_neg hnorun))
    | swapDeadlineExpiry => exact .inl (congrArg _ (if_neg hnorun))
    | retryTimerExpiry x => exact .inl (congrArg _ (if_neg hnorun))
    | millisecondTick => exact .inl (congrArg _ (if_neg hnorun))
    | resetAssert => exact .inl (congrArg _ (if_pos hreset))
    | resetRelease pins => exact absurd rfl (hstart pins).1
    | powerOnStart pins => exact absurd rfl (hstart pins).2
    | mainSupplyFail => exact absurd rfl hfail
    | vbatLowLatch => exact absurd rfl hlatch
    | _ => exact absurd rfl hc

theorem Reception.cut_eq (r : Reception) : r.cut = if r = .idle then .idle else .discarded := by
  cases r <;> rfl

theorem State.port_cutReceptions (s : State) (p : Port) :
    s.cutReceptions.port p = { s.port p with reception := (s.port p).reception.cut } := by
  simp [State.cutReceptions, State.port]

theorem State.attnLevel_resetHeld {s : State} (h : s.resetHeld = true) (i : Fin 6) : s.attnLevel i = false := by
  simp [State.attnLevel, h]

/-- Settles O34. -/
theorem resetAndSupplies : Obligations.ResetAndSupplies := by
  intro s
  refine ⟨fun hreset => ?_, exec_resetHeld, ?_, ?_⟩
  · set u : State := { s.cutReceptions with resetHeld := true } with hu
    have hport : ∀ p, u.drive.port p = { s.port p with reception := (s.port p).reception.cut, attn := false } := fun p => by
      rw [State.port_drive, State.attnLevel_resetHeld rfl]
      show { s.cutReceptions.port p with attn := false } = _
      rw [State.port_cutReceptions]
    refine ⟨u.drive, congrArg _ (if_neg (by rw [hreset]; exact Bool.false_ne_true)), rfl, rfl, fun n => ?_, fun p => ?_, rfl⟩
    · have hlevel : u.drive.inhibit[n] = u.inhibitLevel n := by simp [State.drive]
      rw [hlevel]
      exact (inhibitLevel_iff u n).mpr (.inl rfl)
    · rw [hport]
      exact ⟨rfl, rfl, rfl, Reception.cut_eq _, rfl⟩
  · refine ⟨_, rfl, rfl, rfl, rfl, rfl, rfl, rfl, rfl, fun p => ?_⟩
    rw [State.port_drive]
    simp [State.port, Volatile.start, PortState.start]
  · show Host.Outcome.next (if s.supplyOn then s else { s with vbatLatch := true }) = _
    split_ifs with hsupply
    · have hlatch : (s.vbatLatch || !s.supplyOn) = s.vbatLatch := by simp [hsupply]
      rw [hlatch]
    · have hlatch : (s.vbatLatch || !s.supplyOn) = true := by simp [hsupply]
      rw [hlatch]

end Sys2Proof.Machine

/-! PROOFS. The highway: frames, bits and the lock (R139 to R144). -/
namespace Sys2Proof.Machine

/-! ## Delivery (R140, R144) -/

theorem keepSamples_eq (s : State) (words : Vector SampleWord 16) :
    s.keepSamples words = { s with vol.lastSamples := words.map fun w => some (w.getLsbD 15) } := by
  have hflags : (Vector.ofFn fun i => some (sampleValid words[i])) = words.map fun w => some (w.getLsbD 15) := by
    ext i hi
    simp [sampleValid]
  rw [State.keepSamples, hflags]

/-- A delivery is the validity flags, then what every channel takes in position order. -/
theorem settles_deliverEvent (words : Vector SampleWord 16) (s : State) :
    Settles ((List.finRange 12).foldl (fun m x => delivered words x m) (s.keepSamples words)) (deliverEvent words s) :=
  settles_finish (Ev.follows_deliver words (e := (Ev.start s).upd fun s => s.keepSamples words) (Follows.refl _))

theorem exec_wellFormedFrame {s : State} (hrun : s.running = true) (words : Vector SampleWord 16) :
    exec (.wellFormedFrame words) s = .next (wellFormedEvent words { s with vol.line := .complete }) :=
  congrArg _ (if_pos hrun)

theorem wellFormedEvent_locked {s : State} (h : s.vol.lock = .locked) (words : Vector SampleWord 16) :
    wellFormedEvent words s = deliverEvent words s.frameTaken := by
  unfold wellFormedEvent
  dsimp only
  rw [show s.frameTaken.vol.lock = .locked from h]

theorem wellFormedEvent_hunt {s : State} (h : s.vol.lock = .hunt) (words : Vector SampleWord 16) :
    wellFormedEvent words s = if s.vol.lockCount < 3 then s.frameTaken.countLock else deliverEvent words s.frameTaken.lockOn := by
  unfold wellFormedEvent
  dsimp only
  rw [show s.frameTaken.vol.lock = .hunt from h]
  rfl

/-- A frame delivered as one that finds or completes the lock. -/
theorem settles_delivered {s u : State} (words : Vector SampleWord 16) (hu : s.keepSamples words = u) :
    Settles ((List.finRange 12).foldl (fun m x => delivered words x m) u) (deliverEvent words s) := by
  subst hu
  exact settles_deliverEvent words s

/-- Settles O30. -/
theorem wellFormedFrameIsTaken : Obligations.WellFormedFrameIsTaken := by
  intro words s hrun
  have hexec := exec_wellFormedFrame hrun words
  refine ⟨fun hhunt hcount => ?_, fun hlock => ?_⟩
  · have hlow : s.vol.lockCount < 3 := by omega
    rw [hexec, wellFormedEvent_hunt (s := { s with vol.line := .complete }) hhunt words]
    exact congrArg _ (if_pos hlow)
  · intro u
    rw [hexec]
    refine ⟨_, rfl, ?_⟩
    obtain hlocked | ⟨hhunt, hcount⟩ := hlock
    · rw [wellFormedEvent_locked (s := { s with vol.line := .complete }) hlocked words]
      refine settles_delivered words ?_
      rw [keepSamples_eq]
      simp only [u, State.frameTaken, lossInterval, hlocked, if_true]
    · have hno : ¬ s.vol.lockCount < 3 := by omega
      rw [wellFormedEvent_hunt (s := { s with vol.line := .complete }) hhunt words, if_neg hno]
      refine settles_delivered words ?_
      rw [keepSamples_eq]
      simp only [u, State.frameTaken, State.lockOn, lossInterval, hhunt, reduceCtorEq, if_false]

/-! ## Running on -/

theorem running_tripped (x : PosIx) (i : EntryIx) (s : State) : (tripped x i s).running = s.running := by
  unfold tripped
  dsimp only
  split_ifs <;> simp

theorem running_delivered (words : Vector SampleWord 16) (x : PosIx) (s : State) :
    (delivered words x s).running = s.running := by
  unfold delivered
  dsimp only
  split
  · rfl
  · split
    · rfl
    · rfl
    · rfl
    · split
      · rfl
      · split
        · rw [running_tripped]
          rfl
        · rfl

theorem running_deliverEvent (words : Vector SampleWord 16) (s : State) : (deliverEvent words s).running = s.running := by
  have hfold : ∀ (l : List PosIx) (m : State), (l.foldl (fun m x => delivered words x m) m).running = m.running := by
    intro l
    induction l with
    | nil => exact fun _ => rfl
    | cons x l ih => exact fun m => (ih _).trans (running_delivered words x m)
  have hfollows := (settles_deliverEvent words s).1
  rw [State.running, hfollows.supplyOn, hfollows.started, hfollows.resetHeld]
  exact hfold _ _

theorem running_wellFormedEvent (words : Vector SampleWord 16) (s : State) :
    (wellFormedEvent words s).running = s.running := by
  cases hlock : s.vol.lock with
  | locked => rw [wellFormedEvent_locked hlock, running_deliverEvent]; rfl
  | hunt =>
    rw [wellFormedEvent_hunt hlock]
    split
    · rfl
    · rw [running_deliverEvent]; rfl

/-! ## The lock is dropped (R141, R142) -/

theorem stationOpen_iff (s : State) (n : Station) : s.stationOpen n = true ↔
    n.val < s.strap.count ∧ ((s.pos (posAt n .a)).window = true ∨ (s.pos (posAt n .b)).window = true ∨
      (s.pos (posAt n .d)).window = true) := by
  simp [State.stationOpen, positionsAt]

theorem running_foldl_notify (s : State) (l : List Station) (m : State) :
    (l.foldl (fun s' n => if s.stationOpen n then s'.notify (.station n) .blind else s') m).running = m.running := by
  induction l generalizing m with
  | nil => rfl
  | cons n l ih =>
    rw [List.foldl_cons, ih]
    split
    · exact State.running_notify _ _ _
    · rfl

theorem running_dropLock (s : State) : s.dropLock.running = s.running := by
  unfold State.dropLock
  dsimp only
  split
  · unfold State.lockDropNotices
    rw [running_foldl_notify, State.running_notify]
    rfl
  · rfl

theorem running_malformedEvent (s : State) : (malformedEvent s).running = s.running :=
  running_dropLock { s with vol.errors := min 255 (s.vol.errors + 1) }

theorem running_sampleBit (s : State) (b : LineBit) : (s.sampleBit b).running = s.running := by
  unfold State.sampleBit
  dsimp only
  split
  · rfl
  · exact running_malformedEvent _
  · exact running_wellFormedEvent _ _

theorem running_sampleBits (bits : List LineBit) (s : State) : (bits.foldl State.sampleBit s).running = s.running := by
  induction bits generalizing s with
  | nil => rfl
  | cons b bits ih => rw [List.foldl_cons, ih, running_sampleBit]

/-! ## The bits of a frame (R139) -/

theorem exec_malformedFrame {s : State} (hrun : s.running = true) (how : Malformed) :
    exec (.malformedFrame how) s = .next (malformedFrame how s) := congrArg _ (if_pos hrun)

/-- A low bit joins a frame in progress that it does not complete. -/
theorem sampleBit_joins {s : State} {bits : List Bool} (hline : s.vol.line = .receiving bits)
    (hshort : bits.length + 1 < 256) (d : Bool) : s.sampleBit ⟨false, d⟩ = { s with vol.line := .receiving (bits ++ [d]) } := by
  have hlength : (bits ++ [d]).length < frameLength := by simpa [frameLength] using hshort
  simp only [State.sampleBit, hline, HwLine.sample, if_pos hlength]

/-- The low bit that completes a frame. -/
theorem sampleBit_completes {s : State} {bits : List Bool} (hline : s.vol.line = .receiving bits)
    (hfull : 256 ≤ bits.length + 1) (d : Bool) :
    s.sampleBit ⟨false, d⟩ = wellFormedEvent (wordsOf (bits ++ [d])) { s with vol.line := .complete } := by
  have hlength : ¬ (bits ++ [d]).length < frameLength := by simpa [frameLength] using hfull
  simp only [State.sampleBit, hline, HwLine.sample, if_neg hlength]

/-- The low bits that complete a frame in progress. -/
theorem sampleBits_completes {bits : List Bool} (l : List Bool) {s : State} (hline : s.vol.line = .receiving bits)
    (hl : l ≠ []) (hlength : bits.length + l.length = 256) :
    (l.map fun v => (⟨false, v⟩ : LineBit)).foldl State.sampleBit s =
      wellFormedEvent (wordsOf (bits ++ l)) { s with vol.line := .complete } := by
  induction l generalizing s bits with
  | nil => exact absurd rfl hl
  | cons d l ih =>
    rw [List.length_cons] at hlength
    rw [List.map_cons, List.foldl_cons]
    cases l with
    | nil =>
      rw [sampleBit_completes hline (by simpa using hlength.ge)]
      rfl
    | cons v l =>
      rw [List.length_cons] at hlength
      rw [sampleBit_joins hline (by omega), ih (bits := bits ++ [d]) rfl (by simp) (by simp; omega)]
      simp

/-- A sample word from the bits down from its most significant one. -/
theorem foldl_bits (w : SampleWord) (k : Nat) (hk : k ≤ 16) :
    ((List.range k).map fun j => w.getLsbD (15 - j)).foldl (fun n b => 2 * n + b.toNat) 0 = w.toNat / 2 ^ (16 - k) := by
  induction k with
  | zero => simpa using (Nat.div_eq_of_lt w.isLt).symm
  | succ k ih =>
    have hbit : (w.getLsbD (15 - k)).toNat = w.toNat / 2 ^ (15 - k) % 2 := by
      rw [BitVec.getLsbD, Nat.testBit_eq_decide_div_mod_eq]
      rcases Nat.mod_two_eq_zero_or_one (w.toNat / 2 ^ (15 - k)) with h | h <;> simp [h]
    have hhalf : w.toNat / 2 ^ (16 - k) = w.toNat / 2 ^ (15 - k) / 2 := by
      rw [Nat.div_div_eq_div_mul, ← pow_succ]
      congr 2
      omega
    rw [List.range_succ, List.map_append, List.foldl_append, ih (by omega), hhalf]
    simp only [List.map_cons, List.map_nil, List.foldl_cons, List.foldl_nil, hbit]
    have hexp : 16 - (k + 1) = 15 - k := by omega
    rw [hexp]
    omega

theorem wordOf_bits (w : SampleWord) : wordOf ((List.range 16).map fun j => w.getLsbD (15 - j)) = w := by
  rw [wordOf, foldl_bits w 16 le_rfl]
  simp

/-- One block of equal blocks put end to end. -/
theorem take_drop_flatMap {α β : Type} {f : α → List β} {c : Nat} (l : List α) (hf : ∀ a ∈ l, (f a).length = c) (i : Nat)
    (hi : i < l.length) : ((l.flatMap f).drop (c * i)).take c = f l[i] := by
  induction l generalizing i with
  | nil => simp at hi
  | cons a l ih =>
    have ha : (f a).length = c := hf a (by simp)
    rw [List.flatMap_cons]
    cases i with
    | zero => simp [← ha]
    | succ i =>
      have hskip : c * (i + 1) = (f a).length + c * i := by rw [ha]; ring
      rw [hskip, List.drop_length_add_append]
      exact ih (fun b hb => hf b (by simp [hb])) i (by simpa using hi)

theorem wordsOf_bits (words : Vector SampleWord 16) :
    wordsOf ((List.finRange 16).flatMap fun h => (List.range 16).map fun j => words[h].getLsbD (15 - j)) = words := by
  ext i hi : 1
  rw [wordsOf, Vector.getElem_ofFn, take_drop_flatMap _ (fun _ _ => by simp) i (by simpa using hi), wordOf_bits]
  simp

/-! ## The lock is dropped, bit by bit (R139, R141, R142) -/

theorem dropLock_eq {s u : State} (hret : u.ret = s.ret) (hstrap : u.strap = s.strap) :
    u.dropLock =
      if u.vol.lock = .locked then
        (List.finRange 4).foldl (fun m n =>
          if n.val < s.strap.count ∧ ((s.pos (posAt n .a)).window = true ∨ (s.pos (posAt n .b)).window = true ∨
              (s.pos (posAt n .d)).window = true) then m.notify (.station n) .blind
          else m)
          (State.notify { u with vol.lock := .hunt, vol.lockCount := 0, vol.lossDeadline := none } .ps .highway)
      else { u with vol.lock := .hunt, vol.lockCount := 0, vol.lossDeadline := none } := by
  have hopen : ∀ n, u.stationOpen n = true ↔ n.val < s.strap.count ∧ ((s.pos (posAt n .a)).window = true ∨
      (s.pos (posAt n .b)).window = true ∨ (s.pos (posAt n .d)).window = true) := by
    intro n
    have hpos : u.pos = s.pos := by funext x; rw [State.pos, State.pos, hret]
    rw [stationOpen_iff, hstrap, hpos]
  have hnotify : ∀ (m : State) (n : Station), (if n.val < s.strap.count ∧ ((s.pos (posAt n .a)).window = true ∨
      (s.pos (posAt n .b)).window = true ∨ (s.pos (posAt n .d)).window = true) then m.notify (.station n) .blind else m) =
      if u.stationOpen n then m.notify (.station n) .blind else m := by
    intro m n
    by_cases h : u.stationOpen n = true
    · rw [if_pos h, if_pos ((hopen n).mp h)]
    · rw [if_neg h, if_neg (fun hs => h ((hopen n).mpr hs))]
  simp only [hnotify]
  unfold State.dropLock
  cases hlock : u.vol.lock with
  | locked => rfl
  | hunt => rfl

theorem sampleBit_malformed {s : State} {b : LineBit} {l : HwLine} (h : s.vol.line.sample b = (l, some .malformed)) :
    s.sampleBit b = malformedEvent { s with vol.line := l } := by
  simp only [State.sampleBit, h]

theorem sampleBit_none {s : State} {b : LineBit} {l : HwLine} (h : s.vol.line.sample b = (l, none)) :
    s.sampleBit b = { s with vol.line := l } := by
  simp only [State.sampleBit, h]

/-- Settles O31. -/
theorem lockIsDropped : Obligations.LockIsDropped := by
  intro s hrun drop malformed
  have hdrop : ∀ u : State, u.ret = s.ret → u.strap = s.strap → drop u = u.dropLock :=
    fun u hret hstrap => (dropLock_eq hret hstrap).symm
  have hmalformed : ∀ l, malformedEvent { s with vol.line := l } = malformed l := fun l =>
    congrArg State.drive (hdrop { s with vol.errors := min 255 (s.vol.errors + 1), vol.line := l } rfl rfl).symm
  have hexec := exec_malformedFrame hrun
  refine ⟨fun next => ?_, ?_, fun hdue => ?_, fun hnot => ?_, fun d => ?_, fun d => ?_, fun a b => ?_,
    fun words d rest hline hbits => ?_⟩
  · rw [hexec, ← hmalformed]
    rfl
  · rw [hexec, ← hmalformed]
    rfl
  · rw [hdrop s rfl rfl]
    show Host.Outcome.next (if s.running then lossExpiry s else s) = _
    rw [if_pos hrun, lossExpiry, if_pos hdue]
  · show Host.Outcome.next (if s.running then lossExpiry s else s) = _
    rw [if_pos hrun, lossExpiry_of_ne hnot]
  · rw [hexec]
    show Host.Outcome.next (s.sampleBit ⟨true, d⟩) = _
    cases hline : s.vol.line with
    | quiet => exact congrArg _ (sampleBit_none (by rw [hline]; rfl))
    | complete => exact congrArg _ (sampleBit_none (by rw [hline]; rfl))
    | receiving bits => rw [sampleBit_malformed (l := .receiving [d]) (by rw [hline]; rfl), hmalformed]
  · rw [hexec]
    show Host.Outcome.next (s.sampleBit ⟨false, d⟩) = _
    cases hline : s.vol.line with
    | quiet =>
      have hstill : { s with vol.line := .quiet } = s := by rw [← hline]
      rw [sampleBit_none (l := .quiet) (by rw [hline]; rfl), hstill]
    | complete => rw [sampleBit_malformed (l := .quiet) (by rw [hline]; rfl), hmalformed]
    | receiving bits =>
      dsimp only
      split_ifs with hshort
      · rw [sampleBit_joins hline (by omega)]
      · rw [sampleBit_completes hline (by omega), exec_wellFormedFrame hrun]
  · refine ⟨a.foldl State.sampleBit s, hexec _, ?_⟩
    rw [hexec, exec_malformedFrame ((running_sampleBits a s).trans hrun)]
    show Host.Outcome.next ((a ++ b).foldl State.sampleBit s) = .next (b.foldl State.sampleBit (a.foldl State.sampleBit s))
    rw [List.foldl_append]
  · have hlength : rest.length = 255 := by
      have h := congrArg List.length hbits
      simp at h
      omega
    have hfirst : s.sampleBit ⟨true, d⟩ = { s with vol.line := .receiving [d] } := by
      refine sampleBit_none ?_
      cases hl : s.vol.line with
      | quiet => rfl
      | complete => rfl
      | receiving bits => exact absurd hl (hline bits)
    rw [hexec, exec_wellFormedFrame hrun]
    show Host.Outcome.next ((rest.map fun v => (⟨false, v⟩ : LineBit)).foldl State.sampleBit (s.sampleBit ⟨true, d⟩)) = _
    rw [hfirst, sampleBits_completes (bits := [d]) rest rfl (by intro h; simp [h] at hlength) (by simp [hlength]),
      List.singleton_append, hbits, wordsOf_bits]

end Sys2Proof.Machine

/-! PROOFS. The need test and the triggers that lead to it (R56 to R58, R93, R101 to R103), and ASSIGN (R89). -/
namespace Sys2Proof.Machine

/-! ## The tool mounted at a position -/

theorem mountedTool_iff (s : State) (x : PosIx) (i : EntryIx) (u : Tool) : s.mountedTool x = some (i, u) ↔
    (s.pos x).mounted = .entry i ∧ s.tool i = some u ∧ u.state = .mounted := by
  refine ⟨fun h => ?_, fun ⟨hm, ht, hs⟩ => ?_⟩
  · obtain ⟨ht, hs, hm⟩ := mountedTool_tool h
    exact ⟨hm, ht, hs⟩
  · simp [State.mountedTool, hm, ht, hs]

/-- The mounted tool of a position after a change that keeps it MOUNTED. -/
theorem mountedTool_setTool {s : State} {x : PosIx} {i : EntryIx} {u w : Tool} (h : s.mountedTool x = some (i, u))
    (hw : w.state = .mounted) : (s.setTool i (some w)).mountedTool x = some (i, w) := by
  obtain ⟨hm, -, -⟩ := (mountedTool_iff s x i u).mp h
  exact (mountedTool_iff _ _ _ _).mpr ⟨hm, by simp, hw⟩

theorem mountedTool_setTool_other {s : State} {x : PosIx} {i j : EntryIx} {u : Tool} {t : Option Tool}
    (h : s.mountedTool x = some (j, u)) (hij : i ≠ j) : (s.setTool i t).mountedTool x = some (j, u) := by
  obtain ⟨hm, ht, hs⟩ := (mountedTool_iff s x j u).mp h
  exact (mountedTool_iff _ _ _ _).mpr ⟨hm, by simp [hij, ht], hs⟩

theorem mountedTool_setPos {s : State} {x : PosIx} {p : Position} (h : p.mounted = (s.pos x).mounted) :
    (s.setPos x p).mountedTool = s.mountedTool := by
  funext y
  have hm : ((s.setPos x p).pos y).mounted = (s.pos y).mounted := by
    rw [State.pos_setPos]
    split
    · next hy => rw [← hy, h]
    · rfl
  simp only [State.mountedTool, hm, State.tool_setPos]

theorem mountedBroken_eq_any (s : State) (x : PosIx) :
    s.mountedBroken x = (s.mountedTool x).any fun m => decide (m.2.condition = .broken) := by
  unfold State.mountedBroken
  cases s.mountedTool x with
  | none => rfl
  | some m => rfl

theorem mountedCalls_iff (s : State) (x : PosIx) (k : TypeIx) : s.mountedCalls x k = true ↔
    ∃ i u, s.mountedTool x = some (i, u) ∧ (u.type ≠ k ∨ u.condition ≠ .sound ∨ s.partsLeft u ≤ (s.figures k).stage) := by
  unfold State.mountedCalls
  cases hm : s.mountedTool x with
  | none => simp
  | some m =>
    obtain ⟨i, u⟩ := m
    simp [or_assoc, and_assoc]

theorem mayNeed_iff (v : Service) : v.mayNeed = true ↔
    v = .vacant ∨ v = .serving ∨ v = .due ∨ v = .held ∨ v = .released := by
  cases v <;> simp [Service.mayNeed]

/-! ## The need test (R93) -/

/-- The conditions of R93 for a required type. -/
def State.Raises (s : State) (x : PosIx) (k : TypeIx) : Prop :=
  s.present x = true ∧ (s.pos x).need = .noNeed ∧ (s.pos x).suspended = false ∧
    ((s.pos x).service = .vacant ∨
      ((s.pos x).service = .serving ∨ (s.pos x).service = .due ∨ (s.pos x).service = .held ∨
        (s.pos x).service = .released) ∧
        ∃ i u, s.mountedTool x = some (i, u) ∧
          (u.type ≠ k ∨ u.condition ≠ .sound ∨ s.partsLeft u ≤ (s.figures k).stage))

theorem needFor_eq_none {s : State} {x : PosIx} (h : (s.pos x).required = none) : s.needFor x = none := by
  unfold State.needFor
  simp only [h]

theorem needFor_eq {s : State} {x : PosIx} {k : TypeIx} (h : (s.pos x).required = some k) [Decidable (s.Raises x k)] :
    s.needFor x = if s.Raises x k then some k else none := by
  have hcond : (s.present x && decide ((s.pos x).need = .noNeed) && !(s.pos x).suspended && (s.pos x).service.mayNeed &&
      (decide ((s.pos x).service = .vacant) || s.mountedCalls x k)) = true ↔ s.Raises x k := by
    unfold State.Raises
    rw [← mountedCalls_iff]
    simp only [Bool.and_eq_true, Bool.or_eq_true, decide_eq_true_eq, Bool.not_eq_true', mayNeed_iff]
    tauto
  unfold State.needFor
  simp only [h, hcond]

theorem needFor_eq_some {s : State} {x : PosIx} {k : TypeIx} (h : (s.pos x).required = some k) (hr : s.Raises x k) :
    s.needFor x = some k := by
  classical
  rw [needFor_eq h, if_pos hr]

/-- A raised need with an eligible tool. -/
theorem st_raiseNeed_reserved {e : Ev} {x : PosIx} {k : TypeIx} {i : EntryIx} (hi : e.st.choose k = some i) :
    (e.raiseNeed x k).st = { (e.st.setTool i ((e.st.tool i).map fun w =>
      { w with state := .reserved, promised := some x })).setPos x
        { e.st.pos x with need := .reserved, sister := some i, urgent := e.st.mountedBroken x } with
      ret.waiting := e.st.ret.waiting.filter fun y => decide (y ≠ x) } := by
  have hchoose : (e.updPos x (·.setUrgent (e.st.mountedBroken x))).st.choose k = some i := hi
  have hset : ∀ T, ((e.st.setPos x ((e.st.pos x).setUrgent (e.st.mountedBroken x))).setTool i T).setPos x
      (((e.st.setPos x ((e.st.pos x).setUrgent (e.st.mountedBroken x))).pos x).reserve i) =
      (e.st.setTool i T).setPos x
        { e.st.pos x with need := .reserved, sister := some i, urgent := e.st.mountedBroken x } := fun T => by
    rw [State.pos_setPos, if_pos rfl]
    exact State.setPos_setPos (e.st.setTool i T) x _ _
  unfold Ev.raiseNeed
  dsimp only
  rw [hchoose]
  show { ((e.st.setPos x ((e.st.pos x).setUrgent (e.st.mountedBroken x))).setTool i _).setPos x
      (((e.st.setPos x ((e.st.pos x).setUrgent (e.st.mountedBroken x))).pos x).reserve i) with
    ret.waiting := e.st.ret.waiting.filter fun y => decide (y ≠ x) } = _
  rw [hset]
  rfl

theorem filter_ahead_congr {s t : State} {x : PosIx} (h : ∀ y, y ≠ x → (t.pos y).urgent = (s.pos y).urgent) (l : List PosIx) :
    (l.filter (· ≠ x)).takeWhile (fun y => (t.pos y).urgent) = (l.filter (· ≠ x)).takeWhile (fun y => (s.pos y).urgent) ∧
      (l.filter (· ≠ x)).dropWhile (fun y => (t.pos y).urgent) =
        (l.filter (· ≠ x)).dropWhile (fun y => (s.pos y).urgent) := by
  have hmem : ∀ y ∈ l.filter (· ≠ x), (t.pos y).urgent = (s.pos y).urgent := fun y hy =>
    h y (by simpa using (List.mem_filter.mp hy).2)
  generalize l.filter (· ≠ x) = q at hmem
  induction q with
  | nil => exact ⟨rfl, rfl⟩
  | cons y q ih =>
    obtain ⟨htake, hdrop⟩ := ih fun z hz => hmem z (List.mem_cons_of_mem _ hz)
    have hy := hmem y (List.mem_cons_self)
    simp [List.takeWhile_cons, List.dropWhile_cons, hy, htake, hdrop]

/-- A raised need without an eligible tool. -/
theorem st_raiseNeed_waiting {e : Ev} {x : PosIx} {k : TypeIx} (hi : e.st.choose k = none) :
    (e.raiseNeed x k).st =
      State.notify { e.st.setPos x { e.st.pos x with need := .waiting, sister := none, urgent := e.st.mountedBroken x } with
        ret.waiting :=
          if e.st.mountedBroken x then
            (e.st.ret.waiting.filter (· ≠ x)).takeWhile (fun y => (e.st.pos y).urgent) ++
              x :: (e.st.ret.waiting.filter (· ≠ x)).dropWhile (fun y => (e.st.pos y).urgent)
          else e.st.ret.waiting.filter (· ≠ x) ++ [x] } .ps .waiting := by
  have hchoose : (e.updPos x (·.setUrgent (e.st.mountedBroken x))).st.choose k = none := hi
  set p : Position := { e.st.pos x with need := .waiting, sister := none, urgent := e.st.mountedBroken x } with hp
  have hpos : (e.st.setPos x ((e.st.pos x).setUrgent (e.st.mountedBroken x))).setPos x
      (((e.st.setPos x ((e.st.pos x).setUrgent (e.st.mountedBroken x))).pos x).wait) = e.st.setPos x p := by
    rw [State.setPos_setPos, State.pos_setPos, if_pos rfl]
    rfl
  have hahead := filter_ahead_congr (s := e.st) (t := e.st.setPos x p) (x := x)
    (fun y hy => by rw [State.pos_setPos, if_neg (Ne.symm hy)]) e.st.ret.waiting
  have hurgent : ((e.st.setPos x p).pos x).urgent = e.st.mountedBroken x := by simp [hp]
  unfold Ev.raiseNeed
  dsimp only
  rw [hchoose]
  show (((e.st.setPos x ((e.st.pos x).setUrgent (e.st.mountedBroken x))).setPos x
      (((e.st.setPos x ((e.st.pos x).setUrgent (e.st.mountedBroken x))).pos x).wait)).joinWaiting x).notify .ps .waiting = _
  rw [hpos]
  congr 1
  unfold State.joinWaiting
  dsimp only
  rw [hurgent]
  show (if e.st.mountedBroken x = true then
      { e.st.setPos x p with ret.waiting :=
        (e.st.ret.waiting.filter (· ≠ x)).takeWhile (fun y => ((e.st.setPos x p).pos y).urgent) ++
          x :: (e.st.ret.waiting.filter (· ≠ x)).dropWhile (fun y => ((e.st.setPos x p).pos y).urgent) }
    else { e.st.setPos x p with ret.waiting := e.st.ret.waiting.filter (· ≠ x) ++ [x] }) = _
  rw [hahead.1, hahead.2]
  split <;> rfl

/-- A position with a required type that calls for a sister has a need after the need test. -/
theorem Ev.needTest_needs {e : Ev} {x : PosIx} {k : TypeIx} (hk : (e.st.pos x).required = some k)
    (hr : (e.st.pos x).need = .noNeed → e.st.Raises x k) : ((e.needTest x).st.pos x).need ≠ .noNeed := by
  by_cases hneed : (e.st.pos x).need = .noNeed
  · exact (Ev.needTest_raises (needFor_eq_some hk (hr hneed))).1
  · exact ((Ev.follows_needTest x e).needs x hneed).1

/-! ## The triggers (R56 to R58) -/

/-- The state that an operation of an event reaches does not depend on what the event has touched. -/
theorem Ev.needTest_st_congr {e e' : Ev} (h : e.st = e'.st) (x : PosIx) : (e.needTest x).st = (e'.needTest x).st := by
  unfold Ev.needTest
  rw [h]
  cases hk : e'.st.needFor x with
  | none => exact h
  | some k =>
    dsimp only
    cases hi : e'.st.choose k with
    | none => rw [st_raiseNeed_waiting (h ▸ hi), st_raiseNeed_waiting hi, h]
    | some i => rw [st_raiseNeed_reserved (h ▸ hi), st_raiseNeed_reserved hi, h]

/-- The mounted tool of a position after its wear trigger. -/
theorem wearAt_mountedTool {s : State} {x : PosIx} {i : EntryIx} {u : Tool} (h : s.mountedTool x = some (i, u)) :
    (wearAt x s).mountedTool x =
      some (i, if s.partsLeft u = 0 ∧ u.condition = .sound then { u with condition := .worn } else u) := by
  obtain ⟨-, -, hs⟩ := (mountedTool_iff s x i u).mp h
  unfold wearAt
  rw [h]
  dsimp only
  split_ifs with hworn hfinding
  · have hm : ((s.pos x).finding .worn).mounted = (s.pos x).mounted := by
      unfold Position.finding; split <;> rfl
    rw [State.mountedTool_notifySlot, mountedTool_setPos (s := s.setTool i _) hm]
    exact mountedTool_setTool h hs
  · have hm : ((s.pos x).finding .worn).mounted = (s.pos x).mounted := by
      unfold Position.finding; split <;> rfl
    rw [mountedTool_setPos (s := s.setTool i _) hm]
    exact mountedTool_setTool h hs
  · exact h

theorem figures_wearAt (x : PosIx) (s : State) : (wearAt x s).figures = s.figures := by
  unfold wearAt
  split
  · rfl
  · dsimp only
    split_ifs
    · rw [State.figures_notifySlot]; rfl
    · rfl
    · rfl

/-- The triggers of a mounted tool: the wear trigger, then the need test where the stage trigger fires. -/
theorem Ev.st_evalTriggers {e : Ev} {x : PosIx} {i : EntryIx} {u : Tool} (h : e.st.mountedTool x = some (i, u)) :
    (e.evalTriggers x).st =
      if e.st.partsLeft u ≤ (e.st.figures u.type).stage then ((Ev.start (wearAt x e.st)).needTest x).st
      else wearAt x e.st := by
  obtain ⟨-, ht, -⟩ := (mountedTool_iff _ x i u).mp h
  have hwear : (if e.st.partsLeft u = 0 ∧ u.condition = .sound then e.finding x i .worn .worn else e).st = wearAt x e.st := by
    unfold wearAt
    rw [h]
    dsimp only
    split_ifs with hworn hfinding
    · rw [Ev.st_finding x i u _ _ e ht, if_pos hfinding]
    · rw [Ev.st_finding x i u _ _ e ht, if_neg hfinding]
    · rfl
  unfold Ev.evalTriggers
  rw [h]
  dsimp only
  generalize (if e.st.partsLeft u = 0 ∧ u.condition = .sound then e.finding x i .worn .worn else e) = e' at hwear ⊢
  rw [hwear, figures_wearAt]
  split_ifs
  · exact Ev.needTest_st_congr hwear x
  · exact hwear

/-! ## ASSIGN (R89) -/

theorem settled_withdrawn (o : Order) (s : State) (x : PosIx) : ((withdrawn o s).pos x).settled = (s.pos x).settled := by
  have hdrop : (s.dropOrder o.number).pos x = s.pos x := by rw [State.pos_dropOrder]
  unfold withdrawn
  dsimp only
  split
  · rw [State.pos_setPos]
    split
    · next hx =>
      subst hx
      rw [hdrop]
      rfl
    · rw [hdrop]
  · rw [hdrop]

/-- The cancellation of a need changes what the work that follows an event may change, and no more of a position. -/
theorem settled_needCancelled (x : PosIx) (s : State) (y : PosIx) :
    ((needCancelled x s).pos y).settled = (s.pos y).settled := by
  have hclear : ((s.setPos x { s.pos x with need := .noNeed, sister := none, urgent := false }).pos y).settled =
      (s.pos y).settled := by
    rw [State.pos_setPos]
    split
    · next hy =>
      subst hy
      rfl
    · rfl
  unfold needCancelled
  dsimp only
  split
  · rfl
  · exact hclear
  · exact hclear
  · split
    · split
      · exact hclear
      · exact (settled_withdrawn _ _ y).trans hclear
    · exact hclear
  · split
    · split
      · exact hclear
      · exact (settled_withdrawn _ _ y).trans hclear
    · exact hclear
  · exact hclear

theorem strap_withdrawn (o : Order) (s : State) : (withdrawn o s).strap = s.strap := by
  unfold withdrawn
  dsimp only
  split
  · exact (outside_dropOrder s o.number).strap
  · exact (outside_dropOrder s o.number).strap

theorem strap_needCancelled (x : PosIx) (s : State) : (needCancelled x s).strap = s.strap := by
  unfold needCancelled
  dsimp only
  split
  · rfl
  · rfl
  · rfl
  · split
    · split
      · rfl
      · exact strap_withdrawn _ _
    · rfl
  · split
    · split
      · rfl
      · exact strap_withdrawn _ _
    · rfl
  · rfl

/-- The own changes of an ASSIGN (R89, R132): the type, the REMOVE that is withdrawn with one, the need that is cancelled. -/
def assigned (x : PosIx) (req : Option TypeIx) (s : State) : State :=
  let u := s.setPos x { s.pos x with required := req }
  needCancelled x (if req.isSome then (u.waitingRemove x).elim u fun o => withdrawn o u else u)

/-- The event of an ASSIGN makes its own changes, and the need test comes last. -/
theorem follows_assigned (x : PosIx) (req : Option TypeIx) (s : State) :
    Follows (assigned x req s)
      ((if req.isSome then ((Ev.start s).updPos x fun p => { p with required := req }).withdrawRemove x
        else (Ev.start s).updPos x fun p => { p with required := req }).cancelNeed x).st := by
  set u := s.setPos x { s.pos x with required := req } with hu
  set e := (Ev.start s).updPos x fun p => { p with required := req } with he
  have heu : e.st = u := rfl
  have hremove : (e.withdrawRemove x).st = (u.waitingRemove x).elim u fun o => withdrawn o u := by
    unfold Ev.withdrawRemove
    rw [heu]
    cases u.waitingRemove x with
    | none => exact heu
    | some o => exact (Ev.st_withdraw o e).trans (by rw [heu]; rfl)
  have hst : (if req.isSome then e.withdrawRemove x else e).st =
      if req.isSome then (u.waitingRemove x).elim u fun o => withdrawn o u else u := by
    split_ifs
    · exact hremove
    · exact heu
  show Follows (needCancelled x (if req.isSome then (u.waitingRemove x).elim u fun o => withdrawn o u else u)) _
  rw [← hst]
  exact Ev.follows_cancelNeed x _

theorem settled_assigned (x : PosIx) (req : Option TypeIx) (s : State) :
    ((assigned x req s).pos x).settled = ({ s.pos x with required := req } : Position).settled := by
  have hself : ((s.setPos x { s.pos x with required := req }).pos x).settled =
      ({ s.pos x with required := req } : Position).settled := by simp
  unfold assigned
  dsimp only
  rw [settled_needCancelled]
  split
  · cases (s.setPos x { s.pos x with required := req }).waitingRemove x with
    | none => exact hself
    | some o => exact (settled_withdrawn o _ x).trans hself
  · exact hself

theorem present_assigned (x : PosIx) (req : Option TypeIx) (s : State) : (assigned x req s).present = s.present := by
  have hstrap : (assigned x req s).strap = s.strap := by
    unfold assigned
    dsimp only
    rw [strap_needCancelled]
    split
    · cases (s.setPos x { s.pos x with required := req }).waitingRemove x with
      | none => rfl
      | some o => exact strap_withdrawn o _
    · rfl
  funext y
  rw [State.present, State.present, hstrap]

theorem assignBody_val {x : PosIx} {req : Option TypeIx} {s : State} (hx : s.present x = true)
    (hreq : ∀ k, req = some k → ∃ f, s.typ k = some f ∧ f.kind = (slotOf x).kind) :
    assignBody x.val (req.elim 0 fun k => k.val + 1) s =
      .ok (if (s.pos x).required = req then s else assignEvent x req s,
        (if (s.pos x).required = req then s else assignEvent x req s).positionRecord x) := by
  have hoperand : requiredOperand (req.elim 0 fun k => k.val + 1) = some req := by
    cases req with
    | none => rfl
    | some k => exact requiredOperand_succ k
  have hdefined : s.undefinedType req = false ∧ s.kindMismatch x req = false := by
    cases req with
    | none => exact ⟨rfl, rfl⟩
    | some k =>
      obtain ⟨f, hf, hkind⟩ := hreq k rfl
      have hfigures : s.figures k = f := by simp [State.figures, hf]
      simp [State.undefinedType, State.kindMismatch, hf, hfigures, hkind]
  simp only [assignBody, presentOperand_val hx, hoperand, hdefined.1, hdefined.2, Bool.false_eq_true, if_false]

/-- Settles O17. -/
theorem assignStoresAndCancels : Obligations.AssignStoresAndCancels := by
  intro x req s hl hx hreq code
  have hbody := assignBody_val hx hreq
  refine ⟨fun hsame => ?_, fun hnew => ?_⟩
  · show serve .ps 38 (assignBody x.val _ s) s = _
    rw [hbody, if_pos hsame, serve_accepted hl]
  · intro u v
    show ∃ t, serve .ps 38 (assignBody x.val _ s) s = _ ∧ _
    rw [hbody, if_neg hnew]
    exact serve_ok hl (result := fun t => t.positionRecord x)
      (settles_finish ((follows_assigned x req s).trans (Ev.follows_needTest x _)))

/-! ## The need test on its conditions (R56 to R58, R89, R93, R101) -/

/-- Settles O47. -/
theorem needTestRaises : Obligations.NeedTestRaises := by
  refine ⟨fun e x => ?_, fun e x => ⟨fun hnone => ?_, fun i u hm => Ev.st_evalTriggers hm⟩,
    fun x k f s hl hx htyp hkind hnew hactive hvacant => ?_⟩
  · intro s p t urgent
    have hurgent : s.mountedBroken x = urgent := mountedBroken_eq_any s x
    refine ⟨fun hnone => ?_, fun k hk => ⟨fun hno => ?_, fun hraises i hi => ?_, fun hraises hi => ?_⟩⟩
    · show (e.needTest x).st = e.st
      rw [Ev.needTest, needFor_eq_none hnone]
    · classical
      show (e.needTest x).st = e.st
      rw [Ev.needTest, needFor_eq hk, if_neg (show ¬ s.Raises x k from hno)]
    · show (e.needTest x).st = _
      rw [Ev.needTest, needFor_eq_some hk hraises]
      exact (st_raiseNeed_reserved hi).trans (by rw [hurgent])
    · show (e.needTest x).st = _
      rw [Ev.needTest, needFor_eq_some hk hraises]
      exact (st_raiseNeed_waiting hi).trans (by rw [hurgent])
  · unfold Ev.evalTriggers
    rw [hnone]
  · have hreq : ∀ j, some k = some j → ∃ f, s.typ j = some f ∧ f.kind = (slotOf x).kind := by
      rintro j ⟨⟩
      exact ⟨f, htyp, hkind⟩
    have hbody := assignBody_val hx hreq
    rw [if_neg hnew] at hbody
    refine ⟨assignEvent x (some k) s, ?_, ?_⟩
    · show serve .ps 38 (assignBody x.val (k.val + 1) s) s = _
      rw [show k.val + 1 = (some k : Option TypeIx).elim 0 fun k => k.val + 1 from rfl, hbody, serve_accepted hl]
    · have hfollows := follows_assigned x (some k) s
      have hsettled := (hfollows.positions x).trans (settled_assigned x (some k) s)
      have hpresent := congrFun (hfollows.present.trans (present_assigned x (some k) s)) x
      refine ((finish_follows s _).needs x (Ev.needTest_needs (k := k) ?_ fun hneed => ⟨?_, hneed, ?_, .inl ?_⟩)).1
      · exact congrArg Position.required hsettled
      · exact hpresent.trans hx
      · exact (congrArg Position.suspended hsettled).trans hactive
      · exact (congrArg Position.service hsettled).trans hvacant

end Sys2Proof.Machine

/-! PROOFS. PARTS, DRESS and GAUGE (R49 to R52, R60 to R64). -/
namespace Sys2Proof.Machine

/-! ## The position of a station that listens -/

/-- The positions of a station whose port listens are present. -/
theorem present_of_listening {s : State} {n : Station} (hl : s.listening (.station n) = true) (sl : Slot) :
    s.present (posAt n sl) = true := by
  obtain ⟨-, hp, -⟩ := (listening_iff s _).mp hl
  rw [State.present, stationOf_posAt]
  exact hp

/-! ## The wear trigger at a position in SERVING, DUE or HELD -/

/-- What the wear trigger makes of the record of its position. -/
theorem pos_wearAt (x : PosIx) (s : State) : (wearAt x s).pos x = s.pos x ∨ (wearAt x s).pos x = (s.pos x).finding .worn := by
  unfold wearAt
  split
  · exact .inl rfl
  · dsimp only
    split_ifs
    · rw [State.pos_notifySlot, State.pos_setPos, if_pos rfl]
      exact .inr rfl
    · rw [State.pos_setPos, if_pos rfl]
      exact .inr rfl
    · exact .inl rfl

theorem Position.finding_consuming {p : Position} (h : p.service = .serving ∨ p.service = .due ∨ p.service = .held)
    (c : DueCause) : p.finding c =
      if p.service = .held then { p with resume := some .due, dueCause := some c }
      else { p with service := .due, dueCause := some c } := by
  unfold Position.finding
  obtain hs | hs | hs := h <;> simp [hs]

theorem Position.hasFinding_consuming {p : Position} (h : p.service = .serving ∨ p.service = .due ∨ p.service = .held) :
    p.hasFinding = true := by
  unfold Position.hasFinding
  obtain hs | hs | hs := h <;> simp [hs]

/-- A position in SERVING, DUE or HELD stays one under its wear trigger, with what the need test reads beside. -/
theorem wearAt_consuming {s : State} {x : PosIx}
    (h : (s.pos x).service = .serving ∨ (s.pos x).service = .due ∨ (s.pos x).service = .held) :
    (((wearAt x s).pos x).service = .serving ∨ ((wearAt x s).pos x).service = .due ∨ ((wearAt x s).pos x).service = .held) ∧
      ((wearAt x s).pos x).required = (s.pos x).required ∧ ((wearAt x s).pos x).suspended = (s.pos x).suspended := by
  obtain hpos | hpos := pos_wearAt x s
  · rw [hpos]
    exact ⟨h, rfl, rfl⟩
  · rw [hpos, Position.finding_consuming h]
    split
    · next hheld => exact ⟨.inr (.inr hheld), rfl, rfl⟩
    · exact ⟨.inr (.inl rfl), rfl, rfl⟩

theorem present_wearAt (x : PosIx) (s : State) : (wearAt x s).present = s.present := by
  unfold wearAt
  split
  · rfl
  · dsimp only
    split_ifs
    · rw [State.present_notifySlot]; rfl
    · rfl
    · rfl

/-- With its tool at the stage threshold a position in SERVING, DUE or HELD has a need after the triggers. -/
theorem Ev.evalTriggers_needs {e : Ev} {x : PosIx} {i : EntryIx} {u : Tool} {k : TypeIx}
    (hm : e.st.mountedTool x = some (i, u)) (hx : e.st.present x = true)
    (hs : (e.st.pos x).service = .serving ∨ (e.st.pos x).service = .due ∨ (e.st.pos x).service = .held)
    (hk : (e.st.pos x).required = some k) (hactive : (e.st.pos x).suspended = false)
    (hstage : e.st.partsLeft u ≤ (e.st.figures u.type).stage) : ((e.evalTriggers x).st.pos x).need ≠ .noNeed := by
  obtain ⟨hservice, hrequired, hsuspended⟩ := wearAt_consuming hs
  have hworn := wearAt_mountedTool hm
  rw [Ev.st_evalTriggers hm, if_pos hstage]
  refine Ev.needTest_needs (k := k) (hrequired.trans hk) fun hneed => ⟨?_, hneed, hsuspended.trans hactive, .inr ⟨?_, _, _, hworn, ?_⟩⟩
  · exact (congrFun (present_wearAt x e.st) x).trans hx
  · tauto
  · by_cases htype : u.type = k
    · refine .inr (.inr ?_)
      subst htype
      have hparts : (wearAt x e.st).partsLeft
          (if e.st.partsLeft u = 0 ∧ u.condition = .sound then { u with condition := .worn } else u) = e.st.partsLeft u := by
        rw [State.partsLeft, figures_wearAt]
        split <;> rfl
      show (wearAt x e.st).partsLeft _ ≤ ((wearAt x e.st).figures u.type).stage
      rw [hparts, figures_wearAt]
      exact hstage
    · left
      split <;> exact htype

/-! ## Charges (R50, R52) -/

theorem Ev.st_chargeMounted {e : Ev} {x : PosIx} {i : EntryIx} {u : Tool} (h : e.st.mountedTool x = some (i, u))
    (a : TypeRec → Nat) (count : Tool → Tool) :
    (e.chargeMounted x a count).st =
      e.st.setTool i (some (count (u.charge (a (e.st.figures u.type)) (e.st.figures u.type).factor))) := by
  obtain ⟨-, ht, -⟩ := (mountedTool_iff _ x i u).mp h
  unfold Ev.chargeMounted
  rw [h]
  show e.st.setTool i ((e.st.tool i).map _) = _
  rw [ht]
  rfl

theorem lifeAfter_eq {s : State} {x : PosIx} {i : EntryIx} {u : Tool} (h : s.mountedTool x = some (i, u)) (t : State)
    (o : GaugeOutcome) (m : Nat) : lifeAfter s t x o m = t.lifeResult x i o m := by
  unfold lifeAfter
  rw [h]

theorem partsBody_num {n : Station} {sl : Slot} {k : Nat} {s : State} (hsl : sl ≠ .d) (hk1 : 1 ≤ k) (hk15 : k ≤ 15)
    (hs : (s.pos (posAt n sl)).service = .serving ∨ (s.pos (posAt n sl)).service = .due ∨
      (s.pos (posAt n sl)).service = .held) :
    partsBody n sl.num k s = .ok (partsEvent (posAt n sl) k s,
      lifeAfter s (partsEvent (posAt n sl) k s) (posAt n sl) .noGauge 0) := by
  have hcount : ¬ (k = 0 ∨ maxCount < k) := by simp only [maxCount]; omega
  have hconsuming : ¬ (s.pos (posAt n sl)).service.consuming = false := by
    rw [(Service.consuming_iff _).mpr hs]; nofun
  simp only [partsBody, wheelSlotOperand_num hsl, if_neg hcount, if_neg hconsuming]

/-- Settles O1. -/
theorem partsCharges : Obligations.PartsCharges := by
  intro n sl k s i u hl hsl hk1 hk15 hs hm f q w m
  obtain ⟨-, -, hmounted⟩ := (mountedTool_iff s _ i u).mp hm
  set e := (Ev.start s).chargeMounted (posAt n sl) (fun f => k * f.wp) (Tool.countParts k) with he
  have hst : e.st = m := Ev.st_chargeMounted hm _ _
  have hmw : m.mountedTool (posAt n sl) = some (i, w) := mountedTool_setTool hm hmounted
  have hsettles : Settles (wearAt (posAt n sl) m) (partsEvent (posAt n sl) k s) :=
    settles_finish (hst ▸ Ev.follows_evalTriggers (posAt n sl) e)
  refine ⟨partsEvent (posAt n sl) k s, ?_, hsettles, fun hrequired hactive hstage => ?_⟩
  · show serve (.station n) 4 (partsBody n sl.num k s) s = _
    rw [partsBody_num hsl hk1 hk15 hs, lifeAfter_eq hm, serve_accepted hl]
  · obtain ⟨ty, hty⟩ := Option.isSome_iff_exists.mp hrequired
    exact ((finish_follows s _).needs _ (Ev.evalTriggers_needs (e := e) (i := i) (u := w) (k := ty) (by rw [hst]; exact hmw)
      (by rw [hst]; exact present_of_listening hl sl) (by rw [hst]; exact hs) (by rw [hst]; exact hty)
      (by rw [hst]; exact hactive) (by rw [hst]; exact hstage))).1

theorem dressBody_num {n : Station} {sl : Slot} {k : Nat} {s : State} (hsl : sl ≠ .d) (hk1 : 1 ≤ k) (hk15 : k ≤ 15)
    (hs : (s.pos (posAt n sl)).service = .serving ∨ (s.pos (posAt n sl)).service = .due ∨
      (s.pos (posAt n sl)).service = .held)
    (hd : (s.pos (posAt n .d)).service = .serving ∨ (s.pos (posAt n .d)).service = .due ∨
      (s.pos (posAt n .d)).service = .held) :
    dressBody n sl.num k s = .ok (dressEvent (posAt n sl) (posAt n .d) k s,
      lifeAfter s (dressEvent (posAt n sl) (posAt n .d) k s) (posAt n sl) .noGauge 0 ++
        lifeAfter s (dressEvent (posAt n sl) (posAt n .d) k s) (posAt n .d) .noGauge 0) := by
  have hcount : ¬ (k = 0 ∨ maxCount < k) := by simp only [maxCount]; omega
  have hwheel : ¬ (s.pos (posAt n sl)).service.consuming = false := by
    rw [(Service.consuming_iff _).mpr hs]; nofun
  have hroll : ¬ (s.pos (posAt n .d)).service.consuming = false := by
    rw [(Service.consuming_iff _).mpr hd]; nofun
  simp only [dressBody, wheelSlotOperand_num hsl, if_neg hcount, if_neg hwheel, if_neg hroll]

/-- Settles O2: the roll is charged after the wheel, and another entry, so the figures and its tool are as they were. -/
theorem dressChargesBoth : Obligations.DressChargesBoth := by
  intro n sl k s i j u v hl hsl hk1 hk15 hij hs hd hmu hmv dressed m
  set e := (Ev.start s).chargeMounted (posAt n sl) (fun f => k * f.dd) (Tool.countDresses k) with he
  have hwheel : e.st = s.setTool i (some (dressed u)) := Ev.st_chargeMounted hmu _ _
  have hmroll : e.st.mountedTool (posAt n .d) = some (j, v) := by
    rw [hwheel]
    exact mountedTool_setTool_other hmv hij
  have hboth : (e.chargeMounted (posAt n .d) (fun f => k * f.dd) (Tool.countDresses k)).st = m := by
    rw [Ev.st_chargeMounted hmroll, hwheel]
    rfl
  have hsettles : Settles (wearAt (posAt n .d) (wearAt (posAt n sl) m)) (dressEvent (posAt n sl) (posAt n .d) k s) := by
    rw [← hboth]
    exact settles_finish (((Ev.follows_evalTriggers (posAt n sl) _).wearAt_congr (posAt n .d)).trans
      (Ev.follows_evalTriggers (posAt n .d) _))
  show ∃ t, serve (.station n) 5 (dressBody n sl.num k s) s = _ ∧ _
  rw [dressBody_num hsl hk1 hk15 hs hd, lifeAfter_eq hmu, lifeAfter_eq hmv]
  exact serve_ok hl (result := fun t => t.lifeResult (posAt n sl) i .noGauge 0 ++ t.lifeResult (posAt n .d) j .noGauge 0)
    hsettles

/-! ## Gauges (R60 to R64) -/

theorem gaugeBody_num {n : Station} {sl : Slot} {d : Nat} {s : State} {i : EntryIx} {u : Tool} (hd : d ≤ 1048575)
    (hs : (s.pos (posAt n sl)).service = .serving ∨ (s.pos (posAt n sl)).service = .due ∨
      (s.pos (posAt n sl)).service = .held) (hm : s.mountedTool (posAt n sl) = some (i, u)) :
    gaugeBody n sl.num d s = .ok (finish s ((Ev.start s).gaugeTool (posAt n sl) i u d),
      (finish s ((Ev.start s).gaugeTool (posAt n sl) i u d)).lifeResult (posAt n sl) i
        (if s.gaugeDoubted u d then .doubted else .blended) ((s.figures u.type).layerOf d)) := by
  have hin : ¬ maxDiameter < d := by simp only [maxDiameter]; omega
  have hconsuming : ¬ (s.pos (posAt n sl)).service.consuming = false := by
    rw [(Service.consuming_iff _).mpr hs]; nofun
  simp only [gaugeBody, slotOperand_num, if_neg hin, if_neg hconsuming, gaugeEvent, gaugeResult, hm]

/-- Settles O3. -/
theorem gaugeBlends : Obligations.GaugeBlends := by
  intro n sl d s i u hl hd hs hm f layer hlayer w m
  obtain ⟨-, ht, -⟩ := (mountedTool_iff s _ i u).mp hm
  have hblended : s.gaugeDoubted u d = false := decide_eq_false (by show ¬ u.r + f.g < layer; omega)
  have hst : ((Ev.start s).updTool i (Tool.blendGauge f d)).st = m := by
    show s.setTool i ((s.tool i).map _) = m
    rw [ht]
    rfl
  have htool : (Ev.start s).gaugeTool (posAt n sl) i u d =
      ((Ev.start s).updTool i (Tool.blendGauge f d)).evalTriggers (posAt n sl) := by
    unfold Ev.gaugeTool
    rw [if_neg (by show ¬ s.gaugeDoubted u d = true; rw [hblended]; nofun)]
    rfl
  have hsettles : Settles (wearAt (posAt n sl) m) (finish s ((Ev.start s).gaugeTool (posAt n sl) i u d)) := by
    rw [htool, ← hst]
    exact settles_finish (Ev.follows_evalTriggers (posAt n sl) _)
  show ∃ t, serve (.station n) 6 (gaugeBody n sl.num d s) s = _ ∧ _
  rw [gaugeBody_num hd hs hm, hblended]
  exact serve_ok hl (result := fun t => t.lifeResult (posAt n sl) i .blended layer) hsettles

theorem becomesDoubtful_iff (u : Tool) : u.becomesDoubtful = true ↔ u.doubts = 2 ∧ u.condition = .sound := by
  simp [Tool.becomesDoubtful]

/-- A tool that is not SOUND has no wear trigger. -/
theorem wearAt_of_ne_sound {s : State} {x : PosIx} {i : EntryIx} {u : Tool} (h : s.mountedTool x = some (i, u))
    (hc : u.condition ≠ .sound) : wearAt x s = s := by
  unfold wearAt
  rw [h]
  exact if_neg fun hand => hc hand.2

/-- Settles O4. -/
theorem gaugeDoubts : Obligations.GaugeDoubts := by
  intro n sl d s i u hl hd hs hm f layer hlayer p m
  obtain ⟨-, ht, hmounted⟩ := (mountedTool_iff s _ i u).mp hm
  have hdoubted : s.gaugeDoubted u d = true := decide_eq_true (by show u.r + f.g < layer; exact hlayer)
  set e := (Ev.start s).updTool i Tool.doubtGauge with he
  have hst : e.st = s.setTool i (some u.doubtGauge) := by
    show s.setTool i ((s.tool i).map _) = _
    rw [ht]
    rfl
  have hfollows : Follows m ((Ev.start s).gaugeTool (posAt n sl) i u d).st := by
    unfold Ev.gaugeTool
    rw [if_pos (show (Ev.start s).st.gaugeDoubted u d = true from hdoubted)]
    by_cases hthird : u.becomesDoubtful = true
    · have hthird' := (becomesDoubtful_iff u).mp hthird
      have hdoubtful : ({ u.doubtGauge with condition := .doubtful } : Tool) = { u with doubts := 3, condition := .doubtful } := by
        simp [Tool.doubtGauge, hthird'.1]
      have hfinding : (e.finding (posAt n sl) i .doubtful .doubt).st = m := by
        rw [Ev.st_finding _ i u.doubtGauge _ _ e (by rw [hst]; simp), hst, hdoubtful]
        simp only [m, if_pos hthird', State.pos_setTool, Position.hasFinding_consuming hs, if_true,
          Position.finding_consuming hs, State.setTool_setTool]
        rfl
      have hmdoubtful : m.mountedTool (posAt n sl) = some (i, { u with doubts := 3, condition := .doubtful }) := by
        simp only [m, if_pos hthird', State.mountedTool_notifySlot]
        rw [mountedTool_setPos (s := s.setTool i _) (by split <;> rfl)]
        exact mountedTool_setTool hm hmounted
      rw [if_pos hthird]
      refine Follows.trans ?_ (Ev.follows_needTest (posAt n sl) _)
      have hwear := Ev.follows_evalTriggers (posAt n sl) (e.finding (posAt n sl) i .doubtful .doubt)
      rw [hfinding, wearAt_of_ne_sound hmdoubtful (by nofun)] at hwear
      exact hwear
    · have hm' : m = wearAt (posAt n sl) (s.setTool i (some u.doubtGauge)) :=
        if_neg fun h => hthird ((becomesDoubtful_iff u).mpr h)
      rw [if_neg hthird, hm', ← hst]
      exact Ev.follows_evalTriggers (posAt n sl) e
  show ∃ t, serve (.station n) 6 (gaugeBody n sl.num d s) s = _ ∧ _
  rw [gaugeBody_num hd hs hm, hdoubted]
  exact serve_ok hl (result := fun t => t.lifeResult (posAt n sl) i .doubted layer) (settles_finish hfollows)

end Sys2Proof.Machine

/-! PROOFS. The posting hand-off and the pocket arbiter (R28, R114 to R121). -/
namespace Sys2Proof.Machine

/-! ## Posting an order (R114, R120, R121) -/

/-- A new order of a position, with the next free number. -/
def State.newOrder (s : State) (x : PosIx) (kind : OrderKind) (urgent : Bool) (incoming outgoing : Option EntryIx)
    (pocket : Option PocketIx) : Order :=
  { number := s.nextNumber, kind := kind, urgent := urgent, pos := x, incoming := incoming, outgoing := outgoing,
    pocket := pocket, state := .ready }

theorem hasRoom_iff (s : State) : s.hasRoom = true ↔ s.ret.queue.length < 16 ∨ s.ret.backlog.length < 24 := by
  rw [State.hasRoom, Bool.or_eq_true, decide_eq_true_eq, decide_eq_true_eq]
  rfl

theorem succNumber_eq (n : Nat) : succNumber n = if n < 65535 then n + 1 else 1 := by
  unfold succNumber
  split_ifs <;> omega

/-- An order enters its collection at the tail of its class, and the counter goes on. -/
theorem enqueue_eq (s : State) (o : Order) : s.enqueue o =
    if s.ret.queue.length < 16 then
      { s with
        ret.queue := insertOrder { o with state := .ready } s.ret.queue
        ret.counter := if o.number < 65535 then o.number + 1 else 1 }
    else
      { s with
        ret.backlog := insertOrder { o with state := .backlog } s.ret.backlog
        ret.counter := if o.number < 65535 then o.number + 1 else 1 } := by
  rw [← succNumber_eq]
  rfl

theorem State.pos_enqueue (s : State) (o : Order) : (s.enqueue o).pos = s.pos := by
  unfold State.enqueue
  split <;> rfl

theorem State.pocket_enqueue (s : State) (o : Order) : (s.enqueue o).pocket = s.pocket := by
  unfold State.enqueue
  split <;> rfl

theorem State.waiting_enqueue (s : State) (o : Order) : (s.enqueue o).ret.waiting = s.ret.waiting := by
  unfold State.enqueue
  split <;> rfl

section
variable {e : Ev} {x : PosIx}

theorem Ev.postOrder_full (h : e.st.hasRoom = false) (kind : OrderKind) (u : Bool) (i j : Option EntryIx)
    (k : Option PocketIx) : e.postOrder x kind u i j k = e := by
  unfold Ev.postOrder
  rw [if_neg (by rw [h]; exact Bool.false_ne_true)]

/-- The EXCHANGE books nothing at its posting. -/
theorem Ev.st_postOrder_exchange (h : e.st.hasRoom = true) (u : Bool) (i j : Option EntryIx) :
    (e.postOrder x .exchange u i j none).st = e.st.enqueue (e.st.newOrder x .exchange u i j none) := by
  unfold Ev.postOrder
  rw [if_pos h]
  rfl

/-- The REMOVE books the rack. -/
theorem Ev.st_postOrder_remove (h : e.st.hasRoom = true) (u : Bool) (j : Option EntryIx) :
    (e.postOrder x .remove u none j none).st = (e.st.enqueue (e.st.newOrder x .remove u none j none)).setPos x
      { e.st.pos x with rack := .booked e.st.nextNumber } := by
  unfold Ev.postOrder
  rw [if_pos h]
  show (e.st.enqueue _).setPos x (Position.setRack _ ((e.st.enqueue _).pos x)) = _
  rw [State.pos_enqueue]
  rfl

/-- A STAGE or DIRECT books the rack, and the need becomes STAGING. -/
theorem Ev.st_postOrder_carrier (h : e.st.hasRoom = true) {kind : OrderKind} (hkind : kind = .stage ∨ kind = .direct) (u : Bool)
    (i j : Option EntryIx) (k : Option PocketIx) :
    (e.postOrder x kind u i j k).st = { (e.st.enqueue (e.st.newOrder x kind u i j k)).setPos x
      { e.st.pos x with rack := .booked e.st.nextNumber, need := .staging } with
      ret.waiting := e.st.ret.waiting.filter fun y => decide (y ≠ x) } := by
  have hbooks : kind.booksRackAtPosting = true := by obtain rfl | rfl := hkind <;> rfl
  set u' := e.st.enqueue (e.st.newOrder x kind u i j k) with hu
  have hset : (u'.setPos x (Position.setRack (.booked e.st.nextNumber) (u'.pos x))).setPos x
      (Position.progress .staging
        ((u'.setPos x (Position.setRack (.booked e.st.nextNumber) (u'.pos x))).pos x)) =
      u'.setPos x { e.st.pos x with rack := .booked e.st.nextNumber, need := .staging } := by
    rw [State.setPos_setPos, State.pos_setPos, if_pos rfl, hu, State.pos_enqueue]
    rfl
  unfold Ev.postOrder
  rw [if_pos h]
  dsimp only
  rw [if_pos hbooks, if_pos hkind]
  show { (u'.setPos x (Position.setRack (.booked e.st.nextNumber) (u'.pos x))).setPos x
      (Position.progress .staging
        ((u'.setPos x (Position.setRack (.booked e.st.nextNumber) (u'.pos x))).pos x)) with
      ret.waiting := u'.ret.waiting.filter (· ≠ x) } = _
  rw [hset, hu, State.waiting_enqueue]

theorem Ev.st_postReturn_chute (h : e.st.hasRoom = true) (i : EntryIx) :
    (e.postReturn x i none).st = (e.st.enqueue (e.st.newOrder x .return_ false none (some i) none)).setPos x
      { e.st.pos x with returnWaiting := false } := by
  unfold Ev.postReturn
  rw [if_pos h]
  show (e.st.enqueue _).setPos x { (e.st.enqueue _).pos x with returnWaiting := false } = _
  rw [State.pos_enqueue]
  rfl

theorem Ev.st_postReturn_pocket (h : e.st.hasRoom = true) (i : EntryIx) (k : PocketIx) :
    (e.postReturn x i (some k)).st = ((e.st.enqueue (e.st.newOrder x .return_ false none (some i) (some k))).setPos x
      { e.st.pos x with returnWaiting := false }).setPocket k (.booked e.st.nextNumber) := by
  unfold Ev.postReturn
  rw [if_pos h]
  show ((e.st.enqueue _).setPos x { (e.st.enqueue _).pos x with returnWaiting := false }).setPocket k _ = _
  rw [State.pos_enqueue]
  rfl

theorem Ev.postReturn_full (h : e.st.hasRoom = false) (i : EntryIx) (k : Option PocketIx) : e.postReturn x i k = e := by
  unfold Ev.postReturn
  rw [if_neg (by rw [h]; exact Bool.false_ne_true)]

/-- Where no pocket is FREE the position waits for one, with the notice at its first wait. -/
theorem Ev.st_awaitPocket : (e.awaitPocket x).st = if (e.st.pos x).returnWaiting then e.st
    else (e.st.setPos x { e.st.pos x with returnWaiting := true }).notify .ps .storeFull := by
  unfold Ev.awaitPocket
  split <;> rfl

end

/-! ## What a position's record calls for (R116) -/

section
variable {s : State} {x : PosIx}

theorem callsReturn_eq_some_iff (s : State) (x : PosIx) (i : EntryIx) : s.callsReturn x = some i ↔
    (s.pos x).rack = .entry i ∧ (∃ u, s.tool i = some u ∧ u.state = .offloaded) ∧
      ∀ o ∈ s.standing, o.incoming ≠ some i ∧ o.outgoing ≠ some i := by
  unfold State.callsReturn
  split
  · next j hj =>
    rw [hj]
    split_ifs with h
    · rw [Bool.and_eq_true, orderNaming_isNone_iff, Option.any_eq_true] at h
      simp only [decide_eq_true_eq] at h
      constructor
      · rintro ⟨⟩
        exact ⟨rfl, h⟩
      · rintro ⟨⟨⟩, -⟩
        rfl
    · refine ⟨nofun, fun ⟨hji, ⟨u, hu, hstate⟩, hnamed⟩ => absurd ?_ h⟩
      cases hji
      rw [Bool.and_eq_true, orderNaming_isNone_iff, Option.any_eq_true]
      exact ⟨⟨u, hu, by simpa using hstate⟩, hnamed⟩
  · next hno => exact ⟨nofun, fun ⟨h, _⟩ => absurd h (hno i)⟩

theorem callsReturn_eq_none (h : ∀ i u, (s.pos x).rack = .entry i → s.tool i = some u → u.state = .offloaded →
    ∃ o ∈ s.standing, o.incoming = some i ∨ o.outgoing = some i) : s.callsReturn x = none := by
  rw [Option.eq_none_iff_forall_ne_some]
  intro i hi
  obtain ⟨hrack, ⟨u, hu, hstate⟩, hnamed⟩ := (callsReturn_eq_some_iff s x i).mp hi
  obtain ⟨o, ho, hname⟩ := h i u hrack hu hstate
  obtain ⟨hin, hout⟩ := hnamed o ho
  exact hname.elim hin hout

theorem callFor_active (hx : s.present x = true) (hs : (s.pos x).suspended = false) :
    s.callFor x = match s.callsReturn x with
      | some i => some (.return_ i)
      | none =>
        match s.callsDirect x with
        | some (i, o) => some (.direct i o)
        | none =>
          match s.callsStage x with
          | some i => some (.stage i)
          | none =>
            match s.callsExchange x with
            | some i => some (.exchange i)
            | none => (s.callsRemove x).map .remove := by
  unfold State.callFor
  exact if_neg (by simp [hx, hs])

theorem callsDirect_of_need (h : (s.pos x).need ≠ .reserved) (h' : (s.pos x).need ≠ .staging) : s.callsDirect x = none := by
  unfold State.callsDirect
  dsimp only
  split
  · split_ifs with h1 h2
    · exact absurd h2.1 h
    · rfl
    · rfl
  · rfl

theorem callsStage_of_need (h : (s.pos x).need ≠ .reserved) : s.callsStage x = none :=
  if_neg fun hand => h hand.1

theorem callsExchange_of_need (h : (s.pos x).need ≠ .staged) : s.callsExchange x = none :=
  if_neg fun hand => h hand.1

theorem sisterReserved_iff {i : EntryIx} {u : Tool} (hu : s.tool i = some u) :
    s.sisterReserved i = true ↔ u.state = .reserved := by
  simp [State.sisterReserved, hu]

/-- Condition 2 holds for an EMPTY rack (R116). -/
theorem callsDirect_reserved {i : EntryIx} {u : Tool} (hsister : (s.pos x).sister = some i) (hu : s.tool i = some u)
    (hneed : (s.pos x).need = .reserved) (hrack : (s.pos x).rack = .bare)
    [Decidable ((s.pos x).urgent = true ∧ (s.pos x).service = .released ∧ u.state = .reserved)] :
    s.callsDirect x = if (s.pos x).urgent = true ∧ (s.pos x).service = .released ∧ u.state = .reserved
      then some (i, none) else none := by
  unfold State.callsDirect
  simp only [hsister, hneed, hrack, Bool.and_eq_true, decide_eq_true_eq, sisterReserved_iff hu, and_assoc, and_self, if_true]

theorem find?_eq_some_of_unique {α : Type} {p : α → Bool} {l : List α} {a : α} (ha : a ∈ l) (hp : p a = true)
    (huniq : ∀ b ∈ l, p b = true → b = a) : l.find? p = some a := by
  cases hf : l.find? p with
  | none => exact absurd hp (List.find?_eq_none.mp hf a ha)
  | some b => rw [huniq b (List.mem_of_find?_eq_some hf) (List.find?_some hf)]

/-- Condition 2 holds for a rack that the sister's waiting STAGE books (R116, R119). -/
theorem callsDirect_replacing {i : EntryIx} {u : Tool} {o : Order} (hsister : (s.pos x).sister = some i)
    (hu : s.tool i = some u) (hneed : (s.pos x).need = .staging)
    (hhastens : (s.pos x).urgent = true ∧ (s.pos x).service = .released ∧ u.state = .reserved) (ho : o ∈ s.standing)
    (hrack : (s.pos x).rack = .booked o.number) (hkind : o.kind = .stage) (hin : o.incoming = some i) (hbusy : o.busy = false)
    (huniq : ∀ q ∈ s.standing, q.number = o.number → q = o) : s.callsDirect x = some (i, some o) := by
  obtain ⟨hurgent, hreleased, hreserved⟩ := hhastens
  have hstage : s.waitingStage x i = some o := by
    unfold State.waitingStage
    rw [hrack]
    refine find?_eq_some_of_unique ho (by simp [hkind, hin, hbusy]) fun q hq hp => huniq q hq ?_
    simp only [Bool.and_eq_true, decide_eq_true_eq] at hp
    exact hp.1.1.1
  unfold State.callsDirect
  simp [hsister, hneed, hurgent, hreleased, (sisterReserved_iff hu).mpr hreserved, hstage]

theorem exchangeFor_eq_none (h : ∀ o ∈ s.standing, ¬(o.kind = .exchange ∧ o.pos = x)) : s.exchangeFor x = none := by
  refine List.find?_eq_none.mpr fun o ho hp => h o ho ?_
  simpa using hp

theorem callsExchange_staged (hneed : (s.pos x).need = .staged)
    (hno : ∀ o ∈ s.standing, ¬(o.kind = .exchange ∧ o.pos = x))
    (hservice : (s.pos x).service = .released ∨ (s.pos x).service = .vacant) : s.callsExchange x = (s.pos x).sister :=
  if_pos ⟨hneed, by rw [exchangeFor_eq_none hno]; rfl, hservice⟩

theorem pocketOf_eq {i : EntryIx} {u : Tool} {k : PocketIx} (hu : s.tool i = some u) (hk : u.place = .pocket k) :
    s.pocketOf i = some k := by
  simp [State.pocketOf, hu, hk]

theorem toChute_iff {i : EntryIx} {u : Tool} (hu : s.tool i = some u) :
    s.toChute i = true ↔ u.condition = .worn ∨ u.condition = .broken := by
  simp [State.toChute, hu]

theorem freePocket_eq_some {k : PocketIx} (hk : s.pocket k = .free) (hlow : ∀ j, j < k → s.pocket j ≠ .free) :
    s.freePocket = some k := by
  rw [State.freePocket, allPockets, ← Fin.find?_eq_find?_finRange, Fin.find?_eq_some_iff]
  exact ⟨decide_eq_true hk, fun j hj => decide_eq_false (hlow j hj)⟩

theorem freePocket_eq_none (h : ∀ k, s.pocket k ≠ .free) : s.freePocket = none :=
  List.find?_eq_none.mpr fun k _ hk => h k (of_decide_eq_true hk)

end

/-! ## The hand-off (R95, R116) -/

section
variable {e : Ev} {x : PosIx}

theorem Ev.handOff_of_none (h : e.st.callFor x = none) : e.handOff x = e := by
  unfold Ev.handOff
  simp only [h]

theorem callFor_inactive {s : State} (h : s.present x = false ∨ (s.pos x).suspended = true) : s.callFor x = none :=
  if_pos (by obtain h | h := h <;> simp [h])

theorem Ev.handOff_return {i : EntryIx} (hx : e.st.present x = true) (hs : (e.st.pos x).suspended = false)
    (h : e.st.callsReturn x = some i) : e.handOff x = e.callReturn x i := by
  unfold Ev.handOff
  simp only [callFor_active hx hs, h]

theorem Ev.handOff_direct {r : EntryIx × Option Order} (hx : e.st.present x = true) (hs : (e.st.pos x).suspended = false)
    (hreturn : e.st.callsReturn x = none) (h : e.st.callsDirect x = some r) : e.handOff x =
      match r with
      | (i, none) => e.postOrder x .direct true (some i) ((e.st.mountedTool x).map (·.1)) (e.st.pocketOf i)
      | (i, some o) => e.replaceStage x i o ((e.st.mountedTool x).map (·.1)) := by
  obtain ⟨i, o⟩ := r
  unfold Ev.handOff
  simp only [callFor_active hx hs, hreturn, h]
  cases o <;> rfl

theorem Ev.handOff_stage {i : EntryIx} (hx : e.st.present x = true) (hs : (e.st.pos x).suspended = false)
    (hreturn : e.st.callsReturn x = none) (hdirect : e.st.callsDirect x = none) (h : e.st.callsStage x = some i) :
    e.handOff x = e.postOrder x .stage (e.st.pos x).urgent (some i) none (e.st.pocketOf i) := by
  unfold Ev.handOff
  simp only [callFor_active hx hs, hreturn, hdirect, h]

theorem Ev.handOff_exchange {i : EntryIx} (hx : e.st.present x = true) (hs : (e.st.pos x).suspended = false)
    (hreturn : e.st.callsReturn x = none) (hneed : (e.st.pos x).need = .staged) (h : e.st.callsExchange x = some i) :
    e.handOff x = e.postOrder x .exchange (e.st.pos x).urgent (some i) ((e.st.mountedTool x).map (·.1)) none := by
  have hdirect : e.st.callsDirect x = none := callsDirect_of_need (by rw [hneed]; nofun) (by rw [hneed]; nofun)
  have hstage : e.st.callsStage x = none := callsStage_of_need (by rw [hneed]; nofun)
  unfold Ev.handOff
  simp only [callFor_active hx hs, hreturn, hdirect, hstage, h]

/-- With no need, or one that waits, only a REMOVE can be called for beside a RETURN. -/
theorem Ev.callFor_idle {s : State} (hx : s.present x = true) (hs : (s.pos x).suspended = false)
    (hreturn : s.callsReturn x = none) (hneed : (s.pos x).need = .noNeed ∨ (s.pos x).need = .waiting) :
    s.callFor x = (s.callsRemove x).map .remove := by
  have hdirect : s.callsDirect x = none := by
    obtain h | h := hneed <;> exact callsDirect_of_need (by rw [h]; nofun) (by rw [h]; nofun)
  have hstage : s.callsStage x = none := by
    obtain h | h := hneed <;> exact callsStage_of_need (by rw [h]; nofun)
  have hexchange : s.callsExchange x = none := by
    obtain h | h := hneed <;> exact callsExchange_of_need (by rw [h]; nofun)
  simp only [callFor_active hx hs, hreturn, hdirect, hstage, hexchange]

theorem Ev.handOff_remove {j : EntryIx} (hx : e.st.present x = true) (hs : (e.st.pos x).suspended = false)
    (hreturn : e.st.callsReturn x = none) (hneed : (e.st.pos x).need = .noNeed) (h : e.st.callsRemove x = some j) :
    e.handOff x = e.postOrder x .remove (e.st.mountedBroken x) none (some j) none := by
  unfold Ev.handOff
  simp only [Ev.callFor_idle hx hs hreturn (.inl hneed), h, Option.map_some]

/-- The collection in which a STAGE stands takes the DIRECT in its place. -/
theorem Ev.st_replaceStage {i : EntryIx} {o : Order} {j : Option EntryIx}
    (huniq : ∀ q ∈ e.st.standing, q.number = o.number → q = o) [Decidable (o ∈ e.st.ret.queue)] :
    (e.replaceStage x i o j).st =
      (if o ∈ e.st.ret.queue then
        { e.st with
          ret.queue := insertOrder (e.st.newOrder x .direct true (some i) j (e.st.pocketOf i))
            (e.st.ret.queue.filter fun q => decide (q.number ≠ o.number))
          ret.counter := if e.st.nextNumber < 65535 then e.st.nextNumber + 1 else 1 }
      else
        { e.st with
          ret.backlog := insertOrder { e.st.newOrder x .direct true (some i) j (e.st.pocketOf i) with state := .backlog }
            (e.st.ret.backlog.filter fun q => decide (q.number ≠ o.number))
          ret.counter := if e.st.nextNumber < 65535 then e.st.nextNumber + 1 else 1 } : State).setPos x
        { e.st.pos x with rack := .booked e.st.nextNumber } := by
  have hstands : (e.st.ret.queue.any fun q => decide (q.number = o.number)) = true ↔ o ∈ e.st.ret.queue := by
    rw [List.any_eq_true]
    refine ⟨fun ⟨q, hq, hn⟩ => ?_, fun h => ⟨o, h, by simp⟩⟩
    rw [← huniq q (List.mem_append_left _ hq) (of_decide_eq_true hn)]
    exact hq
  rw [Ev.replaceStage_eq, ← succNumber_eq]
  show (e.st.replaceOrder o.number (e.st.replacing x i o j)).setPos x
      (Position.setRack _ ((e.st.replaceOrder o.number (e.st.replacing x i o j)).pos x)) = _
  unfold State.replaceOrder State.replacing
  by_cases h : o ∈ e.st.ret.queue
  · rw [if_pos (hstands.mpr h), if_pos h, if_pos (hstands.mpr h)]
    rfl
  · have hno : ¬ (e.st.ret.queue.any fun q => decide (q.number = o.number)) = true := fun hq => h (hstands.mp hq)
    rw [if_neg hno, if_neg h, if_neg hno]
    rfl

end

theorem hasRoom_eq_false {s : State} (h : ¬(s.ret.queue.length < 16 ∨ s.ret.backlog.length < 24)) : s.hasRoom = false :=
  Bool.eq_false_iff.mpr fun hroom => h ((hasRoom_iff s).mp hroom)

section
variable {e : Ev} {x : PosIx}

/-- A RETURN to the chute is posted, or is not created (R117, R121). -/
theorem Ev.callReturn_chute {i : EntryIx} {u : Tool} (hu : e.st.tool i = some u)
    (hc : u.condition = .worn ∨ u.condition = .broken) : e.callReturn x i = e.postReturn x i none := by
  unfold Ev.callReturn
  rw [if_pos ((toChute_iff hu).mpr hc)]

theorem not_toChute {s : State} {i : EntryIx} {u : Tool} (hu : s.tool i = some u)
    (hc : u.condition = .sound ∨ u.condition = .doubtful) : ¬ s.toChute i = true := by
  rw [toChute_iff hu]
  obtain h | h := hc <;> simp [h]

theorem Ev.callReturn_pocket {i : EntryIx} {u : Tool} {k : PocketIx} (hu : e.st.tool i = some u)
    (hc : u.condition = .sound ∨ u.condition = .doubtful) (hk : e.st.freePocket = some k) :
    e.callReturn x i = e.postReturn x i (some k) := by
  unfold Ev.callReturn
  rw [if_neg (not_toChute hu hc)]
  simp only [hk]

theorem Ev.callReturn_await {i : EntryIx} {u : Tool} (hu : e.st.tool i = some u)
    (hc : u.condition = .sound ∨ u.condition = .doubtful) (hk : e.st.freePocket = none) :
    e.callReturn x i = e.awaitPocket x := by
  unfold Ev.callReturn
  rw [if_neg (not_toChute hu hc)]
  simp only [hk]

theorem Ev.handOff_nothing (hx : e.st.present x = true) (hs : (e.st.pos x).suspended = false)
    (hreturn : e.st.callsReturn x = none) (hneed : (e.st.pos x).need = .noNeed ∨ (e.st.pos x).need = .waiting)
    (hremove : e.st.callsRemove x = none) : e.handOff x = e :=
  Ev.handOff_of_none (by rw [Ev.callFor_idle hx hs hreturn hneed, hremove]; rfl)

theorem callsRemove_eq_none {s : State} (h : ¬((s.pos x).required = none ∧ (s.pos x).service = .released ∧
    (s.pos x).rack = .bare ∧ ((s.mountedTool x).map (·.1)).isSome = true)) : s.callsRemove x = none := by
  unfold State.callsRemove
  dsimp only
  split_ifs with hcalls
  · obtain ⟨hrequired, hreleased, hrack⟩ := hcalls
    rw [← Option.not_isSome_iff_eq_none]
    exact fun hsome => h ⟨hrequired, hreleased, hrack, hsome⟩
  · rfl

theorem callsRemove_eq_some {s : State} {j : EntryIx} {v : Tool} (hrequired : (s.pos x).required = none)
    (hreleased : (s.pos x).service = .released) (hrack : (s.pos x).rack = .bare) (hmounted : s.mountedTool x = some (j, v)) :
    s.callsRemove x = some j := by
  unfold State.callsRemove
  dsimp only
  rw [if_pos ⟨hrequired, hreleased, hrack⟩, hmounted]
  rfl

end

/-- Settles O48: the five orders in the sequence of R116. -/
theorem handOffPostsOrders : Obligations.HandOffPostsOrders := by
  intro e x s p t n next room tail enters order mounted named
  have henters : ∀ o : Order, o.number = n → enters o = s.enqueue o := by
    rintro ⟨number, kind, urgent, pos, incoming, outgoing, pocket, state⟩ (rfl : number = s.nextNumber)
    rw [enqueue_eq]
    rfl
  have hroom : room → s.hasRoom = true := (hasRoom_iff s).mpr
  have hfull : ¬room → s.hasRoom = false := hasRoom_eq_false
  have hcreated : ∀ kind u i j k, ¬room → t = (e.postOrder x kind u i j k).st → t = s := by
    intro kind u i j k hno ht
    rw [ht, Ev.postOrder_full (hfull hno)]
  refine ⟨fun h => ?_, fun hx hs => ⟨fun i u hrack hu hstate hnamed => ?_, fun hreturns => ?_⟩⟩
  · show (e.handOff x).st = e.st
    rw [Ev.handOff_of_none (callFor_inactive h)]
  · intro posted
    have hcalls : s.callsReturn x = some i := by
      refine (callsReturn_eq_some_iff s x i).mpr ⟨hrack, ⟨u, hu, hstate⟩, fun o ho => ?_⟩
      exact ⟨fun hin => hnamed ⟨o, ho, .inl hin⟩, fun hout => hnamed ⟨o, ho, .inr hout⟩⟩
    have ht : t = (e.callReturn x i).st := congrArg Ev.st (Ev.handOff_return hx hs hcalls)
    refine ⟨fun hc => ?_, fun hc => ⟨fun k hk hlow => ?_, fun hno => ?_⟩⟩
    · rw [ht, Ev.callReturn_chute hu hc]
      refine ⟨fun hr => ?_, fun hr => by rw [Ev.postReturn_full (hfull hr)]⟩
      rw [Ev.st_postReturn_chute (hroom hr)]
      exact congrArg (fun v => State.setPos v x _) (henters _ rfl).symm
    · rw [ht, Ev.callReturn_pocket hu hc (freePocket_eq_some hk hlow)]
      refine ⟨fun hr => ?_, fun hr => by rw [Ev.postReturn_full (hfull hr)]⟩
      rw [Ev.st_postReturn_pocket (hroom hr)]
      exact congrArg (fun v => State.setPocket (State.setPos v x _) k _) (henters _ rfl).symm
    · rw [ht, Ev.callReturn_await hu hc (freePocket_eq_none hno)]
      exact Ev.st_awaitPocket
  · have hreturn : s.callsReturn x = none := callsReturn_eq_none hreturns
    refine ⟨fun i u k hsister hu hplace => ?_, fun i hneed hsister hnone hservice => ?_,
      fun j v hneed hrequired hreleased hrack hmounted => ?_, fun hneed hremove => ?_⟩
    · intro hastens booked
      have hpocket : s.pocketOf i = some k := pocketOf_eq hu hplace
      refine ⟨fun hneed hrack => ?_, fun o ho hneed hhastens hrack hkind hin hbusy huniq => ?_⟩
      · have hbooked : ∀ o : Order, o.number = n → booked o = { (s.enqueue o).setPos x
            { p with rack := .booked n, need := .staging } with
            ret.waiting := s.ret.waiting.filter fun y => decide (y ≠ x) } := by
          intro o hn
          rw [← henters o hn]
        have hdirect : hastens → t = (e.postOrder x .direct true (some i) mounted (some k)).st := by
          intro hh
          classical
          have hcalls : s.callsDirect x = some (i, none) := by
            rw [callsDirect_reserved hsister hu hneed hrack, if_pos hh]
          show (e.handOff x).st = _
          rw [Ev.handOff_direct hx hs hreturn hcalls, ← hpocket]
        have hstage : ¬hastens → t = (e.postOrder x .stage p.urgent (some i) none (some k)).st := by
          intro hh
          classical
          have hcalls : s.callsDirect x = none := by
            rw [callsDirect_reserved hsister hu hneed hrack, if_neg hh]
          have hstages : s.callsStage x = some i := (if_pos ⟨hneed, hrack⟩).trans hsister
          show (e.handOff x).st = _
          rw [Ev.handOff_stage hx hs hreturn hcalls hstages, ← hpocket]
        refine ⟨fun hr => ?_, fun hr hh => ?_, fun hr hh => ?_⟩
        · by_cases hh : hastens
          · exact hcreated _ _ _ _ _ hr (hdirect hh)
          · exact hcreated _ _ _ _ _ hr (hstage hh)
        · rw [hdirect hh, Ev.st_postOrder_carrier (hroom hr) (.inr rfl)]
          exact (hbooked _ rfl).symm
        · rw [hstage hh, Ev.st_postOrder_carrier (hroom hr) (.inl rfl)]
          exact (hbooked _ rfl).symm
      · intro d m
        have hcalls := callsDirect_replacing hsister hu hneed hhastens ho hrack hkind hin hbusy huniq
        show (e.handOff x).st = _
        rw [Ev.handOff_direct hx hs hreturn hcalls]
        show (e.replaceStage x i o mounted).st = _
        rw [Ev.st_replaceStage huniq, show e.st.pocketOf i = some k from hpocket]
        rfl
    · have hcalls : s.callsExchange x = some i := (callsExchange_staged hneed hnone hservice).trans hsister
      have ht : t = (e.postOrder x .exchange p.urgent (some i) mounted none).st :=
        congrArg Ev.st (Ev.handOff_exchange hx hs hreturn hneed hcalls)
      refine ⟨fun hr => ?_, fun hr => hcreated _ _ _ _ _ hr ht⟩
      rw [ht, Ev.st_postOrder_exchange (hroom hr)]
      exact (henters _ rfl).symm
    · have hcalls := callsRemove_eq_some hrequired hreleased hrack hmounted
      have hbroken : s.mountedBroken x = decide (v.condition = .broken) := by
        unfold State.mountedBroken
        rw [hmounted]
      have ht : t = (e.postOrder x .remove (decide (v.condition = .broken)) none (some j) none).st := by
        rw [← hbroken]
        exact congrArg Ev.st (Ev.handOff_remove hx hs hreturn hneed hcalls)
      refine ⟨fun hr => ?_, fun hr => hcreated _ _ _ _ _ hr ht⟩
      rw [ht, Ev.st_postOrder_remove (hroom hr)]
      exact congrArg (fun v => State.setPos v x _) (henters _ rfl).symm
    · exact congrArg Ev.st (Ev.handOff_nothing hx hs hreturn hneed (callsRemove_eq_none hremove))

end Sys2Proof.Machine

/-! PROOFS. The end of an event: the pocket arbiter and ORDER_READY (R28, R118, R123). -/
namespace Sys2Proof.Machine

/-! ## The pocket arbiter (R118) -/

/-- A position that the pocket arbiter serves. -/
def State.WaitsForPocket (s : State) (x : PosIx) : Prop :=
  s.present x = true ∧ (s.pos x).suspended = false ∧ (s.pos x).returnWaiting = true

theorem waitsForPocket_iff (s : State) (x : PosIx) :
    (s.present x && !(s.pos x).suspended && (s.pos x).returnWaiting) = true ↔ s.WaitsForPocket x := by
  simp [State.WaitsForPocket, and_assoc]

theorem flagged_eq_none {s : State} (h : ∀ x, ¬s.WaitsForPocket x) : s.flagged = none :=
  List.find?_eq_none.mpr fun x _ hx => h x ((waitsForPocket_iff s x).mp hx)

theorem flagged_eq_some {s : State} {x : PosIx} (hx : s.WaitsForPocket x) (hlow : ∀ y, y < x → ¬s.WaitsForPocket y) :
    s.flagged = some x := by
  rw [State.flagged, allPositions, ← Fin.find?_eq_find?_finRange, Fin.find?_eq_some_iff]
  exact ⟨(waitsForPocket_iff s x).mpr hx,
    fun y hy => Bool.eq_false_iff.mpr fun h => hlow y hy ((waitsForPocket_iff s y).mp h)⟩

section
variable {e : Ev} {k : PocketIx}

theorem Ev.offerPocket_taken (h : e.st.pocket k ≠ .free) : e.offerPocket k = e := if_neg h

theorem Ev.offerPocket_none (h : e.st.flagged = none) : e.offerPocket k = e := by
  unfold Ev.offerPocket
  simp only [h, ite_self]

theorem Ev.offerPocket_some {x : PosIx} {i : EntryIx} (hk : e.st.pocket k = .free) (hx : e.st.flagged = some x)
    (hi : e.st.callsReturn x = some i) : e.offerPocket k = e.postReturn x i (some k) := by
  unfold Ev.offerPocket
  simp only [hk, hx, hi, if_true]

end

/-! ## The flag ORDER_READY (R123) -/

/-- ORDER_READY stands at PC. -/
def State.ReadyFlag (s : State) : Prop := (s.port .pc).notices &&& Notice.orderReady.mask ≠ 0

theorem orderReady_iff (s : State) : s.orderReady = true ↔
    (∀ o ∈ s.ret.queue, o.busy = false) ∧ ∃ o ∈ s.ret.queue, o.state = .ready ∧ s.present o.pos = true := by
  simp [State.orderReady, State.busyOrder, State.takeable, Bool.and_eq_true]

theorem present_congr {s t : State} (h : t.strap = s.strap) : t.present = s.present := by
  unfold State.present
  rw [h]

theorem orderReady_congr {s t : State} (hqueue : t.ret.queue = s.ret.queue) (hstrap : t.strap = s.strap) :
    t.orderReady = s.orderReady := by
  rw [Bool.eq_iff_iff, orderReady_iff, orderReady_iff, hqueue, present_congr hstrap]

theorem readyFlag_notify (s : State) : (s.notify .pc .orderReady).ReadyFlag := by
  have hport : ((s.notify .pc .orderReady).port .pc).notices = (s.port .pc).notices ||| Notice.orderReady.mask := by
    show ((s.setPort .pc _).port .pc).notices = _
    rw [State.port_setPort, if_pos rfl]
  unfold State.ReadyFlag
  rw [hport, and_or_mask, BitVec.and_self]
  intro h
  have hmask := (BitVec.or_eq_zero_iff.mp h).2
  revert hmask
  decide

theorem readyFlag_raiseOrderReady (s : State) (q : List Order) :
    (s.raiseOrderReady q).ReadyFlag ↔ s.ReadyFlag ∨ s.ret.queue ≠ q ∧ s.orderReady = true := by
  unfold State.raiseOrderReady
  split
  · next h => exact iff_of_true (readyFlag_notify s) (.inr h)
  · next h => exact ⟨.inl, fun hor => hor.resolve_right h⟩

theorem Outside.readyFlag_iff {s t : State} (h : Outside s t) : t.ReadyFlag ↔ s.ReadyFlag := by
  unfold State.ReadyFlag
  rw [h.ready]

theorem readyFlag_commit_drive (s : State) : s.commit.drive.ReadyFlag ↔ s.ReadyFlag := by
  unfold State.ReadyFlag
  rw [State.port_drive]
  rfl

/-! ### What a change makes of it -/

/-- Where the queue has changed and an order may be taken, the flag stands; and it is newly set only where an order may be
taken. -/
structure TellsReady (s t : State) : Prop where
  told : t.ret.queue ≠ s.ret.queue → t.orderReady = true → t.ReadyFlag
  new : ¬s.ReadyFlag → t.ReadyFlag → t.orderReady = true

/-- The flag stays set, and an order that may be taken stays there to be taken. -/
structure KeepsReady (s t : State) : Prop where
  strap : t.strap = s.strap
  flag : s.ReadyFlag → t.ReadyFlag
  ready : s.orderReady = true → t.orderReady = true

theorem KeepsReady.refl (s : State) : KeepsReady s s := ⟨rfl, id, id⟩

theorem KeepsReady.trans {s t u : State} (h : KeepsReady s t) (g : KeepsReady t u) : KeepsReady s u :=
  ⟨g.strap.trans h.strap, g.flag ∘ h.flag, g.ready ∘ h.ready⟩

theorem TellsReady.refl (s : State) : TellsReady s s := ⟨fun h => absurd rfl h, fun h g => absurd g h⟩

theorem TellsReady.trans {s t u : State} (h : TellsReady s t) (g : TellsReady t u) (hkeep : KeepsReady t u) :
    TellsReady s u := by
  refine ⟨fun hchanged hready => ?_, fun hclear hflag => ?_⟩
  · by_cases hq : u.ret.queue = t.ret.queue
    · rw [hq] at hchanged
      rw [orderReady_congr hq hkeep.strap] at hready
      exact hkeep.flag (h.told hchanged hready)
    · exact g.told hq hready
  · by_cases ht : t.ReadyFlag
    · exact hkeep.ready (h.new hclear ht)
    · exact g.new ht hflag

theorem Calm.readyFlag_iff {s t : State} (h : Calm s t) : t.ReadyFlag ↔ s.ReadyFlag := by
  unfold State.ReadyFlag
  rw [h.pcNotices]

theorem Calm.keepsReady {s t : State} (h : Calm s t) : KeepsReady s t :=
  ⟨h.strap, h.readyFlag_iff.mpr, fun hr => by rw [orderReady_congr (by rw [h.ret]) h.strap]; exact hr⟩

theorem Calm.tellsReady {s t : State} (h : Calm s t) : TellsReady s t :=
  ⟨fun hchanged => absurd (by rw [h.ret]) hchanged, fun hclear hflag => absurd (h.readyFlag_iff.mp hflag) hclear⟩

/-! ### The end of an event -/

section
variable {w : Clearing}

theorem Own.outside {s : State} {e : Ev} (h : Own w s e) : Outside s (e.handOffs.offerPockets s).st :=
  (h.steps.outside).trans (steps_offerPockets (C := fun _ => False) s e).outside

theorem strap_raiseOrderReady (s : State) (q : List Order) : (s.raiseOrderReady q).strap = s.strap := by
  unfold State.raiseOrderReady
  split
  · exact State.strap_notify _ _ _
  · rfl

theorem strap_finish {s : State} {e : Ev} (h : Own w s e) : (finish s e).strap = s.strap :=
  (strap_raiseOrderReady _ _).trans h.outside.strap

theorem orderReady_finish {s : State} {e : Ev} (h : Own w s e) :
    (finish s e).orderReady = (e.handOffs.offerPockets s).st.orderReady :=
  orderReady_congr (by rw [ret_finish]) ((strap_finish h).trans h.outside.strap.symm)

theorem readyFlag_finish {s : State} {e : Ev} (h : Own w s e) : (finish s e).ReadyFlag ↔
    s.ReadyFlag ∨ (finish s e).ret.queue ≠ s.ret.queue ∧ (finish s e).orderReady = true := by
  rw [orderReady_finish h, ret_finish]
  unfold finish
  rw [readyFlag_commit_drive, readyFlag_raiseOrderReady, h.outside.readyFlag_iff]

theorem Own.tellsReady {s : State} {e : Ev} (h : Own w s e) : TellsReady s (finish s e) := by
  have hflag := readyFlag_finish h
  exact ⟨fun hchanged hready => hflag.mpr (.inr ⟨hchanged, hready⟩),
    fun hclear hset => ((hflag.mp hset).resolve_left hclear).2⟩

end

/-! ### The hand-offs leave an order that may be taken -/

/-- Every order that may be taken has one that may be taken in its place, and no order goes out. -/
theorem orderReady_of_queue {s t : State} (hstrap : t.strap = s.strap)
    (hnew : ∀ o ∈ t.ret.queue, o ∈ s.ret.queue ∨ o.busy = false)
    (hkept : ∀ o ∈ s.ret.queue, o.state = .ready → s.present o.pos = true →
      ∃ q ∈ t.ret.queue, q.state = .ready ∧ s.present q.pos = true) (h : s.orderReady = true) : t.orderReady = true := by
  obtain ⟨hidle, o, ho, hready, hpresent⟩ := (orderReady_iff s).mp h
  rw [orderReady_iff, present_congr hstrap]
  exact ⟨fun q hq => (hnew q hq).elim (hidle q) id, hkept o ho hready hpresent⟩

theorem orderReady_enqueue {s : State} (o : Order) (h : s.orderReady = true) : (s.enqueue o).orderReady = true := by
  have hqueue : (s.enqueue o).ret.queue = insertOrder { o with state := .ready } s.ret.queue ∨
      (s.enqueue o).ret.queue = s.ret.queue := by
    unfold State.enqueue
    split
    · exact .inl rfl
    · exact .inr rfl
  refine orderReady_of_queue (outside_enqueue s o).strap (fun q hq => ?_) (fun q hq hready hpresent => ⟨q, ?_, hready, hpresent⟩) h
  · obtain he | he := hqueue
    · rw [he, mem_insertOrder] at hq
      obtain rfl | hq := hq
      · exact .inr rfl
      · exact .inl hq
    · exact .inl (he ▸ hq)
  · obtain he | he := hqueue
    · rw [he, mem_insertOrder]
      exact .inr hq
    · rwa [he]

theorem orderReady_replaceOrder {s : State} {n : Nat} {o : Order} (hpresent : s.present o.pos = true) (hbusy : o.busy = false)
    (hstate : o.state = if s.ret.queue.any fun q => decide (q.number = n) then .ready else .backlog)
    (h : s.orderReady = true) : (s.replaceOrder n o).orderReady = true := by
  unfold State.replaceOrder
  split
  · next hin =>
    rw [if_pos hin] at hstate
    refine orderReady_of_queue (s := s) rfl (fun q hq => ?_) (fun q hq hready hqpos => ?_) h
    · obtain rfl | hq := mem_insertOrder.mp hq
      · exact .inr hbusy
      · exact .inl (mem_dropNumber.mp hq).1
    · exact ⟨o, mem_insertOrder.mpr (.inl rfl), hstate, hpresent⟩
  · exact (orderReady_congr rfl rfl).trans h

section
variable {e : Ev} {x : PosIx}

theorem Ev.orderReady_postReturn (i : EntryIx) (k : Option PocketIx) (h : e.st.orderReady = true) :
    (e.postReturn x i k).st.orderReady = true := by
  unfold Ev.postReturn
  split
  · cases k with
    | none => exact (orderReady_congr rfl rfl).trans (orderReady_enqueue _ h)
    | some k => exact (orderReady_congr rfl rfl).trans (orderReady_enqueue _ h)
  · exact h

theorem Ev.orderReady_postOrder (kind : OrderKind) (u : Bool) (i j : Option EntryIx) (k : Option PocketIx)
    (h : e.st.orderReady = true) : (e.postOrder x kind u i j k).st.orderReady = true := by
  have henter := orderReady_enqueue (e.st.newOrder x kind u i j k) h
  unfold Ev.postOrder
  split
  · dsimp only
    split
    · split
      · exact (orderReady_congr rfl rfl).trans henter
      · exact (orderReady_congr rfl rfl).trans henter
    · split
      · exact (orderReady_congr rfl rfl).trans henter
      · exact henter
  · exact h

theorem Ev.orderReady_replaceStage (i : EntryIx) (o : Order) (j : Option EntryIx) (hx : e.st.present x = true)
    (h : e.st.orderReady = true) : (e.replaceStage x i o j).st.orderReady = true := by
  rw [Ev.replaceStage_eq]
  refine (orderReady_congr rfl rfl).trans (orderReady_replaceOrder (o := e.st.replacing x i o j) hx ?_ rfl h)
  unfold State.replacing Order.busy
  split <;> rfl

theorem Ev.orderReady_handOff (h : e.st.orderReady = true) : (e.handOff x).st.orderReady = true := by
  unfold Ev.handOff
  dsimp only
  split
  · unfold Ev.callReturn
    split
    · exact Ev.orderReady_postReturn _ _ h
    · split
      · exact Ev.orderReady_postReturn _ _ h
      · rw [Ev.st_awaitPocket]
        split
        · exact h
        · refine (orderReady_congr ?_ ?_).trans h
          · rw [State.ret_notify]
            rfl
          · exact State.strap_notify _ _ _
  · exact Ev.orderReady_postOrder _ _ _ _ _ h
  · next hcall => exact Ev.orderReady_replaceStage _ _ _ (callFor_cases hcall).1.1 h
  · exact Ev.orderReady_postOrder _ _ _ _ _ h
  · exact Ev.orderReady_postOrder _ _ _ _ _ h
  · exact Ev.orderReady_postOrder _ _ _ _ _ h
  · exact h

theorem Ev.orderReady_offerPocket (k : PocketIx) (h : e.st.orderReady = true) : (e.offerPocket k).st.orderReady = true := by
  unfold Ev.offerPocket
  split
  · split
    · split
      · exact Ev.orderReady_postReturn _ _ h
      · exact h
    · exact h
  · exact h

end

theorem Ev.orderReady_foldl {α : Type} {f : Ev → α → Ev} (hf : ∀ e a, e.st.orderReady = true → (f e a).st.orderReady = true)
    (l : List α) {e : Ev} (h : e.st.orderReady = true) : (l.foldl f e).st.orderReady = true := by
  induction l generalizing e with
  | nil => exact h
  | cons a l ih => exact ih (hf e a h)

theorem Ev.orderReady_settled (before : State) {e : Ev} (h : e.st.orderReady = true) :
    (e.handOffs.offerPockets before).st.orderReady = true :=
  Ev.orderReady_foldl (fun _ k => Ev.orderReady_offerPocket k) _
    (Ev.orderReady_foldl (fun _ _ => Ev.orderReady_handOff) _ h)

/-! ### Commands -/

section
variable {w : Clearing}

theorem Move.keepsReady {s t : State} (h : Move w s t) : KeepsReady s t := by
  cases h with
  | calm hc => exact hc.keepsReady
  | @event e ho hqueue =>
    refine ⟨strap_finish ho, fun hf => (readyFlag_finish ho).mpr (.inl hf), fun hr => ?_⟩
    have hnone : s.busyOrder = none := List.find?_eq_none.mpr fun o hmem hbusy =>
      absurd hbusy (Bool.eq_false_iff.mp (((orderReady_iff s).mp hr).1 o hmem))
    rw [orderReady_finish ho]
    exact Ev.orderReady_settled s ((orderReady_congr (hqueue hnone) ho.steps.outside.strap).trans hr)

theorem Move.tellsReady {s t : State} (h : Move w s t) : TellsReady s t := by
  cases h with
  | calm hc => exact hc.tellsReady
  | event ho _ => exact ho.tellsReady

theorem TellsReady.moves {s t u : State} (h : TellsReady s t) (hm : Relation.ReflTransGen (Move w) t u) : TellsReady s u := by
  induction hm with
  | refl => exact h
  | tail _ hmove ih => exact ih.trans hmove.tellsReady hmove.keepsReady

end

theorem Silenced.tellsReady {s t : State} (h : Silenced s t) : TellsReady s t := by
  refine ⟨fun hchanged => absurd (by rw [h.ret]) hchanged, fun _ hset => absurd ?_ hset⟩
  rw [h.pcNotices]
  exact BitVec.zero_and

theorem outside_notify_ps (s : State) (n : Notice) : Outside s (s.notify .ps n) :=
  (Quiet.notify (p := .ps) s nofun).toOutside

theorem outside_heldNotices (s : State) : Outside s s.heldNotices := by
  unfold State.heldNotices
  have hfold : ∀ (l : List PosIx) (u : State), Outside u
      (l.foldl (fun s' x => if (s.pos x).service = .held then s'.notifySlot x .held else s') u) := by
    intro l
    induction l with
    | nil => exact fun u => .refl u
    | cons x l ih =>
      intro u
      refine Outside.trans ?_ (ih _)
      dsimp only
      split
      · exact (Quiet.notifySlot u x _).toOutside
      · exact .refl u
  exact hfold allPositions s

theorem not_readyFlag_warmed (pins : Strap) (s : State) : ¬(s.warmed pins).ReadyFlag := by
  have hport : ((s.warmed pins).port .pc).notices = 0 := by
    show ((s.vol.ports.map PortState.restart)[Port.pc.ix]).notices = 0
    simp [PortState.restart, PortState.start]
  unfold State.ReadyFlag
  rw [hport]
  exact fun h => h BitVec.zero_and

/-- A warm start leaves the flag set exactly where an order may be taken. -/
theorem readyFlag_warmStart (pins : Strap) (s : State) : (warmStart pins s).ReadyFlag ↔ (warmStart pins s).orderReady = true := by
  have hsettled := (steps_warmStart (fun _ => False) pins s).outside
  rw [warmStart_eq]
  generalize (Ev.start (s.warmed pins)).arbitrateStart.handOffs.st = u at hsettled
  have hclear : ¬(u.notify .ps .restarted).heldNotices.ReadyFlag := by
    rw [(outside_heldNotices _).readyFlag_iff, (outside_notify_ps u _).readyFlag_iff, hsettled.readyFlag_iff]
    exact not_readyFlag_warmed pins s
  have hstrap : ∀ v : State, v.commit.drive.strap = v.strap := fun _ => rfl
  rw [readyFlag_commit_drive, orderReady_congr (State.ret_commit_drive _ ▸ rfl) (hstrap _)]
  unfold State.warmNotices
  dsimp only
  split
  · next hready =>
    refine iff_of_true (readyFlag_notify _) ?_
    rw [orderReady_congr (by rw [State.ret_notify]) (State.strap_notify _ _ _)]
    exact hready
  · next hready => exact iff_of_false hclear hready

theorem Break.tellsReady {s t : State} (h : Break s t) : TellsReady s t := by
  cases h with
  | silenced h => exact h.tellsReady
  | warm pins _ =>
    have hflag := readyFlag_warmStart pins
    exact ⟨fun _ hready => (hflag _).mpr hready, fun _ hset => (hflag _).mp hset⟩

/-- A cold start leaves the queue empty and the notices of PC with it. -/
theorem coldStart_tellsReady (pins : Strap) (s u : State) : TellsReady s (coldStart pins u) := by
  have hidle : (coldStart pins u).orderReady = false := by
    rw [Bool.eq_false_iff]
    intro h
    obtain ⟨-, o, ho, -⟩ := (orderReady_iff _).mp h
    rw [ret_coldStart] at ho
    cases ho
  have hclear : ¬(coldStart pins u).ReadyFlag := by
    unfold coldStart
    rw [readyFlag_commit_drive, (outside_notify_ps _ _).readyFlag_iff, (outside_notify_ps _ _).readyFlag_iff]
    exact not_readyFlag_warmed pins u
  exact ⟨fun _ h => absurd (h.symm.trans hidle) nofun, fun _ h => absurd h hclear⟩

/-- A change seen from before a calm one. -/
theorem TellsReady.after {s t u : State} (hc : Calm s t) (h : TellsReady t u) : TellsReady s u :=
  ⟨fun hchanged => h.told (by rwa [hc.ret]), fun hclear => h.new (by rwa [hc.readyFlag_iff])⟩

theorem Runs.tellsReady {w : Clearing} {s t : State} (h : Runs w s t) : TellsReady s t := by
  cases h with
  | moves hu hv hm =>
    refine TellsReady.moves ?_ hm
    obtain rfl | hb := hv
    · exact hu.tellsReady
    · exact hb.tellsReady.after hu
  | event hu ho ht => exact (ho.tellsReady.after hu).trans ht.tellsReady ht.keepsReady
  | cold pins ht => exact (coldStart_tellsReady pins s _).trans ht.tellsReady ht.keepsReady

/-! ## The end of an event, for the pocket arbiter and the changer -/

/-- A FREE pocket goes to the flagged position's OFFLOADED tool, whose RETURN books it. -/
theorem Ev.st_offerPocket {e : Ev} {k : PocketIx} {x : PosIx} {i : EntryIx} {u : Tool} (hk : e.st.pocket k = .free)
    (hx : e.st.WaitsForPocket x) (hlow : ∀ y, y < x → ¬e.st.WaitsForPocket y) (hrack : (e.st.pos x).rack = .entry i)
    (hu : e.st.tool i = some u) (hstate : u.state = .offloaded)
    (hnamed : ∀ o ∈ e.st.standing, o.incoming ≠ some i ∧ o.outgoing ≠ some i) :
    e.offerPocket k = e.postReturn x i (some k) :=
  Ev.offerPocket_some hk (flagged_eq_some hx hlow) ((callsReturn_eq_some_iff _ _ _).mpr ⟨hrack, ⟨u, hu, hstate⟩, hnamed⟩)

theorem pocket_congr {s t : State} (h : t.ret = s.ret) (k : PocketIx) : t.pocket k = s.pocket k := by
  rw [State.pocket, State.pocket, h]

theorem pos_congr {s t : State} (h : t.ret = s.ret) (x : PosIx) : t.pos x = s.pos x := by
  rw [State.pos, State.pos, h]

/-- An event that frees one pocket offers that one. -/
theorem freedSince_eq_singleton {before s : State} {k : PocketIx} (h : ∀ j, (s.pocket j = .free ∧ before.pocket j ≠ .free) ↔ j = k) :
    before.freedSince s = [k] := by
  refine List.perm_singleton.mp ((List.perm_ext_iff_of_nodup ((List.nodup_finRange _).filter _) (List.nodup_singleton k)).mpr
    fun j => ?_)
  rw [List.mem_filter, List.mem_singleton, Bool.and_eq_true, decide_eq_true_eq, decide_eq_true_eq, h j]
  exact and_iff_right (List.mem_finRange j)

/-- The pocket that a DECLARE frees is offered to the arbiter, and nothing else follows. -/
theorem ret_declarePocketEvent {s : State} {k : PocketIx} (h : s.pocket k = .unknown) :
    (declarePocketEvent k s).ret = (((Ev.start s).setPocket k .free).offerPocket k).st.ret := by
  have hfreed : s.freedSince (s.setPocket k .free) = [k] := freedSince_eq_singleton fun j => by
    rw [State.pocket_setPocket]
    split
    · next hj => exact iff_of_true ⟨rfl, by rw [← hj, h]; nofun⟩ hj.symm
    · next hj => exact iff_of_false (fun hboth => hboth.2 hboth.1) fun he => hj he.symm
  unfold declarePocketEvent
  rw [ret_finish]
  show ((s.freedSince (s.setPocket k .free)).foldl Ev.offerPocket ((Ev.start s).setPocket k .free)).st.ret = _
  rw [hfreed]
  rfl

/-- Settles O49: the arbiter's rule, its use by DECLARE, and ORDER_READY along every command. -/
theorem eventsEnd : Obligations.EventsEnd := by
  refine ⟨fun e k => ?_, fun k x i u s hl hk hx hs hw hlow hrack hu hstate hnamed hroom => ?_, fun c s t h => ?_⟩
  · intro s t waits
    refine ⟨fun h => ?_, fun x i u hk hx hlow hrack hu hstate hnamed => ?_⟩
    · obtain h | h := h
      · exact congrArg Ev.st (Ev.offerPocket_taken h)
      · exact congrArg Ev.st (Ev.offerPocket_none (flagged_eq_none h))
    · intro n o next m
      have ht : t = (e.postReturn x i (some k)).st := congrArg Ev.st (Ev.st_offerPocket hk hx hlow hrack hu hstate hnamed)
      have hm : m = s.enqueue o := (enqueue_eq s o).symm
      rw [ht]
      split
      · next hr =>
        rw [Ev.st_postReturn_pocket ((hasRoom_iff s).mpr hr)]
        exact congrArg (fun v => State.setPocket (State.setPos v x _) k _) hm.symm
      · next hr => rw [Ev.postReturn_full (hasRoom_eq_false hr)]
  · set e := (Ev.start s).setPocket k .free
    have hoffer : e.offerPocket k = e.postReturn x i (some k) := by
      refine Ev.st_offerPocket (u := u) ?_ ⟨hx, hs, hw⟩ (fun y hy hwaits => ?_) hrack hu hstate hnamed
      · exact (State.pocket_setPocket s k .free k).trans (if_pos rfl)
      · obtain ⟨hpresent, hactive, hflag⟩ := hwaits
        obtain h | h | h := hlow y hy
        · exact absurd (hpresent.symm.trans h) nofun
        · exact absurd (hactive.symm.trans h) nofun
        · exact absurd (hflag.symm.trans h) nofun
    have hpost : (declarePocketEvent k s).ret = (((e.st.enqueue (e.st.newOrder x .return_ false none (some i) (some k))).setPos x
        { e.st.pos x with returnWaiting := false }).setPocket k (.booked e.st.nextNumber)).ret := by
      rw [ret_declarePocketEvent hk, hoffer, Ev.st_postReturn_pocket ((hasRoom_iff _).mpr (.inl hroom))]
    have hpocket : (declarePocketEvent k s).pocket k = .booked s.nextNumber := by
      refine (pocket_congr hpost k).trans ?_
      rw [State.pocket_setPocket, if_pos rfl]
      rfl
    refine ⟨declarePocketEvent k s, ?_, hpocket, ?_⟩
    · show serve .ps 37 (declarePocketBody (k.val + 1) s) s = _
      have hbody : declarePocketBody (k.val + 1) s =
          .ok (declarePocketEvent k s, byte (k.val + 1) :: pocketBytes ((declarePocketEvent k s).pocket k)) := by
        simp [declarePocketBody, pocketOperand_succ, hk]
      rw [hbody, serve_accepted hl, hpocket]
      rfl
    · rw [pos_congr hpost x, State.pos_setPocket, State.pos_setPos, if_pos rfl]
  · intro ready
    have htells := (exec_runs (Clearing.anybody_allows c) h).tellsReady
    exact ⟨fun hq hr => htells.told hq ((orderReady_iff t).mpr hr),
      fun hclear hset => (orderReady_iff t).mp (htells.new (fun hs => hs hclear) hset)⟩

end Sys2Proof.Machine

/-! PROOFS. RELEASE, RECLAIM and the verdicts (R84 to R87, R163). -/
namespace Sys2Proof.Machine

/-! ## What is handed over at the end of an event -/

theorem Ev.touched_updPos_single {e : Ev} {x : PosIx} (h : e.touched = [x]) (f : Position → Position) :
    (e.updPos x f).touched = [x] := by
  unfold Ev.updPos
  dsimp only
  rw [h]
  split
  · rfl
  · simp

theorem Ev.touched_updPos_first {e : Ev} {x : PosIx} {f : Position → Position} (h : e.touched = [])
    (hnew : (e.st.pos x).sameForHandOff (f (e.st.pos x)) = false) : (e.updPos x f).touched = [x] := by
  unfold Ev.updPos
  dsimp only
  rw [h, if_neg (by rw [hnew]; nofun)]
  rfl

theorem Ev.touched_needTest_single {e : Ev} {x : PosIx} (h : e.touched = [x]) : (e.needTest x).touched = [x] := by
  have hurgent := Ev.touched_updPos_single h (·.setUrgent (e.st.mountedBroken x))
  unfold Ev.needTest
  split
  · unfold Ev.raiseNeed
    dsimp only
    split
    · next i _ =>
      exact Ev.touched_updPos_single (e := (e.updPos x (·.setUrgent (e.st.mountedBroken x))).updTool i _) hurgent _
    · exact Ev.touched_updPos_single hurgent _
  · exact h

/-- The work that follows an event frees no pocket. -/
theorem freedSince_eq_nil {before m u : State} (h : Follows m u) (hm : m.ret.pockets = before.ret.pockets) :
    before.freedSince u = [] := by
  unfold State.freedSince
  rw [List.filter_eq_nil_iff]
  intro k _ hk
  rw [Bool.and_eq_true, decide_eq_true_eq, decide_eq_true_eq] at hk
  obtain ⟨hfree, hused⟩ := hk
  have hpocket : m.pocket k = before.pocket k := by rw [State.pocket, State.pocket, hm]
  rw [← hpocket] at hused
  exact hused ((h.taken k hused).symm.trans hfree)

/-- An event that frees no pocket ends with its hand-offs. -/
theorem ret_finish_of_follows {before m : State} {e : Ev} (h : Follows m e.st) (hm : m.ret.pockets = before.ret.pockets) :
    (finish before e).ret = e.handOffs.st.ret := by
  rw [ret_finish, Ev.offerPockets, freedSince_eq_nil (h.trans (Ev.follows_handOffs e)) hm]
  rfl

theorem Ev.postReturn_st_congr {e e' : Ev} (h : e.st = e'.st) (x : PosIx) (i : EntryIx) (k : Option PocketIx) :
    (e.postReturn x i k).st = (e'.postReturn x i k).st := by
  obtain ⟨s, l⟩ := e
  obtain ⟨s', l'⟩ := e'
  obtain rfl : s = s' := h
  unfold Ev.postReturn
  dsimp only
  split
  · cases k <;> rfl
  · rfl

theorem Ev.postOrder_st_congr {e e' : Ev} (h : e.st = e'.st) (x : PosIx) (kind : OrderKind) (u : Bool) (i j : Option EntryIx)
    (k : Option PocketIx) : (e.postOrder x kind u i j k).st = (e'.postOrder x kind u i j k).st := by
  obtain ⟨s, l⟩ := e
  obtain ⟨s', l'⟩ := e'
  obtain rfl : s = s' := h
  unfold Ev.postOrder
  dsimp only
  split
  · cases kind <;> rfl
  · rfl

theorem Ev.replaceStage_st_congr {e e' : Ev} (h : e.st = e'.st) (x : PosIx) (i : EntryIx) (o : Order) (j : Option EntryIx) :
    (e.replaceStage x i o j).st = (e'.replaceStage x i o j).st := by
  obtain ⟨s, l⟩ := e
  obtain ⟨s', l'⟩ := e'
  obtain rfl : s = s' := h
  rfl

/-- The hand-off of a position reads and changes the state alone. -/
theorem Ev.handOff_st_congr {e e' : Ev} (h : e.st = e'.st) (x : PosIx) : (e.handOff x).st = (e'.handOff x).st := by
  unfold Ev.handOff
  dsimp only
  rw [h]
  split
  · unfold Ev.callReturn
    rw [h]
    split
    · exact Ev.postReturn_st_congr h x _ _
    · split
      · exact Ev.postReturn_st_congr h x _ _
      · rw [Ev.st_awaitPocket, Ev.st_awaitPocket, h]
  · exact Ev.postOrder_st_congr h x _ _ _ _ _
  · exact Ev.replaceStage_st_congr h x _ _ _
  · exact Ev.postOrder_st_congr h x _ _ _ _ _
  · exact Ev.postOrder_st_congr h x _ _ _ _ _
  · exact Ev.postOrder_st_congr h x _ _ _ _ _
  · exact h

/-! ## RELEASE (R84) -/

/-- A posted order stands, READY or BACKLOG. -/
theorem mem_standing_enqueue (s : State) (o : Order) :
    ∃ st : OrderState, { o with state := st } ∈ (s.enqueue o).standing ∧ (st = .ready ∨ st = .backlog) := by
  unfold State.enqueue State.standing
  split
  · exact ⟨.ready, List.mem_append_left _ (mem_insertOrder.mpr (.inl rfl)), .inl rfl⟩
  · exact ⟨.backlog, List.mem_append_right _ (mem_insertOrder.mpr (.inl rfl)), .inr rfl⟩

theorem Order.not_busy {o : Order} (h : o.state = .ready ∨ o.state = .backlog) : o.busy = false := by
  unfold Order.busy
  obtain h | h := h <;> rw [h] <;> rfl

theorem standing_congr {s t : State} (h : t.ret = s.ret) : t.standing = s.standing := by
  rw [State.standing, State.standing, h]

section
variable {e : Ev} {x : PosIx}

/-- The hand-off of a position with a STAGED sister posts its EXCHANGE (R116). -/
theorem exchangeStands_handOff {i : EntryIx} {t : State} (hx : e.st.present x = true) (hs : (e.st.pos x).suspended = false)
    (hreturn : e.st.callsReturn x = none) (hneed : (e.st.pos x).need = .staged) (hsister : (e.st.pos x).sister = some i)
    (hnone : ∀ q ∈ e.st.standing, ¬(q.kind = .exchange ∧ q.pos = x))
    (hservice : (e.st.pos x).service = .released ∨ (e.st.pos x).service = .vacant) (hroom : e.st.hasRoom = true)
    (ht : t.ret = (e.handOff x).st.ret) :
    ExchangeStands x i ((e.st.mountedTool x).map (·.1)) (e.st.pos x).urgent t := by
  rw [Ev.handOff_exchange hx hs hreturn hneed ((callsExchange_staged hneed hnone hservice).trans hsister),
    Ev.st_postOrder_exchange hroom] at ht
  obtain ⟨st, hmem, hst⟩ := mem_standing_enqueue e.st
    (e.st.newOrder x .exchange (e.st.pos x).urgent (some i) ((e.st.mountedTool x).map (·.1)) none)
  exact ⟨_, standing_congr ht ▸ hmem, rfl, rfl, rfl, rfl, rfl, Order.not_busy hst⟩

theorem callsReturn_of_rack {s : State} (h : ∀ j v, (s.pos x).rack = .entry j → s.tool j = some v → v.state ≠ .offloaded) :
    s.callsReturn x = none :=
  callsReturn_eq_none fun i u hrack hu hstate => absurd hstate (h i u hrack hu)

/-- The need test leaves a position that has a need, or requires no type, as it is. -/
theorem Ev.needTest_idle (h : (e.st.pos x).need ≠ .noNeed ∨ (e.st.pos x).required = none) : e.needTest x = e := by
  have hnone : e.st.needFor x = none := by
    cases hk : e.st.needFor x with
    | none => rfl
    | some k =>
      obtain ⟨-, hneed, -, -, hrequired, -⟩ := needFor_some hk
      obtain h | h := h
      · exact absurd hneed h
      · cases h.symm.trans hrequired
  unfold Ev.needTest
  simp only [hnone]

/-- The hand-off of a RELEASED position that requires no type posts the REMOVE of its tool (R116). -/
theorem removeStands_handOff {j : EntryIx} {v : Tool} {t : State} (hx : e.st.present x = true)
    (hs : (e.st.pos x).suspended = false) (hneed : (e.st.pos x).need = .noNeed) (hrequired : (e.st.pos x).required = none)
    (hservice : (e.st.pos x).service = .released) (hrack : (e.st.pos x).rack = .bare)
    (hm : e.st.mountedTool x = some (j, v)) (hroom : e.st.hasRoom = true) (ht : t.ret = (e.handOff x).st.ret) :
    ∃ q ∈ t.standing, q.kind = .remove ∧ q.pos = x ∧ q.outgoing = some j ∧ q.busy = false ∧
      q.urgent = decide (v.condition = .broken) ∧ (t.pos x).rack = .booked q.number := by
  have hreturn : e.st.callsReturn x = none := callsReturn_of_rack fun k w h => by rw [hrack] at h; cases h
  rw [Ev.handOff_remove hx hs hreturn hneed (callsRemove_eq_some hrequired hservice hrack hm),
    Ev.st_postOrder_remove hroom] at ht
  obtain ⟨st, hmem, hst⟩ := mem_standing_enqueue e.st (e.st.newOrder x .remove (e.st.mountedBroken x) none (some j) none)
  refine ⟨_, standing_congr ht ▸ hmem, rfl, rfl, rfl, Order.not_busy hst, ?_, ?_⟩
  · show e.st.mountedBroken x = _
    rw [mountedBroken_eq_any, hm]
    rfl
  · rw [pos_congr ht x, State.pos_setPos, if_pos rfl]
    rfl

end

/-- What an accepted RELEASE leaves retained: the need test and the hand-off of the position. -/
theorem ret_releaseEvent {x : PosIx} {s : State} (h : (s.pos x).service = .serving ∨ (s.pos x).service = .due) :
    (releaseEvent x s).ret =
      (((Ev.start (s.setPos x { s.pos x with service := .released })).needTest x).handOff x).st.ret := by
  set e := (Ev.start s).updPos x Position.release with he
  have htouched : e.touched = [x] := Ev.touched_updPos_first rfl (by
    unfold Position.sameForHandOff
    obtain h | h := h <;> simp [Position.release, h])
  have hnow : (e.needTest x).handOffs = (e.needTest x).handOff x := by
    rw [Ev.handOffs, Ev.touched_needTest_single htouched]
    rfl
  have hfinish : (finish s (e.needTest x)).ret = (e.needTest x).handOffs.st.ret :=
    ret_finish_of_follows (Ev.follows_needTest x e) rfl
  refine hfinish.trans ?_
  rw [hnow]
  exact congrArg State.ret (Ev.handOff_st_congr (Ev.needTest_st_congr (e := e)
    (e' := Ev.start (s.setPos x { s.pos x with service := .released })) rfl x) x)

theorem releaseBody_num {n : Station} {sl : Slot} {s : State}
    (h : (s.pos (posAt n sl)).service = .serving ∨ (s.pos (posAt n sl)).service = .due)
    (hw : (s.pos (posAt n sl)).window = false) : releaseBody n sl.num s =
      .ok (releaseEvent (posAt n sl) s, (releaseEvent (posAt n sl) s).positionRecord (posAt n sl)) := by
  simp only [releaseBody, slotOperand_num]
  rw [if_pos ⟨h, hw⟩]

/-- The clauses of O7 on RELEASE. -/
theorem release_settles {n : Station} {sl : Slot} {s : State} (hl : s.listening (.station n) = true)
    (hs : (s.pos (posAt n sl)).service = .serving ∨ (s.pos (posAt n sl)).service = .due)
    (hw : (s.pos (posAt n sl)).window = false) :
    let x := posAt n sl
    let p := s.pos x
    ∃ t : State, exec (.release (.station n) sl.num) s =
        .next (t.answer (.station n) ⟨7, .accepted, t.positionRecord x⟩) ∧
      Settles (s.setPos x { p with service := .released }) t ∧
      (∀ (i : EntryIx) (u : Tool) (k : TypeIx), s.mountedTool x = some (i, u) → p.required = some k →
        p.suspended = false → u.type ≠ k ∨ u.condition ≠ .sound ∨ s.partsLeft u ≤ (s.figures k).stage →
        (t.pos x).need ≠ .noNeed) ∧
      t.ret = (((Ev.start (s.setPos x { p with service := .released })).needTest x).handOff x).st.ret ∧
      (p.suspended = false → s.ret.queue.length < 16 ∨ s.ret.backlog.length < 24 →
        (∀ i, p.need = .staged → p.sister = some i →
          (∀ j v, p.rack = .entry j → s.tool j = some v → v.state ≠ .offloaded) →
          (∀ q ∈ s.standing, ¬(q.kind = .exchange ∧ q.pos = x)) →
          ExchangeStands x i ((s.mountedTool x).map (·.1)) p.urgent t) ∧
        (∀ j v, p.need = .noNeed → p.required = none → p.rack = .bare → s.mountedTool x = some (j, v) →
          ∃ q ∈ t.standing, q.kind = .remove ∧ q.pos = x ∧ q.outgoing = some j ∧ q.busy = false ∧
            q.urgent = decide (v.condition = .broken) ∧ (t.pos x).rack = .booked q.number)) := by
  intro x p
  set m := s.setPos x { p with service := .released } with hm
  have hpos : m.pos x = { p with service := .released } := by rw [hm, State.pos_setPos, if_pos rfl]
  have hmounted : m.mountedTool = s.mountedTool := mountedTool_setPos rfl
  have hpresent : m.present x = true := present_of_listening hl sl
  have hret : (releaseEvent x s).ret = (((Ev.start m).needTest x).handOff x).st.ret := ret_releaseEvent hs
  have hroom : s.ret.queue.length < 16 ∨ s.ret.backlog.length < 24 → m.hasRoom = true := (hasRoom_iff m).mpr
  refine ⟨releaseEvent x s, ?_, settles_finish (Ev.follows_needTest x ((Ev.start s).updPos x Position.release)),
    fun i u k hu hk hactive hcalls => ?_, hret, fun hactive hr => ⟨fun i hneed hsister hrack hnone => ?_,
      fun j v hneed hrequired hrack hv => ?_⟩⟩
  · show serve (.station n) 7 (releaseBody n sl.num s) s = _
    rw [releaseBody_num hs hw, serve_accepted hl]
  · refine ((finish_follows s _).needs x (Ev.needTest_needs (e := (Ev.start s).updPos x Position.release) (k := k) ?_
      fun hneed => ⟨hpresent, hneed, ?_, .inr ⟨?_, i, u, ?_, hcalls⟩⟩)).1
    · exact (congrArg Position.required hpos).trans hk
    · exact (congrArg Position.suspended hpos).trans hactive
    · exact .inr (.inr (.inr (congrArg Position.service hpos)))
    · exact (congrFun hmounted x).trans hu
  · rw [Ev.needTest_idle (.inl (by rw [Ev.st_start, hpos]; show p.need ≠ _; rw [hneed]; nofun))] at hret
    have hstands := exchangeStands_handOff (e := Ev.start m) (i := i) hpresent
      ((congrArg Position.suspended hpos).trans hactive)
      (callsReturn_of_rack fun j v hj => hrack j v ((congrArg Position.rack hpos).symm.trans hj))
      ((congrArg Position.need hpos).trans hneed) ((congrArg Position.sister hpos).trans hsister) hnone
      (.inl (congrArg Position.service hpos)) (hroom hr) hret
    rw [Ev.st_start, hpos, hmounted] at hstands
    exact hstands
  · rw [Ev.needTest_idle (.inr ((congrArg Position.required hpos).trans hrequired))] at hret
    exact removeStands_handOff (e := Ev.start m) hpresent ((congrArg Position.suspended hpos).trans hactive)
      ((congrArg Position.need hpos).trans hneed) ((congrArg Position.required hpos).trans hrequired)
      (congrArg Position.service hpos) ((congrArg Position.rack hpos).trans hrack) ((congrFun hmounted x).trans hv)
      (hroom hr) hret

/-! ## RECLAIM (R85) -/

theorem reclaimBody_num {n : Station} {sl : Slot} {s : State} (h : (s.pos (posAt n sl)).service = .released) :
    reclaimBody n sl.num s =
      .ok (reclaimEvent (posAt n sl) s, (reclaimEvent (posAt n sl) s).positionRecord (posAt n sl)) := by
  simp only [reclaimBody, slotOperand_num]
  rw [if_pos h]

/-- The state after the withdrawal that a RECLAIM makes, the need of a DIRECT gone back to RESERVED. -/
def State.reclaimed (s : State) (x : PosIx) : State :=
  match s.waitingSpindleOrder x with
  | none => s
  | some o =>
    (withdrawn o s).setPos x (if o.kind = .direct then { (withdrawn o s).pos x with need := .reserved }
      else (withdrawn o s).pos x)

theorem State.setPos_self (s : State) (x : PosIx) : s.setPos x (s.pos x) = s := by
  simp [State.setPos, State.pos]

theorem Ev.st_reclaimOrder (x : PosIx) (s : State) :
    ∃ w, ((Ev.start s).reclaimOrder x).st = { s.reclaimed x with ret.waiting := w } := by
  have hwithdraw : ∀ o, ((Ev.start s).withdraw o).st = withdrawn o s := fun o => Ev.st_withdraw o (Ev.start s)
  unfold State.reclaimed Ev.reclaimOrder
  rw [Ev.st_start]
  cases s.waitingSpindleOrder x with
  | none => exact ⟨s.ret.waiting, rfl⟩
  | some o =>
    dsimp only
    split
    · refine ⟨(withdrawn o s).ret.waiting.filter (· ≠ x), ?_⟩
      rw [← hwithdraw]
      rfl
    · refine ⟨(withdrawn o s).ret.waiting, ?_⟩
      rw [State.setPos_self]
      exact hwithdraw o

theorem pos_reclaimed (s : State) (x : PosIx) : ((s.reclaimed x).pos x).settled = (s.pos x).settled := by
  unfold State.reclaimed
  split
  · rfl
  · next o _ =>
    rw [State.pos_setPos, if_pos rfl]
    split
    · exact settled_withdrawn o s x
    · exact settled_withdrawn o s x

/-- The clause of O7 on RECLAIM. -/
theorem reclaim_settles {n : Station} {sl : Slot} {s : State} (hl : s.listening (.station n) = true)
    (hs : (s.pos (posAt n sl)).service = .released) :
    let x := posAt n sl
    let m := (s.reclaimed x).setPos x ((s.reclaimed x).pos x).reclaim
    ∃ t : State, exec (.reclaim (.station n) sl.num) s =
        .next (t.answer (.station n) ⟨8, .accepted, t.positionRecord x⟩) ∧
      Settles (if (s.pos x).dueCause.isSome then m.notifySlot x .due else m) t := by
  intro x m
  set e := ((Ev.start s).reclaimOrder x).updPos x Position.reclaim with he
  obtain ⟨w, hw⟩ := Ev.st_reclaimOrder x s
  have hst : e.st = { m with ret.waiting := w } := by
    show (((Ev.start s).reclaimOrder x).st).setPos x _ = _
    rw [hw]
    rfl
  have hcause : ((s.reclaimed x).pos x).dueCause = (s.pos x).dueCause := by
    show ((s.reclaimed x).pos x).settled.dueCause = (s.pos x).settled.dueCause
    rw [pos_reclaimed]
  have hdue : (e.st.pos x).service = .due ↔ (s.pos x).dueCause.isSome = true := by
    have hpos : e.st.pos x = ((s.reclaimed x).pos x).reclaim := by
      rw [hst]
      show m.pos x = _
      rw [State.pos_setPos, if_pos rfl]
    rw [hpos, ← hcause]
    unfold Position.reclaim
    split <;> simp_all
  have hfollows : Follows m e.st := hst ▸ Follows.waiting m w
  have hnotice : Follows (if (s.pos x).dueCause.isSome then m.notifySlot x .due else m) (e.noticeDue x).st := by
    unfold Ev.noticeDue
    by_cases h : (s.pos x).dueCause.isSome = true
    · rw [if_pos h, if_pos (hdue.mpr h)]
      exact hfollows.notifySlot_congr x .due
    · rw [if_neg h, if_neg fun hd => h (hdue.mp hd)]
      exact hfollows
  show ∃ t, serve (.station n) 8 (reclaimBody n sl.num s) s = _ ∧ _
  rw [reclaimBody_num hs]
  exact serve_ok hl (result := fun t => t.positionRecord x) (settles_finish (hnotice.trans (Ev.follows_needTest x _)))

/-- Settles O7. -/
theorem spindleIsGivenAndTakenBack : Obligations.SpindleIsGivenAndTakenBack := by
  intro n sl s hl x p
  refine ⟨fun hs hw => release_settles hl hs hw, fun hs => ?_⟩
  intro back m
  have hm : m = (s.reclaimed x).setPos x ((s.reclaimed x).pos x).reclaim := by
    unfold State.reclaimed
    simp only [m]
    cases s.waitingSpindleOrder x with
    | none => rfl
    | some o =>
      dsimp only
      rw [State.setPos_setPos, State.pos_setPos, if_pos rfl]
      rfl
  rw [hm]
  exact reclaim_settles hl hs

/-! ## The verdicts (R86, R87, R163) -/

theorem State.setChan_setChan (s : State) (x : PosIx) (c d : Channel) : (s.setChan x c).setChan x d = s.setChan x d := by
  simp [State.setChan]

/-- The monitor side of a verdict and of the end of a hold, as the spec says it (R162, R163). -/
theorem restartChannel_stopTimer (s : State) (x : PosIx) :
    (s.stopTimer x).restartChannel x = s.setChan x (channelRestarted s x) := by
  have hchan : (s.stopTimer x).chan x = { s.chan x with retryTimer := none } := by
    rw [State.stopTimer, State.chan_setChan, if_pos rfl]
  unfold State.restartChannel channelRestarted
  rw [hchan]
  dsimp only
  split
  · next hw =>
    rw [if_pos (show (s.pos x).window = true from hw)]
    split
    · next hoff =>
      rw [if_pos (show (s.pos x).mode = .off from hoff)]
      exact State.setChan_setChan s x _ _
    · next hon =>
      rw [if_neg (show ¬(s.pos x).mode = .off from hon)]
      exact State.setChan_setChan s x _ _
  · next hw =>
    rw [if_neg (show ¬(s.pos x).window = true from hw)]
    rfl

theorem Ev.st_verdictChannel (e : Ev) (x : PosIx) :
    (e.verdictChannel x).st = e.st.setChan x (channelRestarted e.st x) := restartChannel_stopTimer e.st x

theorem Ev.pos_verdictChannel (e : Ev) (x : PosIx) : (e.verdictChannel x).st.pos = e.st.pos := by
  rw [Ev.st_verdictChannel, State.pos_setChan]

/-- What the restart of a channel reads. -/
theorem channelRestarted_congr {s t : State} {x : PosIx} (hchan : t.chan x = s.chan x)
    (hwindow : (t.pos x).window = (s.pos x).window) (hmode : (t.pos x).mode = (s.pos x).mode)
    (hfigures : t.mountedFigures x = s.mountedFigures x) : channelRestarted t x = channelRestarted s x := by
  unfold channelRestarted
  rw [hchan, hwindow, hmode, hfigures]

theorem mountedFigures_congr {s t : State} {x : PosIx} (hmounted : t.mountedTool x = s.mountedTool x)
    (hfigures : t.figures = s.figures) : t.mountedFigures x = s.mountedFigures x := by
  unfold State.mountedFigures
  rw [hmounted, hfigures]

theorem channelRestarted_setPos {s : State} {x : PosIx} {p : Position} (hwindow : p.window = (s.pos x).window)
    (hmode : p.mode = (s.pos x).mode) (hmounted : p.mounted = (s.pos x).mounted) :
    channelRestarted (s.setPos x p) x = channelRestarted s x :=
  channelRestarted_congr rfl (by rw [State.pos_setPos, if_pos rfl, hwindow]) (by rw [State.pos_setPos, if_pos rfl, hmode])
    (mountedFigures_congr (congrFun (mountedTool_setPos hmounted) x) rfl)

theorem channelRestarted_notifySlot (s : State) (x y : PosIx) (n : Slot → Notice) :
    channelRestarted (s.notifySlot y n) x = channelRestarted s x :=
  channelRestarted_congr (by rw [State.chan_notifySlot]) (by rw [State.pos_notifySlot]) (by rw [State.pos_notifySlot])
    (mountedFigures_congr (by rw [State.mountedTool_notifySlot]) (State.figures_notifySlot s y n))

theorem Follows.window {a b : State} (h : Follows a b) (x : PosIx) : (b.pos x).window = (a.pos x).window :=
  show (b.pos x).settled.window = (a.pos x).settled.window by rw [h.positions x]

theorem Follows.mode {a b : State} (h : Follows a b) (x : PosIx) : (b.pos x).mode = (a.pos x).mode :=
  show (b.pos x).settled.mode = (a.pos x).settled.mode by rw [h.positions x]

theorem Follows.required {a b : State} (h : Follows a b) (x : PosIx) : (b.pos x).required = (a.pos x).required :=
  show (b.pos x).settled.required = (a.pos x).settled.required by rw [h.positions x]

theorem Follows.channelRestarted {a b : State} (h : Follows a b) (x : PosIx) :
    Machine.channelRestarted b x = Machine.channelRestarted a x :=
  channelRestarted_congr (congrFun h.chan x) (h.window x) (h.mode x) (congrFun h.mountedFigures x)

/-- A notice and a channel are set in either order. -/
theorem State.notifySlot_setChan (s : State) (x y : PosIx) (n : Slot → Notice) (c : Channel) :
    (s.setChan x c).notifySlot y n = (s.notifySlot y n).setChan x c := by
  unfold State.notifySlot State.notify
  rw [State.enabled_setChan]
  split <;> rfl

theorem verdictOkBody_num {n : Station} {sl : Slot} {s : State} (h : (s.pos (posAt n sl)).service = .held) :
    verdictOkBody n sl.num s =
      .ok (verdictOkEvent (posAt n sl) s, (verdictOkEvent (posAt n sl) s).positionRecord (posAt n sl)) := by
  simp only [verdictOkBody, slotOperand_num]
  rw [if_pos h]

/-- The clause of O8 on VERDICT OK. -/
theorem verdictOk_settles {n : Station} {sl : Slot} {s : State} (hl : s.listening (.station n) = true)
    (hs : (s.pos (posAt n sl)).service = .held) :
    let x := posAt n sl
    let m := (s.setPos x { holdEnded (s.pos x) with retryCount := 0 }).setChan x (channelRestarted s x)
    ∃ t : State, exec (.verdictOk (.station n) sl.num) s =
        .next (t.answer (.station n) ⟨9, .accepted, t.positionRecord x⟩) ∧
      Settles (if (s.pos x).resume = some .due then m.notifySlot x .due else m) t := by
  intro x m
  set u := s.setPos x { holdEnded (s.pos x) with retryCount := 0 } with hu
  set e := ((Ev.start s).updPos x Position.endHold).updPos x fun p => { p with retryCount := 0 } with he
  have hst : e.st = u := by
    show (s.setPos x (s.pos x).endHold).setPos x _ = _
    rw [State.setPos_setPos]
    show s.setPos x { ((s.setPos x (s.pos x).endHold).pos x) with retryCount := 0 } = _
    rw [State.pos_setPos, if_pos rfl]
    rfl
  have hpos : u.pos x = { holdEnded (s.pos x) with retryCount := 0 } := by rw [hu, State.pos_setPos, if_pos rfl]
  have hdue : (e.st.pos x).service = .due ↔ (s.pos x).resume = some .due := by
    rw [hst, hpos]
    show (if (s.pos x).resume = some .due then Service.due else .serving) = .due ↔ _
    split <;> simp_all
  have hnotice : (e.noticeDue x).st = if (s.pos x).resume = some .due then u.notifySlot x .due else u := by
    unfold Ev.noticeDue
    by_cases h : (s.pos x).resume = some .due
    · rw [if_pos (hdue.mpr h), if_pos h, ← hst]
      rfl
    · rw [if_neg fun hd => h (hdue.mp hd), if_neg h, hst]
  have hsame : channelRestarted u x = channelRestarted s x := channelRestarted_setPos rfl rfl rfl
  have hchannel : ((e.noticeDue x).verdictChannel x).st =
      if (s.pos x).resume = some .due then m.notifySlot x .due else m := by
    rw [Ev.st_verdictChannel, hnotice]
    split
    · rw [channelRestarted_notifySlot, hsame, ← State.notifySlot_setChan]
    · rw [hsame]
  show ∃ t, serve (.station n) 9 (verdictOkBody n sl.num s) s = _ ∧ _
  rw [verdictOkBody_num hs]
  exact serve_ok hl (result := fun t => t.positionRecord x) (settles_finish (hchannel ▸ Ev.follows_needTest x _))

theorem State.notifySlot_setPos (s : State) (x y : PosIx) (n : Slot → Notice) (p : Position) :
    (s.setPos x p).notifySlot y n = (s.notifySlot y n).setPos x p := by
  unfold State.notifySlot State.notify
  rw [State.enabled_setPos]
  split <;> rfl

/-- The position after a VERDICT BROKEN, a standing need being urgent. -/
def Position.condemned (p : Position) : Position :=
  { p with
    service := .due
    dueCause := some .broken
    holdCause := none
    resume := none
    urgent := if p.need = .noNeed then p.urgent else true }

theorem verdictBrokenBody_num {n : Station} {sl : Slot} {s : State}
    (h : (s.pos (posAt n sl)).service = .serving ∨ (s.pos (posAt n sl)).service = .due ∨
      (s.pos (posAt n sl)).service = .held) :
    verdictBrokenBody n sl.num s =
      .ok (verdictBrokenEvent (posAt n sl) s, (verdictBrokenEvent (posAt n sl) s).positionRecord (posAt n sl)) := by
  simp only [verdictBrokenBody, slotOperand_num]
  rw [if_pos h]

/-- The event of a VERDICT BROKEN as far as the urgency of a standing need. -/
def Ev.condemn (x : PosIx) (s : State) : Ev :=
  ((((Ev.start s).breakTool x).updPos x Position.broken).notifySlot x .due).makeNeedUrgent x

/-- The state with the mounted tool `i` of a position condemned. -/
def State.condemned (s : State) (x : PosIx) (i : EntryIx) (u : Tool) : State :=
  ((s.setTool i (some { u with condition := .broken })).setPos x (s.pos x).condemned).notifySlot x .due

theorem pos_condemned (s : State) (x : PosIx) (i : EntryIx) (u : Tool) : (s.condemned x i u).pos x = (s.pos x).condemned := by
  rw [State.condemned, State.pos_notifySlot, State.pos_setPos, if_pos rfl]

theorem chan_condemned (s : State) (x : PosIx) (i : EntryIx) (u : Tool) : (s.condemned x i u).chan = s.chan := by
  rw [State.condemned, State.chan_notifySlot]
  rfl

theorem figures_condemned (s : State) (x : PosIx) (i : EntryIx) (u : Tool) : (s.condemned x i u).figures = s.figures := by
  rw [State.condemned, State.figures_notifySlot]
  rfl

theorem present_condemned (s : State) (x : PosIx) (i : EntryIx) (u : Tool) : (s.condemned x i u).present = s.present := by
  rw [State.condemned, State.present_notifySlot]
  rfl

theorem mountedTool_condemned {s : State} {x : PosIx} {i : EntryIx} {u : Tool} (h : s.mountedTool x = some (i, u)) :
    (s.condemned x i u).mountedTool x = some (i, { u with condition := .broken }) := by
  obtain ⟨-, -, hmounted⟩ := (mountedTool_iff s x i u).mp h
  rw [State.condemned, State.mountedTool_notifySlot]
  exact (congrFun (mountedTool_setPos (s := s.setTool i _) (p := (s.pos x).condemned) rfl) x).trans
    (mountedTool_setTool (w := { u with condition := .broken }) h hmounted)

theorem mountedFigures_condemned {s : State} {x : PosIx} {i : EntryIx} {u : Tool} (h : s.mountedTool x = some (i, u)) :
    (s.condemned x i u).mountedFigures x = s.mountedFigures x := by
  unfold State.mountedFigures
  rw [mountedTool_condemned h, h, figures_condemned]

/-- The event of a VERDICT BROKEN before the urgency of a standing need. -/
theorem Ev.st_broken {x : PosIx} {s : State} {i : EntryIx} {u : Tool} (hm : s.mountedTool x = some (i, u)) :
    ((((Ev.start s).breakTool x).updPos x Position.broken).notifySlot x .due).st =
      ((s.setTool i (some { u with condition := .broken })).setPos x (s.pos x).broken).notifySlot x .due := by
  obtain ⟨-, ht, -⟩ := (mountedTool_iff s x i u).mp hm
  have htool : ((Ev.start s).breakTool x).st = s.setTool i (some { u with condition := .broken }) := by
    unfold Ev.breakTool
    rw [Ev.st_start, hm]
    show s.setTool i ((s.tool i).map _) = _
    rw [ht]
    rfl
  show State.notifySlot (((Ev.start s).breakTool x).st.setPos x (((Ev.start s).breakTool x).st.pos x).broken) x .due = _
  rw [htool]
  rfl

theorem Ev.st_condemn {x : PosIx} {s : State} {i : EntryIx} {u : Tool} (hm : s.mountedTool x = some (i, u))
    (h : (s.pos x).need = .noNeed) : (Ev.condemn x s).st = s.condemned x i u := by
  have hst := Ev.st_broken hm
  have hneed : (((((Ev.start s).breakTool x).updPos x Position.broken).notifySlot x .due).st.pos x).need = .noNeed := by
    rw [hst, State.pos_notifySlot, State.pos_setPos, if_pos rfl]
    exact h
  have hsame : (s.pos x).condemned = (s.pos x).broken := by simp [Position.condemned, Position.broken, h]
  unfold Ev.condemn Ev.makeNeedUrgent
  dsimp only
  rw [if_pos (.inl hneed), hst, State.condemned, hsame]

theorem Ev.follows_condemn {x : PosIx} {s : State} {i : EntryIx} {u : Tool} (hm : s.mountedTool x = some (i, u)) :
    Follows (s.condemned x i u) (Ev.condemn x s).st := by
  have hst := Ev.st_broken hm
  refine .cast (Ev.follows_makeNeedUrgent x _) ?_ rfl
  rw [hst, State.pos_notifySlot, State.pos_setPos, if_pos rfl]
  split
  · next h =>
    have hsame : (s.pos x).condemned = (s.pos x).broken := by
      unfold Position.condemned Position.broken
      obtain h | h : (s.pos x).need = .noNeed ∨ (s.pos x).urgent = true := h <;> simp [h]
    rw [State.condemned, hsame]
  · next h =>
    obtain ⟨hopen, -⟩ := not_or.mp h
    have hmade : ({ (s.pos x).broken with urgent := true } : Position) = (s.pos x).condemned := by
      unfold Position.condemned Position.broken
      rw [if_neg (show ¬(s.pos x).need = .noNeed from hopen)]
    rw [hmade, ← State.notifySlot_setPos, State.setPos_setPos]
    rfl

/-- The clause of O8 on VERDICT BROKEN. -/
theorem verdictBroken_settles {n : Station} {sl : Slot} {s : State} {i : EntryIx} {u : Tool}
    (hl : s.listening (.station n) = true)
    (hs : (s.pos (posAt n sl)).service = .serving ∨ (s.pos (posAt n sl)).service = .due ∨
      (s.pos (posAt n sl)).service = .held) (hm : s.mountedTool (posAt n sl) = some (i, u)) :
    let x := posAt n sl
    ∃ t : State, exec (.verdictBroken (.station n) sl.num) s =
        .next (t.answer (.station n) ⟨9, .accepted, t.positionRecord x⟩) ∧
      Settles ((s.condemned x i u).setChan x (channelRestarted s x)) t ∧
      ((s.pos x).required.isSome = true → (s.pos x).suspended = false →
        (t.pos x).need ≠ .noNeed ∧ (t.pos x).urgent = true) := by
  intro x
  set a := s.condemned x i u
  set e := (Ev.condemn x s).needTest x with he
  have hcondemned : Follows a (Ev.condemn x s).st := Ev.follows_condemn hm
  have hraised : Follows a e.st := hcondemned.trans (Ev.follows_needTest x _)
  have hchannel : channelRestarted e.st x = channelRestarted s x := by
    refine (hraised.channelRestarted x).trans (channelRestarted_congr ?_ ?_ ?_ (mountedFigures_condemned hm))
    · rw [chan_condemned]
    · rw [pos_condemned]
      rfl
    · rw [pos_condemned]
      rfl
  have hst : (e.verdictChannel x).st = e.st.setChan x (channelRestarted s x) := by
    rw [Ev.st_verdictChannel, hchannel]
  have hsettles : Settles (a.setChan x (channelRestarted s x)) (verdictBrokenEvent x s) :=
    settles_finish (e := e.verdictChannel x) (hst ▸ hraised.setChan_congr x _)
  refine ⟨verdictBrokenEvent x s, ?_, hsettles, fun hrequired hactive => ?_⟩
  · show serve (.station n) 9 (verdictBrokenBody n sl.num s) s = _
    rw [verdictBrokenBody_num hs, serve_accepted hl]
  · have hneeds : (e.st.pos x).need ≠ .noNeed ∧ (e.st.pos x).urgent = true := by
      have hposa : a.pos x = (s.pos x).condemned := pos_condemned s x i u
      by_cases hopen : (s.pos x).need = .noNeed
      · obtain ⟨k, hk⟩ := Option.isSome_iff_exists.mp hrequired
        have hst' : (Ev.condemn x s).st = a := Ev.st_condemn hm hopen
        have hmounted : a.mountedTool x = some (i, { u with condition := .broken }) := mountedTool_condemned hm
        have hfor : (Ev.condemn x s).st.needFor x = some k := by
          rw [hst']
          refine needFor_eq_some (hposa ▸ hk) ⟨?_, hposa ▸ hopen, hposa ▸ hactive, .inr ⟨?_, _, _, hmounted, ?_⟩⟩
          · rw [present_condemned]
            exact present_of_listening hl sl
          · exact .inr (.inl (hposa ▸ rfl))
          · exact .inr (.inl nofun)
        have hraises := Ev.needTest_raises hfor
        refine ⟨hraises.1, hraises.2.trans ?_⟩
        rw [hst', mountedBroken_eq_any, hmounted]
        rfl
      · have hstanding := hraised.needs x (by rw [hposa]; exact hopen)
        refine ⟨hstanding.1, hstanding.2.trans ?_⟩
        rw [hposa]
        exact if_neg hopen
    rw [← Ev.pos_verdictChannel e x] at hneeds
    have hkept := (finish_follows s (e.verdictChannel x)).needs x hneeds.1
    exact ⟨hkept.1, hkept.2.trans hneeds.2⟩

/-- Settles O8. -/
theorem verdictsJudge : Obligations.VerdictsJudge := by
  intro n sl s hl x p
  refine ⟨fun hs => verdictOk_settles hl hs, fun i u hs hm => ?_⟩
  intro m
  exact verdictBroken_settles hl hs hm

end Sys2Proof.Machine

/-! PROOFS. What the end of an event leaves to the allocator, and the waiting list that a tool serves (R32, R105). -/
namespace Sys2Proof.Machine

/-! ## The hand-offs and the allocator -/

/-- The tools and types stay, nobody joins the waiting list, and every position keeps its sister, while a RESERVED need may
become STAGING: what the posting of orders does to what the allocator reads. -/
structure Posts (s t : State) : Prop where
  tool : t.tool = s.tool
  typ : t.typ = s.typ
  strap : t.strap = s.strap
  waiting : ∀ y ∈ t.ret.waiting, y ∈ s.ret.waiting
  required : ∀ y, (t.pos y).required = (s.pos y).required
  suspended : ∀ y, (t.pos y).suspended = (s.pos y).suspended
  sister : ∀ y, (t.pos y).sister = (s.pos y).sister
  need : ∀ y, (t.pos y).need = (s.pos y).need ∨ (s.pos y).need = .reserved ∧ (t.pos y).need = .staging

theorem Posts.refl (s : State) : Posts s s := ⟨rfl, rfl, rfl, fun _ h => h, fun _ => rfl, fun _ => rfl, fun _ => rfl, fun _ => .inl rfl⟩

theorem Posts.trans {s t u : State} (h : Posts s t) (g : Posts t u) : Posts s u where
  tool := g.tool.trans h.tool
  typ := g.typ.trans h.typ
  strap := g.strap.trans h.strap
  waiting y hy := h.waiting y (g.waiting y hy)
  required y := (g.required y).trans (h.required y)
  suspended y := (g.suspended y).trans (h.suspended y)
  sister y := (g.sister y).trans (h.sister y)
  need y := by
    obtain hn | ⟨hn, hs⟩ := h.need y
    · rw [← hn]
      exact g.need y
    · refine .inr ⟨hn, ?_⟩
      obtain hm | ⟨hm, -⟩ := g.need y
      · exact hm.trans hs
      · exact absurd (hs.symm.trans hm) nofun

/-- A change of other things than the allocator reads. -/
theorem Posts.of_eq {s t : State} (htool : t.tool = s.tool) (htyp : t.typ = s.typ) (hstrap : t.strap = s.strap)
    (hwaiting : t.ret.waiting = s.ret.waiting) (hpos : t.pos = s.pos) : Posts s t :=
  ⟨htool, htyp, hstrap, fun _ h => hwaiting ▸ h, fun _ => by rw [hpos], fun _ => by rw [hpos], fun _ => by rw [hpos],
    fun _ => by rw [hpos]; exact .inl rfl⟩

/-- A change of other fields of a position record than the allocator reads. -/
theorem Posts.setPos (s : State) {x : PosIx} {p : Position} (hrequired : p.required = (s.pos x).required)
    (hsuspended : p.suspended = (s.pos x).suspended) (hsister : p.sister = (s.pos x).sister)
    (hneed : p.need = (s.pos x).need ∨ (s.pos x).need = .reserved ∧ p.need = .staging) : Posts s (s.setPos x p) := by
  have hpos : ∀ y, (s.setPos x p).pos y = if x = y then p else s.pos y := State.pos_setPos s x p
  refine ⟨rfl, rfl, rfl, fun _ h => h, fun y => ?_, fun y => ?_, fun y => ?_, fun y => ?_⟩
  all_goals
    rw [hpos]
    split
    · next hy =>
      subst hy
      assumption
  · rfl
  · rfl
  · rfl
  · exact .inl rfl

theorem Posts.notify (s : State) (p : Port) (n : Notice) : Posts s (s.notify p n) :=
  .of_eq (State.tool_notify s p n) (State.typ_notify s p n) (State.strap_notify s p n) (by rw [State.ret_notify])
    (State.pos_notify s p n)

theorem Posts.enqueue (s : State) (o : Order) : Posts s (s.enqueue o) := by
  unfold State.enqueue
  split <;> exact .of_eq rfl rfl rfl rfl rfl

theorem Posts.replaceOrder (s : State) (n : Nat) (o : Order) : Posts s (s.replaceOrder n o) := by
  unfold State.replaceOrder
  split <;> exact .of_eq rfl rfl rfl rfl rfl

section
variable {e : Ev} {x : PosIx}

theorem Ev.posts_setRack (e : Ev) (x : PosIx) (h : Holding) : Posts e.st (e.updPos x (·.setRack h)).st :=
  .setPos _ rfl rfl rfl (.inl rfl)

theorem Ev.posts_postReturn (i : EntryIx) (k : Option PocketIx) : Posts e.st (e.postReturn x i k).st := by
  have hposted : ∀ o, Posts e.st ((e.upd fun s => s.enqueue o).updPos x fun p => { p with returnWaiting := false }).st :=
    fun o => (Posts.enqueue e.st o).trans (.setPos _ rfl rfl rfl (.inl rfl))
  unfold Ev.postReturn
  split
  · cases k with
    | none => exact hposted _
    | some k => exact (hposted _).trans (.of_eq rfl rfl rfl rfl rfl)
  · exact .refl _

/-- A carrier is posted for a RESERVED need. -/
theorem Ev.posts_postCarrier {kind : OrderKind} (hkind : kind = .stage ∨ kind = .direct) (u : Bool) (i j : Option EntryIx)
    (k : Option PocketIx) (hneed : (e.st.pos x).need = .reserved) : Posts e.st (e.postOrder x kind u i j k).st := by
  cases hroom : e.st.hasRoom with
  | false =>
    rw [Ev.postOrder_full hroom]
    exact .refl _
  | true =>
    rw [Ev.st_postOrder_carrier hroom hkind]
    set o := e.st.newOrder x kind u i j k
    have hpos : (e.st.enqueue o).pos x = e.st.pos x := by rw [State.pos_enqueue]
    refine (Posts.enqueue e.st o).trans (Posts.trans (.setPos (e.st.enqueue o) (x := x)
      (p := { e.st.pos x with rack := .booked e.st.nextNumber, need := .staging }) ?_ ?_ ?_ (.inr ⟨?_, rfl⟩)) ?_)
    · rw [hpos]
    · rw [hpos]
    · rw [hpos]
    · rw [hpos, hneed]
    · refine ⟨rfl, rfl, rfl, fun y hy => ?_, fun _ => rfl, fun _ => rfl, fun _ => rfl, fun _ => .inl rfl⟩
      show y ∈ (e.st.enqueue o).ret.waiting
      rw [State.waiting_enqueue]
      exact (List.mem_filter.mp hy).1

theorem Ev.posts_postExchange (u : Bool) (i j : Option EntryIx) : Posts e.st (e.postOrder x .exchange u i j none).st := by
  cases hroom : e.st.hasRoom with
  | false =>
    rw [Ev.postOrder_full hroom]
    exact .refl _
  | true =>
    rw [Ev.st_postOrder_exchange hroom]
    exact .enqueue _ _

theorem Ev.posts_postRemove (u : Bool) (j : Option EntryIx) : Posts e.st (e.postOrder x .remove u none j none).st := by
  cases hroom : e.st.hasRoom with
  | false =>
    rw [Ev.postOrder_full hroom]
    exact .refl _
  | true =>
    rw [Ev.st_postOrder_remove hroom]
    set o := e.st.newOrder x .remove u none j none
    have hpos : (e.st.enqueue o).pos x = e.st.pos x := by rw [State.pos_enqueue]
    refine (Posts.enqueue e.st o).trans (.setPos _ ?_ ?_ ?_ (.inl ?_))
    all_goals rw [hpos]

theorem callsDirect_new {s : State} {i : EntryIx} (h : s.callsDirect x = some (i, none)) : (s.pos x).need = .reserved := by
  unfold State.callsDirect at h
  dsimp only at h
  split at h
  · split_ifs at h with hand hnew
    · exact hnew.1
    · obtain ⟨o, -, ho⟩ := Option.map_eq_some_iff.mp h
      cases ho
  · cases h

theorem callsStage_some {s : State} {i : EntryIx} (h : s.callsStage x = some i) : (s.pos x).need = .reserved := by
  unfold State.callsStage at h
  dsimp only at h
  split_ifs at h with hand
  exact hand.1

theorem Ev.posts_handOff : Posts e.st (e.handOff x).st := by
  unfold Ev.handOff
  dsimp only
  split
  · unfold Ev.callReturn
    split
    · exact Ev.posts_postReturn _ _
    · split
      · exact Ev.posts_postReturn _ _
      · rw [Ev.st_awaitPocket]
        split
        · exact .refl _
        · exact Posts.trans (.setPos e.st (x := x) (p := { e.st.pos x with returnWaiting := true }) rfl rfl rfl (.inl rfl))
            (.notify _ _ _)
  · next hcall =>
    obtain ⟨-, ⟨_, hno, -⟩ | ⟨r, hr, hdirect⟩ | ⟨_, hno, -⟩ | ⟨_, hno, -⟩ | ⟨_, hno, -⟩⟩ := callFor_cases hcall
    · cases hno
    · cases r
      cases hr
      exact Ev.posts_postCarrier (.inr rfl) _ _ _ _ (callsDirect_new hdirect)
    all_goals cases hno
  · rw [Ev.replaceStage_eq]
    refine Posts.trans ?_ (Ev.posts_setRack _ x _)
    exact .replaceOrder _ _ _
  · next hcall =>
    obtain ⟨-, ⟨_, hno, -⟩ | ⟨_, hno, -⟩ | ⟨_, hi, hstage⟩ | ⟨_, hno, -⟩ | ⟨_, hno, -⟩⟩ := callFor_cases hcall
    · cases hno
    · cases hno
    · exact Ev.posts_postCarrier (.inl rfl) _ _ _ _ (callsStage_some hstage)
    all_goals cases hno
  · exact Ev.posts_postExchange _ _ _
  · exact Ev.posts_postRemove _ _
  · exact .refl _

theorem Ev.posts_offerPocket (k : PocketIx) : Posts e.st (e.offerPocket k).st := by
  unfold Ev.offerPocket
  split
  · split
    · split
      · exact Ev.posts_postReturn _ _
      · exact .refl _
    · exact .refl _
  · exact .refl _

end

theorem Ev.posts_foldl {α : Type} {f : Ev → α → Ev} (hf : ∀ e a, Posts e.st (f e a).st) (l : List α) (e : Ev) :
    Posts e.st (l.foldl f e).st := by
  induction l generalizing e with
  | nil => exact .refl _
  | cons a l ih => exact (hf e a).trans (ih _)

theorem Ev.posts_handOffs (e : Ev) : Posts e.st e.handOffs.st := Ev.posts_foldl (fun _ _ => Ev.posts_handOff) _ e

theorem Ev.posts_offerPockets (before : State) (e : Ev) : Posts e.st (e.handOffs.offerPockets before).st :=
  e.posts_handOffs.trans (Ev.posts_foldl (fun _ => Ev.posts_offerPocket) _ _)

theorem posts_finish (before : State) (e : Ev) : Posts e.st (finish before e) := by
  refine (Ev.posts_offerPockets before e).trans ?_
  have hret := ret_finish before e
  exact .of_eq (funext fun i => by rw [State.tool, State.tool, hret]) (funext fun k => by rw [State.typ, State.typ, hret])
    (strap_raiseOrderReady _ _) (by rw [hret]) (funext (pos_congr hret))

/-! ## A tool that serves the waiting list (R105) -/

theorem eligible_congr {s t : State} (htool : t.tool = s.tool) (htyp : t.typ = s.typ) : t.eligible = s.eligible := by
  have hfigures : t.figures = s.figures := funext fun k => by rw [State.figures, State.figures, htyp]
  have hparts : t.partsLeft = s.partsLeft := funext fun u => by rw [State.partsLeft, State.partsLeft, hfigures]
  funext k i
  unfold State.eligible
  rw [htool, hfigures, hparts]

theorem Posts.candidate_iff {s t : State} (h : Posts s t) (k : TypeIx) (x : PosIx) : Candidate t k x ↔ Candidate s k x := by
  rw [Candidate, Candidate, Active, Active, present_congr h.strap, h.suspended, h.required]

theorem choose_eq_of_unique {s : State} {k : TypeIx} {i : EntryIx} (h : ∀ j, s.eligible k j = true ↔ j = i) :
    s.choose k = some i := by
  have hlist : allEntries.filter (s.eligible k) = [i] := by
    refine List.perm_singleton.mp ((List.perm_ext_iff_of_nodup ((List.nodup_finRange _).filter _) (List.nodup_singleton i)).mpr
      fun j => ?_)
    exact mem_filter_eligible.trans ((h j).trans List.mem_singleton.symm)
  unfold State.choose
  rw [hlist]
  rfl

theorem choose_eq_none {s : State} {k : TypeIx} (h : ∀ j, s.eligible k j = false) : s.choose k = none := by
  have hlist : allEntries.filter (s.eligible k) = [] := List.filter_eq_nil_iff.mpr fun j _ hj => by rw [h j] at hj; cases hj
  unfold State.choose
  rw [hlist]

/-- What an arbitration for a type leaves waiting has no eligible tool. -/
theorem Posts.none_eligible {e : Ev} {k : TypeIx} {t : State} (h : Posts (e.arbitrate k).st t) :
    ∀ x ∈ t.ret.waiting, Candidate t k x → ∀ j, t.eligible k j = false := by
  intro x hx hcandidate j
  obtain hnone | hnone := (arbitrated_iff _ k).mp (e.arbitrated_arbitrate k)
  · exact absurd ((h.candidate_iff k x).mp hcandidate) (hnone x (h.waiting x hx))
  · rw [eligible_congr h.tool h.typ]
    exact not_eligible_of_choose_eq_none hnone j

/-- The one tool that is eligible goes to the first candidate. -/
theorem Ev.st_arbitrate_unique {e : Ev} {k : TypeIx} {x : PosIx} {i : EntryIx} (hx : e.st.candidate k = some x)
    (hi : ∀ j, e.st.eligible k j = true ↔ j = i) : (e.arbitrate k).st = (e.reserve x i).st := by
  have hgone : (Ev.start (e.reserve x i).st).st.Arbitrated k := by
    refine .inr (choose_eq_none fun j => ?_)
    rw [Bool.eq_false_iff]
    intro hj
    obtain ⟨u, hu, -, hstored, -⟩ := (eligible_iff _ k j).mp hj
    have htool : (e.reserve x i).st.tool j =
        if i = j then (e.st.tool i).map fun t => { t with state := .reserved, promised := some x } else e.st.tool j := by
      show (State.setTool e.st i _).tool j = _
      rw [State.tool_setTool]
    rw [Ev.st_start, htool] at hu
    split at hu
    · obtain ⟨w, -, rfl⟩ := Option.map_eq_some_iff.mp hu
      cases hstored
    · next hij =>
      have heligible : e.st.eligible k j = true := by
        refine (eligible_iff _ k j).mpr ⟨u, hu, ?_⟩
        obtain ⟨w, hw, hrest⟩ := (eligible_iff _ k j).mp hj
        have hwu : w = u := by
          rw [Ev.st_start, htool, if_neg hij] at hw
          exact Option.some.inj (hw.symm.trans hu)
        exact hwu ▸ hrest
      exact hij ((hi j).mp heligible).symm
  rw [Ev.arbitrate_of_pass hx (choose_eq_of_unique hi), Ev.arbitrate_of_arbitrated hgone]
  rfl

/-- The tool that has become the one eligible for its type serves the waiting list (R32, R105). -/
theorem serves_of_posts {s t : State} {e : Ev} {k : TypeIx} {i : EntryIx} (ht : Posts (e.offerTool i).st t)
    (hi : e.st.eligible k i = true) (hother : ∀ j, j ≠ i → e.st.eligible k j = s.eligible k j)
    (hwaiting : e.st.ret.waiting = s.ret.waiting) (hcandidate : ∀ x, Candidate e.st k x ↔ Candidate s k x) : Serves s t k i := by
  have hoffer : e.offerTool i = e.arbitrate k := by
    obtain ⟨u, hu, rfl, -⟩ := (eligible_iff _ k i).mp hi
    unfold Ev.offerTool
    simp only [hu, hi, if_true]
  rw [hoffer] at ht
  refine ⟨fun hnone x hx => ?_, ht.none_eligible⟩
  have hunique : ∀ j, e.st.eligible k j = true ↔ j = i := fun j => by
    refine ⟨fun hj => ?_, fun hj => hj ▸ hi⟩
    by_contra hne
    rw [hother j hne, hnone j] at hj
    cases hj
  have hfirst : e.st.candidate k = some x := by
    refine (candidate_eq_some_iff _ k x).mpr ?_
    simpa only [FirstCandidate, hwaiting, hcandidate] using hx
  have hpos : (e.arbitrate k).st.pos x = (e.st.pos x).reserve i := by
    rw [Ev.st_arbitrate_unique hfirst hunique]
    show (State.setPos (State.setTool e.st i _) x _).pos x = _
    rw [State.pos_setPos, if_pos rfl]
    rfl
  refine ⟨?_, ?_⟩
  · rw [ht.sister, hpos]
    rfl
  · obtain h | ⟨-, h⟩ := ht.need x
    · rw [h, hpos]
      exact .inl rfl
    · exact .inr h

end Sys2Proof.Machine

/-! PROOFS. ENROL, WITHDRAW and REINSTATE (R30 to R38). -/
namespace Sys2Proof.Machine

/-! ## Places as the requests give them -/

/-- The place kind of Table 9-4. -/
def PutPlace.kind : PutPlace → Nat
  | .pocket _ => 1
  | .rack _ => 2
  | .spindle _ => 3

/-- The place number of Table 9-4. -/
def PutPlace.number : PutPlace → Nat
  | .pocket k => k.val + 1
  | .rack x => x.val
  | .spindle x => x.val

theorem placeOperand_kind (pl : PutPlace) : placeOperand pl.kind pl.number = some pl := by
  cases pl with
  | pocket k => simp [placeOperand, PutPlace.kind, PutPlace.number, pocketOperand_succ]
  | rack x => simp [placeOperand, PutPlace.kind, PutPlace.number, positionOperand_val]
  | spindle x => simp [placeOperand, PutPlace.kind, PutPlace.number, positionOperand_val]

theorem freeEntry_eq_some {s : State} {i : EntryIx} (hi : s.tool i = none) (hlow : ∀ j, j < i → s.tool j ≠ none) :
    s.freeEntry = some i := by
  rw [State.freeEntry, allEntries, ← Fin.find?_eq_find?_finRange, Fin.find?_eq_some_iff]
  refine ⟨by rw [hi]; rfl, fun j hj => ?_⟩
  rw [Option.isNone_eq_false_iff, Option.isSome_iff_ne_none]
  exact hlow j hj

/-! ## What follows the putting of a tool (R32, R38) -/

theorem eligible_setTool_other {s : State} {i j : EntryIx} (h : j ≠ i) (t : Option Tool) (k : TypeIx) :
    (s.setTool i t).eligible k j = s.eligible k j := by
  have htool : (s.setTool i t).tool j = s.tool j := by rw [State.tool_setTool, if_neg (Ne.symm h)]
  unfold State.eligible
  rw [htool]
  rfl

theorem Ev.follows_afterPut (e : Ev) (i : EntryIx) (pl : PutPlace) : Follows e.st (e.afterPut i pl).st := by
  cases pl with
  | pocket k => exact Ev.follows_offerTool i e
  | rack x => exact .refl _
  | spindle x => exact .refl _

/-- A tool put STORED into a pocket, SOUND and with enough parts left, serves the waiting list. -/
theorem serves_putTool {s : State} {e : Ev} {i : EntryIx} {t : Tool} {q : PocketIx} {f : TypeRec}
    (htool : e.st.tool = s.tool) (htyp : e.st.typ = s.typ) (hwaiting : e.st.ret.waiting = s.ret.waiting)
    (hpos : e.st.pos = s.pos) (hstrap : e.st.strap = s.strap) (hf : s.typ t.type = some f) (hsound : t.condition = .sound)
    (hparts : f.pmin ≤ f.partsLeft t.r) :
    Serves s (finish s ((e.putTool i t (.pocket q)).afterPut i (.pocket q))) t.type i := by
  refine serves_of_posts (posts_finish s _) ?_ (fun j hj => ?_) hwaiting fun x => ?_
  · have hmade : (e.putTool i t (.pocket q)).st.tool i = some (t.put .stored (.pocket q)) := by
      show (State.setTool e.st i _).tool i = _
      rw [State.tool_setTool, if_pos rfl]
    refine (eligible_iff _ _ i).mpr ⟨_, hmade, rfl, rfl, hsound, ?_⟩
    have hfigures : (e.putTool i t (.pocket q)).st.figures t.type = f := by
      show (e.st.typ t.type).getD TypeRec.zero = f
      rw [htyp, hf]
      rfl
    show (State.figures _ t.type).pmin ≤ (State.figures _ t.type).partsLeft t.r
    rw [hfigures]
    exact hparts
  · show (State.setTool e.st i _).eligible t.type j = _
    rw [eligible_setTool_other hj, eligible_congr htool htyp]
  · show Candidate e.st t.type x ↔ _
    rw [Candidate, Candidate, Active, Active, present_congr hstrap, hpos]

/-! ## ENROL (R30 to R32) -/

theorem enrolBody_ready {serial mode r : Nat} {k : TypeIx} {f : TypeRec} {pl : PutPlace} {given : Option Nat} {i : EntryIx}
    {s : State} (hserial : 1 ≤ serial ∧ serial ≤ 4294967295) (hlife : lifeOperand mode r = some given)
    (hr : given.getD 0 ≤ f.lnew) (hf : s.typ k = some f) (hnew : ∀ j u, s.tool j = some u → u.serial ≠ serial)
    (hfree : s.freeEntry = some i) (hreach : s.reachable pl = true) (htakes : pl.takes f.kind = true)
    (hready : s.readyForEnrol pl = true) : enrolBody serial (k.val + 1) pl.kind pl.number mode r s =
      .ok (enrolEvent i serial k pl given s, (enrolEvent i serial k pl given s).toolRecord i) := by
  have hrange : ¬(f.lnew < given.getD 0 ∨ pl.takes f.kind = false) := by
    rw [htakes]
    rintro (h | h)
    · omega
    · cases h
  have hheld : ¬ s.serialHeld serial = true := fun h => by
    obtain ⟨j, u, hu, hs⟩ := (serialHeld_iff s serial).mp h
    exact hnew j u hu hs
  rw [enrolBody_operands hserial (placeOperand_kind pl) hreach hlife]
  simp only [hf, if_neg hrange, if_neg hheld, hfree, hready]
  rfl

theorem readyForEnrol_of_place {s : State} {f : TypeRec} {pl : PutPlace}
    (h : match pl with
      | .pocket q => s.pocket q = .free
      | .rack x => s.present x = true ∧ (slotOf x).kind = f.kind ∧ (s.pos x).rack = .bare
      | .spindle x => s.present x = true ∧ (slotOf x).kind = f.kind ∧ (s.pos x).service = .uncertain ∧
          ∀ j, (s.pos x).mounted ≠ .entry j) :
    s.reachable pl = true ∧ pl.takes f.kind = true ∧ s.readyForEnrol pl = true := by
  cases pl with
  | pocket q => exact ⟨rfl, rfl, decide_eq_true h⟩
  | rack x =>
    obtain ⟨hx, hkind, hrack⟩ := h
    exact ⟨hx, decide_eq_true hkind, decide_eq_true hrack⟩
  | spindle x =>
    obtain ⟨hx, hkind, hservice, hmounted⟩ := h
    exact ⟨hx, decide_eq_true hkind, spindleReady_eq_true hservice hmounted⟩

/-- Settles O13. -/
theorem enrolMakesLive : Obligations.EnrolMakesLive := by
  intro i k f pl serial mode r s hl hserial1 hserial2 hmode hf hnew hfree hlow hplace tool kind number m
  obtain ⟨hreach, htakes, hready⟩ := readyForEnrol_of_place hplace
  obtain ⟨given, hlife, hgiven, hr⟩ : ∃ given, lifeOperand mode r = some given ∧
      (given.isNone = decide (mode = 0) ∧ given.getD f.lnew = if mode = 0 then f.lnew else r) ∧ given.getD 0 ≤ f.lnew := by
    obtain rfl | ⟨rfl, hr⟩ := hmode
    · exact ⟨none, rfl, ⟨rfl, rfl⟩, Nat.zero_le _⟩
    · exact ⟨some r, rfl, ⟨rfl, rfl⟩, hr⟩
  have hfigures : s.figures k = f := by rw [State.figures, hf]; rfl
  set new := newTool serial k (s.figures k).lnew given with hnewtool
  have hput : ((Ev.start s).putTool i new pl).st = m := by
    have hmade : ∀ st at_, some (new.put st at_) = tool st at_ := fun st at_ => by
      simp only [hnewtool, newTool, Tool.put, tool, hfigures, hgiven]
    cases pl with
    | pocket q => exact congrArg (fun v => State.setPocket (State.setTool s i v) q _) (hmade _ _)
    | rack x => exact congrArg (fun v => State.setPos (State.setTool s i v) x _) (hmade _ _)
    | spindle x => exact congrArg (fun v => State.setPos (State.setTool s i v) x _) (hmade _ _)
  have hkind : kind = pl.kind := by cases pl <;> rfl
  have hnumber : number = pl.number := by cases pl <;> rfl
  refine ⟨enrolEvent i serial k pl given s, ?_, ?_, fun hpocket hparts => ?_⟩
  · show serve .ps 34 (enrolBody serial (k.val + 1) kind number mode r s) s = _
    rw [hkind, hnumber, enrolBody_ready ⟨hserial1, hserial2⟩ hlife hr hf hnew (freeEntry_eq_some hfree hlow) hreach htakes
      hready, serve_accepted hl]
  · exact settles_finish (hput ▸ Ev.follows_afterPut _ i pl)
  · cases pl with
    | pocket q =>
      refine serves_putTool (e := Ev.start s) (t := new) (f := f) rfl rfl rfl rfl rfl hf rfl ?_
      show f.pmin ≤ f.partsLeft (given.getD (s.figures k).lnew)
      rw [hfigures, hgiven.2]
      exact hparts
    | rack x => exact absurd hpocket (show ¬ 2 = 1 by decide)
    | spindle x => exact absurd hpocket (show ¬ 3 = 1 by decide)

/-! ## WITHDRAW (R33) -/

/-- Settles O14. -/
theorem withdrawFrees : Obligations.WithdrawFrees := by
  intro i u s hl hu hmay m
  have hst : (((Ev.start s).freePlace u.place).upd fun s => s.setTool i none).st = m := by
    simp only [m]
    generalize u.place = place
    cases place <;> rfl
  have hbody : withdrawBody i.val s = .ok (withdrawEvent i u s, be 4 u.serial) := by
    rw [withdrawBody, entryOperand_val]
    simp only [hu, (withdrawable_iff s i u).mpr hmay, if_true]
  show ∃ t, serve .ps 35 (withdrawBody i.val s) s = _ ∧ _
  rw [hbody]
  exact serve_ok hl (result := fun _ => be 4 u.serial) (settles_finish (hst ▸ .refl _))

/-! ## REINSTATE (R36 to R38) -/

theorem readyForReinstate_of_place {s : State} {i : EntryIx} {f : TypeRec} {pl : PutPlace}
    (h : match pl with
      | .pocket q => s.pocket q = .free ∨ s.pocket q = .unknown ∨ s.pocket q = .holds i
      | .rack x => s.present x = true ∧ (slotOf x).kind = f.kind ∧ ((s.pos x).rack = .bare ∨ (s.pos x).rack = .unknown)
      | .spindle x => s.present x = true ∧ (slotOf x).kind = f.kind ∧ (s.pos x).service = .uncertain ∧
          ∀ j, (s.pos x).mounted ≠ .entry j) :
    s.reachable pl = true ∧ pl.takes f.kind = true ∧ s.readyForReinstate i pl = true := by
  cases pl with
  | pocket q =>
    refine ⟨rfl, rfl, ?_⟩
    simpa [State.readyForReinstate, or_assoc] using h
  | rack x =>
    obtain ⟨hx, hkind, hrack⟩ := h
    refine ⟨hx, decide_eq_true hkind, ?_⟩
    simpa [State.readyForReinstate] using hrack
  | spindle x =>
    obtain ⟨hx, hkind, hservice, hmounted⟩ := h
    exact ⟨hx, decide_eq_true hkind, spindleReady_eq_true hservice hmounted⟩

theorem reinstateBody_ready {code mode r : Nat} {i : EntryIx} {u : Tool} {ty : TypeIx} {f : TypeRec} {pl : PutPlace}
    {given : Option Nat} {s : State} (hu : s.tool i = some u) (hstate : u.state = .quarantined)
    (hcode : code = 0 ∧ ty = u.type ∨ code = ty.val + 1) (hf : s.typ ty = some f) (hlife : lifeOperand mode r = some given)
    (hgiven : ty ≠ u.type → given.isSome = true) (hr : given.getD 0 ≤ f.lnew) (hreach : s.reachable pl = true)
    (htakes : pl.takes f.kind = true) (hready : s.readyForReinstate i pl = true) :
    reinstateBody i.val code pl.kind pl.number mode r s =
      .ok (reinstateEvent i u ty pl given s, (reinstateEvent i u ty pl given s).toolRecord i) := by
  obtain ⟨gt, hgt, hty⟩ := givenType_of_named hcode
  have hfigures : s.figures ty = f := by rw [State.figures, hf]; rfl
  have hdefined : ¬(gt.isSome = true ∧ (s.typ ty).isNone = true) := by
    rw [hf]
    rintro ⟨-, h⟩
    cases h
  have hrange : ¬((ty ≠ u.type ∧ given = none) ∨ (s.figures ty).lnew < given.getD 0 ∨
      pl.takes (s.figures ty).kind = false) := by
    rw [hfigures, htakes]
    rintro (⟨hne, h⟩ | h | h)
    · rw [h] at hgiven
      exact absurd (hgiven hne) nofun
    · omega
    · cases h
  rw [reinstateBody_operands hgt (placeOperand_kind pl) hreach hlife, hu]
  dsimp only
  rw [hty, if_neg hdefined, if_neg (not_not.mpr hstate), if_neg hrange, if_neg (by rw [hready]; nofun)]

theorem follows_leaveOldPocket_st (s : State) (u : Tool) (pl : PutPlace) : ((Ev.start s).leaveOldPocket u.place pl).st =
    match u.place with
    | .pocket q => if pl = PutPlace.pocket q then s else s.setPocket q .free
    | _ => s := by
  unfold Ev.leaveOldPocket
  cases u.place with
  | pocket q =>
    dsimp only
    split <;> rfl
  | rack x => rfl
  | spindle x => rfl
  | gripper => rfl
  | unknown => rfl

/-- Settles O15. -/
theorem reinstateRestores : Obligations.ReinstateRestores := by
  intro i u ty code f pl mode r s hl hu hstate hcode hf hmode hplace tool kind number left m
  obtain ⟨hreach, htakes, hready⟩ := readyForReinstate_of_place hplace
  obtain ⟨given, hlife, ⟨hnone, hsome, hgiven⟩, hchange, hr⟩ : ∃ given, lifeOperand mode r = some given ∧
      (given.isNone = decide (mode = 0) ∧ (∀ n : Nat, (if given.isSome then 0 else n) = if mode = 0 then n else 0) ∧
        given.getD u.r = if mode = 0 then u.r else r) ∧
      (ty ≠ u.type → given.isSome = true) ∧ given.getD 0 ≤ f.lnew := by
    obtain ⟨rfl, hty⟩ | ⟨rfl, hr⟩ := hmode
    · exact ⟨none, rfl, ⟨rfl, fun _ => rfl, rfl⟩, fun hne => absurd hty hne, Nat.zero_le _⟩
    · exact ⟨some r, rfl, ⟨rfl, fun _ => rfl, rfl⟩, fun _ => rfl, hr⟩
  set e := (Ev.start s).leaveOldPocket u.place pl with he
  set new := u.reinstate ty given with hnew
  have hleft : e.st = left := follows_leaveOldPocket_st s u pl
  have hsame : e.st.tool = s.tool ∧ e.st.typ = s.typ ∧ e.st.ret.waiting = s.ret.waiting ∧ e.st.pos = s.pos ∧
      e.st.strap = s.strap := by
    rw [he, follows_leaveOldPocket_st]
    split
    · split <;> exact ⟨rfl, rfl, rfl, rfl, rfl⟩
    · exact ⟨rfl, rfl, rfl, rfl, rfl⟩
  obtain ⟨htool, htyp, hwaiting, hpos, hstrap⟩ := hsame
  have hmade : ∀ st at_, new.put st at_ = tool st at_ := fun st at_ => by
    simp only [hnew, Tool.reinstate, Tool.put, tool, hnone, hsome, hgiven]
  have hput : (e.putTool i new pl).st = m := by
    cases pl with
    | pocket q =>
      show (State.setTool e.st i (some (new.put _ _))).setPocket q _ = _
      rw [hmade, hleft]
    | rack x =>
      show (State.setTool e.st i (some (new.put _ _))).setPos x { e.st.pos x with rack := .entry i } = _
      rw [hmade, hpos, hleft]
    | spindle x =>
      show (State.setTool e.st i (some { new.put .mounted (.spindle x) with peakAE := 0, peakPower := 0 })).setPos x
        { e.st.pos x with mounted := .entry i } = _
      rw [hmade, hpos, hleft]
  have hkind : kind = pl.kind := by cases pl <;> rfl
  have hnumber : number = pl.number := by cases pl <;> rfl
  refine ⟨reinstateEvent i u ty pl given s, ?_, ?_, fun hpocket hparts => ?_⟩
  · show serve .ps 36 (reinstateBody i.val code kind number mode r s) s = _
    rw [hkind, hnumber, reinstateBody_ready hu hstate hcode hf hlife hchange hr hreach htakes hready, serve_accepted hl]
  · exact settles_finish (hput ▸ Ev.follows_afterPut _ i pl)
  · cases pl with
    | pocket q =>
      refine serves_putTool (e := e) (t := new) (f := f) htool htyp hwaiting hpos hstrap hf rfl ?_
      show f.pmin ≤ f.partsLeft (given.getD u.r)
      rw [hgiven]
      exact hparts
    | rack x => exact absurd hpocket (show ¬ 2 = 1 by decide)
    | spindle x => exact absurd hpocket (show ¬ 3 = 1 by decide)

end Sys2Proof.Machine

/-! PROOFS. DECLARE (R39, R91), the retry timers (R161), and TAKE (R124). -/
namespace Sys2Proof.Machine

/-! ## DECLARE (R39, R91) -/

/-- The clause of O16 on a pocket. -/
theorem declarePocket_settles {s : State} {k : PocketIx} (hl : s.listening .ps = true) (hk : s.pocket k = .unknown) :
    ∃ t : State, exec (.declarePocket .ps (k.val + 1)) s =
        .next (t.answer .ps ⟨37, .accepted, byte (k.val + 1) :: pocketBytes (t.pocket k)⟩) ∧
      Settles (s.setPocket k .free) t := by
  have hbody : declarePocketBody (k.val + 1) s =
      .ok (declarePocketEvent k s, byte (k.val + 1) :: pocketBytes ((declarePocketEvent k s).pocket k)) := by
    simp [declarePocketBody, pocketOperand_succ, hk]
  show ∃ t, serve .ps 37 (declarePocketBody (k.val + 1) s) s = _ ∧ _
  rw [hbody]
  exact serve_ok hl (result := fun t => byte (k.val + 1) :: pocketBytes (t.pocket k))
    (settles_finish (Follows.refl (s.setPocket k .free)))

/-- Step 2 of a DECLARE goes through the work that follows. -/
theorem Follows.clearUnknown {a b : State} (h : Follows a b) (x : PosIx) :
    Follows (a.setPos x (a.pos x).clearUnknown) (b.setPos x (b.pos x).clearUnknown) := by
  have hsettled : (b.pos x).clearUnknown.settled = (a.pos x).clearUnknown.settled := by
    show (b.pos x).settled.clearUnknown.settled = (a.pos x).settled.clearUnknown.settled
    rw [h.positions x]
  refine h.setPos_congr x hsettled (fun hrack => ?_) (fun hidle => ?_) (h.needs x) fun hx => ⟨hx.2, id⟩
  · have hsame : (b.pos x).rack = (a.pos x).rack := h.racks x (by
      unfold Position.clearUnknown at hrack
      dsimp only at hrack
      split at hrack
      · cases hrack
      · exact hrack)
    unfold Position.clearUnknown
    rw [hsame]
  · rw [h.idle x hidle]

/-- The judgement of a position that is not RELEASED goes through the work that follows. -/
theorem Follows.judge {a b : State} (h : Follows a b) {x : PosIx} (c : Option Condition)
    (hs : (a.pos x).service ≠ .released) :
    Follows (a.setPos x ((a.pos x).judge c)) (b.setPos x ((b.pos x).judge c)) := by
  have hrack : ∀ p : Position, (p.judge c).rack = p.rack := fun p => by cases c with | none => rfl | some c => cases c <;> rfl
  have hneed : ∀ p : Position, (p.judge c).need = p.need ∧ (p.judge c).urgent = p.urgent := fun p => by
    cases c with | none => exact ⟨rfl, rfl⟩ | some c => cases c <;> exact ⟨rfl, rfl⟩
  have hsuspended : ∀ p : Position, (p.judge c).suspended = p.suspended := fun p => by
    cases c with | none => rfl | some c => cases c <;> rfl
  have hsettled : ∀ p : Position, (p.judge c).settled = p.settled.judge c := fun p => by
    cases c with | none => rfl | some c => cases c <;> rfl
  refine h.setPos_congr x ?_ ?_ (fun hidle => ?_) ?_ fun hx => ⟨?_, fun hr => absurd hr hs⟩
  · rw [hsettled, hsettled, h.positions x]
  · rw [hrack, hrack]
    exact h.racks x
  · rw [hsuspended] at hidle
    rw [h.idle x hidle]
  · rw [(hneed _).1, (hneed _).1, (hneed _).2, (hneed _).2]
    exact h.needs x
  · rw [hsuspended]
    exact hx.2

/-- The state of a position that is judged, as the spec says it (table of R91). -/
def State.judgedAs (v : State) (x : PosIx) (w : Service) (d : Option DueCause) : State :=
  v.setPos x { v.pos x with service := w, dueCause := d, holdCause := none, resume := none }

theorem mountedTool_judgedAs (v : State) (x : PosIx) (w : Service) (d : Option DueCause) :
    (v.judgedAs x w d).mountedTool = v.mountedTool := mountedTool_setPos rfl

/-- The judgement of a position from its mounted tool, as the spec says it (table of R91). -/
def State.judged (v : State) (x : PosIx) : State :=
  match v.mountedTool x with
  | none => v.judgedAs x .vacant none
  | some (_, w) =>
    match w.condition with
    | .sound => wearAt x (v.judgedAs x .serving none)
    | .worn => (v.judgedAs x .due (some .worn)).notifySlot x .due
    | .doubtful => (v.judgedAs x .due (some .doubt)).notifySlot x .due
    | .broken => (v.judgedAs x .due (some .broken)).notifySlot x .due

/-- The judgement with the notice DUE leaves a condition other than SOUND as it is, and the wear trigger finds nothing. -/
theorem Ev.follows_judgedDue {v : State} {e : Ev} {x : PosIx} {i : EntryIx} {w : Tool} {d : DueCause}
    (h : Follows (v.judgedAs x .due (some d)) e.st) (hm : v.mountedTool x = some (i, w)) (hc : w.condition ≠ .sound) :
    Follows ((v.judgedAs x .due (some d)).notifySlot x .due) ((e.notifySlot x .due).evalTriggers x).st := by
  have hnotified := h.notifySlot_congr x .due
  have hmounted : ((v.judgedAs x .due (some d)).notifySlot x .due).mountedTool x = some (i, w) := by
    rw [State.mountedTool_notifySlot, mountedTool_judgedAs, hm]
  refine (hnotified.wearAt_congr x).cast (wearAt_of_ne_sound hmounted hc).symm rfl |>.trans ?_
  exact Ev.follows_evalTriggers x (e.notifySlot x .due)

theorem Ev.follows_judge {v : State} {e : Ev} (h : Follows v e.st) {x : PosIx} (hs : (v.pos x).service ≠ .released) :
    Follows (v.judged x) (e.judge x).st := by
  have hjudged := fun c => h.judge (x := x) c hs
  unfold Ev.judge State.judged State.judgedCondition
  rw [h.mountedTool]
  cases hm : v.mountedTool x with
  | none => exact hjudged none
  | some m =>
    obtain ⟨i, w⟩ := m
    dsimp only [Option.map_some]
    cases hc : w.condition with
    | sound => exact ((hjudged (some .sound)).wearAt_congr x).trans (Ev.follows_evalTriggers x (e.updPos x (·.judge (some .sound))))
    | worn => exact Ev.follows_judgedDue (hjudged (some .worn)) hm (hc ▸ nofun)
    | doubtful => exact Ev.follows_judgedDue (hjudged (some .doubtful)) hm (hc ▸ nofun)
    | broken => exact Ev.follows_judgedDue (hjudged (some .broken)) hm (hc ▸ nofun)

theorem declarePositionBody_val {s : State} {x : PosIx} (hx : s.present x = true)
    (h : (s.pos x).service = .uncertain ∨ (s.pos x).rack = .unknown) :
    declarePositionBody x.val s = .ok (declarePositionEvent x s, (declarePositionEvent x s).positionRecord x) := by
  simp only [declarePositionBody, presentOperand_val hx]
  exact if_pos h

/-- Settles O16. -/
theorem declareFreesAndJudges : Obligations.DeclareFreesAndJudges := by
  refine fun s hl => ⟨fun k hk => declarePocket_settles hl hk, fun x hx hopen => ?_⟩
  intro u p₀ p v judged m
  have hcleared : Follows v (((Ev.start s).cancelNeed x).updPos x Position.clearUnknown).st :=
    (Ev.follows_cancelNeed x (Ev.start s)).clearUnknown x
  have hpos : v.pos x = p := by rw [State.pos_setPos, if_pos rfl]
  have hservice : (v.pos x).service = (s.pos x).service := by
    rw [hpos]
    show (u.pos x).settled.service = (s.pos x).settled.service
    rw [settled_needCancelled]
  have hjudged : ∀ w d, v.judgedAs x w d = judged w d := fun w d => by rw [State.judgedAs, hpos]
  have hm : m = if (s.pos x).service = .uncertain then v.judged x else v := by
    unfold State.judged
    simp only [hjudged]
    rfl
  show ∃ t, serve .ps 37 (declarePositionBody x.val s) s = _ ∧ _
  rw [declarePositionBody_val hx hopen, hm]
  refine serve_ok hl (result := fun t => t.positionRecord x) (settles_finish ?_)
  refine Follows.trans ?_ (Ev.follows_needTest x _)
  split
  · next huncertain => exact Ev.follows_judge hcleared (by rw [hservice, huncertain]; nofun)
  · exact hcleared

/-! ## The retry timers (R161) -/

/-- The end of a hold with the restart of the channel, as the spec says it (R77, R162). -/
theorem Ev.st_retry (x : PosIx) (s : State) :
    ((((Ev.start s).upd (·.stopTimer x)).updPos x Position.endHold).upd (·.restartChannel x)).st =
      (s.setPos x (holdEnded (s.pos x))).setChan x (channelRestarted s x) := by
  have hstopped : (s.setPos x (holdEnded (s.pos x))).stopTimer x = (s.stopTimer x).setPos x (holdEnded (s.pos x)) := rfl
  have hchannel : channelRestarted (s.setPos x (holdEnded (s.pos x))) x = channelRestarted s x :=
    channelRestarted_setPos rfl rfl rfl
  show ((s.stopTimer x).setPos x (holdEnded (s.pos x))).restartChannel x = _
  rw [← hstopped, restartChannel_stopTimer, hchannel]

theorem settles_retryEvent (x : PosIx) (s : State) :
    Settles ((s.setPos x (holdEnded (s.pos x))).setChan x (channelRestarted s x)) (retryEvent x s) :=
  settles_finish (Ev.st_retry x s ▸ Ev.follows_needTest x _)

/-- Settles O28. -/
theorem retryExpiryEndsHold : Obligations.RetryExpiryEndsHold := by
  intro x s hrun hx htimer hheld hcause
  have hdue : s.retryDue x = true := by simp [State.retryDue, hx, htimer, hheld, hcause]
  refine ⟨retryEvent x s, ?_, settles_retryEvent x s⟩
  show Host.Outcome.next _ = _
  rw [if_pos hrun, retryExpiry, if_pos hdue]

/-! ## TAKE (R124) -/

/-- A tool in the gripper, as the spec says it (R124, step 2). -/
def State.gripped (i : Option EntryIx) (s : State) : State :=
  i.elim s fun i => s.setTool i ((s.tool i).map fun w => { w with state := .moving, place := .gripper })

theorem Ev.st_grip (i : Option EntryIx) (e : Ev) : (e.grip i).st = e.st.gripped i := by cases i <;> rfl

theorem pos_gripped (i : Option EntryIx) (s : State) : (s.gripped i).pos = s.pos := by cases i <;> rfl

/-- The pocket that the TAKE of an order books (Table 6-2). -/
def State.pocketBooked (o : Order) (s : State) : State :=
  if o.kind = .stage ∨ o.kind = .direct then o.pocket.elim s fun k => s.setPocket k (.booked o.number) else s

theorem Ev.st_bookPocket (o : Order) (e : Ev) : (e.bookPocket o).st = e.st.pocketBooked o := by
  unfold Ev.bookPocket State.pocketBooked
  cases o.kind <;> cases o.pocket <;> rfl

theorem pos_pocketBooked (o : Order) (s : State) : (s.pocketBooked o).pos = s.pos := by
  unfold State.pocketBooked
  split
  · cases o.pocket <;> rfl
  · rfl

/-- The position record after the TAKE of an order (Table 6-2, R79). -/
def Position.taken (o : Order) (p : Position) : Position :=
  match o.kind with
  | .stage => p
  | .return_ => { p with rack := .booked o.number }
  | .exchange =>
    { p with rack := .booked o.number, mounted := .booked o.number, service := .exchanging, holdCause := none, resume := none }
  | .direct | .remove =>
    { p with mounted := .booked o.number, service := .exchanging, holdCause := none, resume := none }

theorem Ev.st_bookPlaces (o : Order) (e : Ev) :
    ((e.bookRack o).bookSpindle o).st = e.st.setPos o.pos ((e.st.pos o.pos).taken o) := by
  unfold Ev.bookSpindle Ev.bookRack Position.taken
  cases o.kind with
  | stage => exact (State.setPos_self e.st o.pos).symm
  | return_ => rfl
  | direct => rfl
  | remove => rfl
  | exchange =>
    show (e.st.setPos o.pos _).setPos o.pos _ = _
    rw [State.setPos_setPos]
    show e.st.setPos o.pos (((((e.st.setPos o.pos _).pos o.pos)).setMounted _).exchange) = _
    rw [State.pos_setPos, if_pos rfl]
    rfl

theorem Ev.st_take (o : Order) (s : State) :
    ((((((Ev.start s).upd (·.headTaken o)).grip o.incoming).grip o.outgoing).bookPocket o).bookRack o |>.bookSpindle o).st =
      State.setPos (((((s.headTaken o).gripped o.incoming).gripped o.outgoing).pocketBooked o)) o.pos
        ((s.pos o.pos).taken o) := by
  rw [Ev.st_bookPlaces, Ev.st_bookPocket, Ev.st_grip, Ev.st_grip, pos_pocketBooked, pos_gripped, pos_gripped]
  rfl

/-- Settles O20. -/
theorem takeHandsOut : Obligations.TakeHandsOut := by
  intro o s hl hidle hnext n p grip u₀ u₁ u₂ m
  have hbody : takeBody s = .ok (takeEvent o s, (takeEvent o s).orderRecord { o with state := .taken }) := by
    unfold takeBody
    rw [hidle, hnext]
    rfl
  show ∃ t, serve .pc 16 (takeBody s) s = _ ∧ _
  rw [hbody]
  exact serve_ok hl (result := fun t => t.orderRecord { o with state := .taken })
    (settles_finish (.cast (.refl m) rfl (Ev.st_take o s)))

end Sys2Proof.Machine

/-! PROOFS. What an order that is retired leaves, and the orders that the hand-off of its position posts (R116, R117, R121). -/
namespace Sys2Proof.Machine

/-! ## The retired order -/

section
variable {s : State} {n : Nat}

/-- The orders that stay stood before, but for the state of one that has moved into the queue. -/
theorem mem_standing_dropOrder {q : Order} (h : q ∈ (s.dropOrder n).standing) :
    ∃ st, { q with state := st } ∈ s.standing := by
  unfold State.standing at h ⊢
  have hsame : ∀ r ∈ s.ret.queue ++ s.ret.backlog, ∃ st, { r with state := st } ∈ s.ret.queue ++ s.ret.backlog :=
    fun r hr => ⟨r.state, hr⟩
  obtain ⟨-, -, -, hb, hq', hb'⟩ | ⟨-, -, p, rest, -, hb, hq', hb'⟩ | ⟨-, hq', hb'⟩ := dropOrder_cases s n
  · rw [hq', hb', List.append_nil] at h
    exact hsame q (List.mem_append_left _ (mem_dropNumber.mp h).1)
  · rw [hq', hb'] at h
    rw [hb] at hsame ⊢
    split_ifs at h
    · obtain h | h := List.mem_append.mp h
      · obtain rfl | h := mem_insertOrder.mp h
        · exact ⟨p.state, List.mem_append_right _ (List.mem_cons_self ..)⟩
        · exact hsame q (List.mem_append_left _ (mem_dropNumber.mp h).1)
      · exact hsame q (List.mem_append_right _ (List.mem_cons_of_mem _ h))
    · obtain h | h := List.mem_append.mp h
      · exact hsame q (List.mem_append_left _ (mem_dropNumber.mp h).1)
      · exact hsame q (List.mem_append_right _ h)
  · rw [hq', hb'] at h
    obtain h | h := List.mem_append.mp h
    · exact hsame q (List.mem_append_left _ h)
    · exact hsame q (List.mem_append_right _ (mem_dropNumber.mp h).1)

theorem length_dropNumber_lt {q : List Order} {o : Order} (h : o ∈ q) : (dropNumber o.number q).length < q.length := by
  refine List.length_filter_lt_length_iff_exists.mpr ⟨o, h, ?_⟩
  simp

/-- An order of the queue that leaves makes one less. -/
theorem length_standing_dropOrder {o : Order} (h : o ∈ s.ret.queue) :
    (s.dropOrder o.number).standing.length < s.standing.length := by
  have hlt := length_dropNumber_lt h
  unfold State.standing
  obtain ⟨-, -, -, hb, hq', hb'⟩ | ⟨-, -, p, rest, -, hb, hq', hb'⟩ | ⟨hnone, -, -⟩ := dropOrder_cases s o.number
  · rw [hq', hb', hb]
    simpa using hlt
  · rw [hq', hb', hb]
    split_ifs
    · rw [List.length_append, List.length_append, length_insertOrder, List.length_cons]
      omega
    · rw [List.length_append, List.length_append, List.length_cons]
      omega
  · exact absurd rfl (hnone o h)

theorem mem_queue_of_busyOrder {o : Order} (h : s.busyOrder = some o) : o ∈ s.ret.queue := List.mem_of_find?_eq_some h

theorem hasRoom_of_length (h : s.standing.length < 40) : s.hasRoom = true := by
  rw [hasRoom_iff]
  unfold State.standing at h
  rw [List.length_append] at h
  omega

theorem standing_retire (s : State) (n : Nat) : (s.retire n).standing = (s.dropOrder n).standing := rfl

theorem hasRoom_retire {o : Order} (h : s.busyOrder = some o) (hlen : s.standing.length ≤ 40) :
    (s.retire o.number).standing.length < 40 :=
  (length_standing_dropOrder (mem_queue_of_busyOrder h)).trans_le hlen

theorem OrderLaw.length_standing (h : OrderLaw s) : s.standing.length ≤ 40 := by
  have := h.queueSize
  have := h.backlogSize
  unfold State.standing
  rw [List.length_append]
  omega

/-- A tool that no other order names is named by none when its order is retired. -/
theorem NamedByNoOther.retire {j : EntryIx} (h : NamedByNoOther s n j) (hs : OrderLaw s) :
    ∀ q ∈ (s.retire n).standing, q.incoming ≠ some j ∧ q.outgoing ≠ some j := by
  intro q hq
  have hnumber : q.number ≠ n := fun hn =>
    (orderLaw_dropOrder hs n).2 (List.mem_map.mpr ⟨q, standing_retire s n ▸ hq, hn⟩)
  obtain ⟨st, hst⟩ := mem_standing_dropOrder hq
  exact h { q with state := st } hst hnumber

end

/-! ## What stands at the end of the event -/

theorem mem_standing_enqueue_of_mem {s : State} {q : Order} (h : q ∈ s.standing) (o : Order) : q ∈ (s.enqueue o).standing := by
  unfold State.standing State.enqueue at *
  obtain h | h := List.mem_append.mp h
  · split
    · exact List.mem_append_left _ (mem_insertOrder.mpr (.inr h))
    · exact List.mem_append_left _ h
  · split
    · exact List.mem_append_right _ h
    · exact List.mem_append_right _ (mem_insertOrder.mpr (.inr h))

section
variable {e : Ev} {x : PosIx}

theorem Ev.mem_standing_postReturn {q : Order} (h : q ∈ e.st.standing) (i : EntryIx) (k : Option PocketIx) :
    q ∈ (e.postReturn x i k).st.standing := by
  cases hroom : e.st.hasRoom with
  | false => rwa [Ev.postReturn_full hroom]
  | true =>
    cases k with
    | none =>
      rw [Ev.st_postReturn_chute hroom]
      exact mem_standing_enqueue_of_mem h _
    | some k =>
      rw [Ev.st_postReturn_pocket hroom]
      exact mem_standing_enqueue_of_mem h _

theorem Ev.mem_standing_offerPocket {q : Order} (h : q ∈ e.st.standing) (k : PocketIx) : q ∈ (e.offerPocket k).st.standing := by
  unfold Ev.offerPocket
  split
  · split
    · split
      · exact Ev.mem_standing_postReturn h _ _
      · exact h
    · exact h
  · exact h

theorem Ev.mem_standing_offerPockets {q : Order} (h : q ∈ e.st.standing) (before : State) :
    q ∈ (e.offerPockets before).st.standing := by
  unfold Ev.offerPockets
  generalize before.freedSince e.st = l
  induction l generalizing e with
  | nil => exact h
  | cons k l ih => exact ih (Ev.mem_standing_offerPocket h k)

/-- The end of an event that touches one position. -/
theorem ret_finish_single (before : State) (h : e.touched = [x]) :
    (finish before e).ret = ((e.handOff x).offerPockets before).st.ret := by
  rw [ret_finish, Ev.handOffs, h]
  rfl

theorem mem_standing_finish {before : State} {q : Order} (h : e.touched = [x]) (hq : q ∈ (e.handOff x).st.standing) :
    q ∈ (finish before e).standing :=
  standing_congr (ret_finish_single before h) ▸ Ev.mem_standing_offerPockets hq before

/-- The EXCHANGE of a position with a STAGED sister stands at the end of the event (R116). -/
theorem exchangeStands_finish {before : State} {i : EntryIx} (htouched : e.touched = [x]) (hx : e.st.present x = true)
    (hs : (e.st.pos x).suspended = false) (hreturn : e.st.callsReturn x = none) (hneed : (e.st.pos x).need = .staged)
    (hsister : (e.st.pos x).sister = some i) (hnone : ∀ q ∈ e.st.standing, ¬(q.kind = .exchange ∧ q.pos = x))
    (hservice : (e.st.pos x).service = .released ∨ (e.st.pos x).service = .vacant) (hroom : e.st.hasRoom = true) :
    ExchangeStands x i ((e.st.mountedTool x).map (·.1)) (e.st.pos x).urgent (finish before e) := by
  obtain ⟨q, hq, hrest⟩ := exchangeStands_handOff hx hs hreturn hneed hsister hnone hservice hroom rfl
  exact ⟨q, mem_standing_finish htouched hq, hrest⟩

theorem taken_finish {before : State} {k : PocketIx} {n : Nat} (htouched : e.touched = [x])
    (h : (e.handOff x).st.pocket k = .booked n) : (finish before e).pocket k = .booked n := by
  rw [pocket_congr (ret_finish_single before htouched)]
  exact ((Ev.follows_offerPockets before (e.handOff x)).taken k (by rw [h]; nofun)).trans h

/-- The RETURN of an OFFLOADED tool that no order names stands at the end of the event (R117). -/
theorem returnStands_finish {before : State} {j : EntryIx} {v : Tool} (htouched : e.touched = [x])
    (hx : e.st.present x = true) (hs : (e.st.pos x).suspended = false) (hrack : (e.st.pos x).rack = .entry j)
    (hv : e.st.tool j = some v) (hstate : v.state = .offloaded)
    (hnamed : ∀ q ∈ e.st.standing, q.incoming ≠ some j ∧ q.outgoing ≠ some j) (hroom : e.st.hasRoom = true) :
    ReturnStands x j v.condition (fun k => e.st.pocket k = .free) (finish before e) := by
  have hhand := Ev.handOff_return hx hs ((callsReturn_eq_some_iff _ _ _).mpr ⟨hrack, ⟨v, hv, hstate⟩, hnamed⟩)
  have hposted := fun k => mem_standing_enqueue e.st (e.st.newOrder x .return_ false none (some j) k)
  refine ⟨fun hc => ?_, fun hc => ⟨fun k hk hlow => ?_, fun hnone => ?_⟩⟩
  · rw [Ev.callReturn_chute hv hc] at hhand
    obtain ⟨st, hmem, hst⟩ := hposted none
    refine ⟨_, { e.st.newOrder x .return_ false none (some j) none with state := st }, mem_standing_finish htouched ?_, rfl,
      rfl, rfl, rfl, rfl, Order.not_busy hst⟩
    rw [hhand, Ev.st_postReturn_chute hroom]
    exact hmem
  · rw [Ev.callReturn_pocket hv hc (freePocket_eq_some hk hlow)] at hhand
    obtain ⟨st, hmem, hst⟩ := hposted (some k)
    refine ⟨_, ⟨{ e.st.newOrder x .return_ false none (some j) (some k) with state := st },
      mem_standing_finish htouched ?_, rfl, rfl, rfl, rfl, rfl, Order.not_busy hst⟩,
      taken_finish htouched ?_⟩
    · rw [hhand, Ev.st_postReturn_pocket hroom]
      exact hmem
    · rw [hhand, Ev.st_postReturn_pocket hroom, State.pocket_setPocket, if_pos rfl]
      rfl
  · rw [Ev.callReturn_await hv hc (freePocket_eq_none hnone)] at hhand
    have hpocket : (e.handOff x).st.pocket = e.st.pocket := by
      rw [hhand, Ev.st_awaitPocket]
      split
      · rfl
      · rw [State.pocket_notify]
        rfl
    have hfreed : before.freedSince (e.handOff x).st = [] := by
      refine List.filter_eq_nil_iff.mpr fun k _ hk => ?_
      rw [Bool.and_eq_true, decide_eq_true_eq, hpocket] at hk
      exact hnone k hk.1
    rw [pos_congr (ret_finish_single before htouched), Ev.offerPockets, hfreed, List.foldl_nil, hhand, Ev.st_awaitPocket]
    split
    · assumption
    · rw [State.pos_notify, State.pos_setPos, if_pos rfl]

end

end Sys2Proof.Machine

/-! PROOFS. DONE of a STAGE and of a RETURN (R126, R128). -/
namespace Sys2Proof.Machine

/-! ## What the retirement leaves unchanged -/

theorem State.tool_retire (s : State) (n : Nat) : (s.retire n).tool = s.tool := State.tool_dropOrder s n

theorem State.strap_retire (s : State) (n : Nat) : (s.retire n).strap = s.strap := (outside_dropOrder s n).strap

theorem State.present_retire (s : State) (n : Nat) : (s.retire n).present = s.present := present_congr (State.strap_retire s n)

/-- What the leaving of an order changes of retained state. -/
theorem ret_dropOrder (s : State) (n : Nat) : (s.dropOrder n).ret =
    { s.ret with queue := (s.dropOrder n).ret.queue, backlog := (s.dropOrder n).ret.backlog } := by
  unfold State.dropOrder State.promote
  split
  · dsimp only
    split
    · rfl
    · split <;> rfl
  · rfl

theorem State.pocket_retire (s : State) (n : Nat) : (s.retire n).pocket = s.pocket := by
  funext k
  show (s.dropOrder n).pocket k = _
  rw [State.pocket, State.pocket, ret_dropOrder]

theorem State.waiting_retire (s : State) (n : Nat) : (s.retire n).ret.waiting = s.ret.waiting := by
  show (s.dropOrder n).ret.waiting = _
  rw [ret_dropOrder]

theorem State.typ_retire (s : State) (n : Nat) : (s.retire n).typ = s.typ := by
  funext k
  show (s.dropOrder n).typ k = _
  rw [State.typ, State.typ, ret_dropOrder]

/-! ## Changes of the state in one order

A chain of changes is brought to the order: pockets, tools, positions, notices, the waiting list. -/

/-- A position taken off the waiting list. -/
def State.unlist (s : State) (x : PosIx) : State := { s with ret.waiting := s.ret.waiting.filter (· ≠ x) }

section
variable (s : State) (x y : PosIx) (i : EntryIx) (k : PocketIx) (p : Position) (t : Option Tool) (v : Pocket) (q : Port)

theorem Follows.unlist : Follows s (s.unlist x) := Follows.waiting s _

@[simp] theorem Ev.st_setNeed (f : Position → Position) (e : Ev) :
    (e.setNeed x f).st = (e.st.setPos x (f (e.st.pos x))).unlist x := rfl

@[simp] theorem State.setTool_setPos : (s.setPos x p).setTool i t = (s.setTool i t).setPos x p := rfl

@[simp] theorem State.setPocket_setPos : (s.setPos x p).setPocket k v = (s.setPocket k v).setPos x p := rfl

@[simp] theorem State.setPocket_setTool : (s.setTool i t).setPocket k v = (s.setPocket k v).setTool i t := rfl

@[simp] theorem State.setPos_setPos_same (r : Position) : (s.setPos x p).setPos x r = s.setPos x r := State.setPos_setPos s x p r

@[simp] theorem State.setPos_notify (n : Notice) : (s.notify q n).setPos x p = (s.setPos x p).notify q n := by
  unfold State.notify
  rw [State.enabled_setPos]
  split <;> rfl

@[simp] theorem State.setTool_notify (n : Notice) : (s.notify q n).setTool i t = (s.setTool i t).notify q n := by
  unfold State.notify
  rw [State.enabled_setTool]
  split <;> rfl

@[simp] theorem State.setPocket_notify (n : Notice) : (s.notify q n).setPocket k v = (s.setPocket k v).notify q n := by
  unfold State.notify
  rw [State.enabled_setPocket]
  split <;> rfl

@[simp] theorem State.setPos_notifySlot (n : Slot → Notice) :
    (s.notifySlot y n).setPos x p = (s.setPos x p).notifySlot y n := State.setPos_notify _ _ _ _ _

@[simp] theorem State.setTool_notifySlot (n : Slot → Notice) :
    (s.notifySlot y n).setTool i t = (s.setTool i t).notifySlot y n := State.setTool_notify _ _ _ _ _

@[simp] theorem State.setPos_unlist : (s.unlist y).setPos x p = (s.setPos x p).unlist y := rfl

@[simp] theorem State.setTool_unlist : (s.unlist y).setTool i t = (s.setTool i t).unlist y := rfl

@[simp] theorem State.setPocket_unlist : (s.unlist y).setPocket k v = (s.setPocket k v).unlist y := rfl

@[simp] theorem State.notify_unlist (n : Notice) : (s.unlist y).notify q n = (s.notify q n).unlist y := by
  have henabled : (s.unlist y).enabled = s.enabled := rfl
  unfold State.notify
  rw [henabled]
  split <;> rfl

@[simp] theorem State.notifySlot_unlist (n : Slot → Notice) : (s.unlist y).notifySlot x n = (s.notifySlot x n).unlist y :=
  State.notify_unlist _ _ _ _

@[simp] theorem State.pos_unlist : (s.unlist y).pos = s.pos := rfl

@[simp] theorem State.tool_unlist : (s.unlist y).tool = s.tool := rfl

end

/-! ## DONE -/

theorem doneBody_reported {s : State} {o : Order} (h : s.busyOrder = some o) (hn : o.number ≠ 0) (hx : s.present o.pos = true) :
    doneBody o.number s = .ok (doneEvent o s, retiredResult o) := by
  have hreported : s.reported o.number = some o := by
    unfold State.reported
    rw [h]
    exact if_pos ⟨rfl, hx⟩
  unfold doneBody
  rw [if_neg hn, hreported]

/-- An accepted DONE settles to the changes of its kind. -/
theorem done_settles {s m : State} {o : Order} (hl : s.listening .pc = true) (h : s.busyOrder = some o) (hn : o.number ≠ 0)
    (hx : s.present o.pos = true) (hm : Follows m (((Ev.start s).upd (·.retire o.number)).done o).st) :
    exec (.doneOrder .pc o.number) s = .next ((doneEvent o s).answer .pc ⟨17, .accepted, retiredResult o⟩) ∧
      Settles m (doneEvent o s) := by
  refine ⟨?_, settles_finish hm⟩
  show serve .pc 17 (doneBody o.number s) s = _
  rw [doneBody_reported h hn hx, serve_accepted hl]

/-! ## DONE of a STAGE (R126) -/

/-- The state after the DONE of a STAGE, as the spec says it. -/
def State.stageDone (s : State) (o : Order) (i : EntryIx) (k : PocketIx) (w : Tool) : State :=
  let u := (s.retire o.number).setPocket k .free
  if w.promised = some o.pos then
    ((u.setTool i (some { w with state := .staged, place := .rack o.pos })).setPos o.pos
      { s.pos o.pos with rack := .entry i, need := .staged, failed := 0 }).notifySlot o.pos .staged
  else
    (u.setTool i (some { w with state := .offloaded, place := .rack o.pos })).setPos o.pos
      { s.pos o.pos with rack := .entry i, failed := 0 }

section
variable {s : State} {o : Order} {i : EntryIx} {k : PocketIx} {w : Tool}

/-- The event of the DONE of a STAGE that brings tool `i` from pocket `k`. -/
theorem Ev.done_stage (hkind : o.kind = .stage) (hi : o.incoming = some i) (hk : o.pocket = some k) (e : Ev) :
    e.done o = ((e.setPocket k .free).arriveStaged o.pos i).clearFailed o.pos := by
  unfold Ev.done
  rw [hkind]
  show e.doneStage o = _
  unfold Ev.doneStage Ev.freePocket
  rw [hi, hk]

theorem promisedTo_iff (hw : s.tool i = some w) (x : PosIx) : s.promisedTo i x = true ↔ w.promised = some x := by
  rw [State.promisedTo, hw, Option.any_some, decide_eq_true_eq]

/-- The DONE of a STAGE makes the changes that the spec gives, and takes the position off the waiting list with them. -/
theorem Ev.st_doneStage (hkind : o.kind = .stage) (hi : o.incoming = some i) (hk : o.pocket = some k)
    (hw : s.tool i = some w) : (((Ev.start s).upd (·.retire o.number)).done o).st =
      if w.promised = some o.pos then (s.stageDone o i k w).unlist o.pos else s.stageDone o i k w := by
  have htool : (s.retire o.number).tool i = some w := by rw [State.tool_retire, hw]
  have hpos : (s.retire o.number).pos = s.pos := State.pos_retire s o.number
  have hiff := promisedTo_iff (s := (((Ev.start s).upd (·.retire o.number)).setPocket k .free).st) htool o.pos
  rw [Ev.done_stage hkind hi hk]
  unfold State.stageDone Ev.arriveStaged Ev.clearFailed
  by_cases hpromised : w.promised = some o.pos
  · rw [if_pos (hiff.mpr hpromised), if_pos hpromised, if_pos hpromised]
    simp [htool, hpos, Tool.put, Position.setRack, Position.progress]
  · rw [if_neg (mt hiff.mp hpromised), if_neg hpromised, if_neg hpromised]
    simp [htool, hpos, Tool.put, Position.setRack]

theorem Ev.touched_doneStage (hkind : o.kind = .stage) (hi : o.incoming = some i) (hk : o.pocket = some k)
    (hrack : (s.pos o.pos).rack = .booked o.number) :
    (((Ev.start s).upd (·.retire o.number)).done o).touched = [o.pos] := by
  have harrives : ∀ e : Ev, e.st.pos = s.pos → e.touched = [] → (e.updPos o.pos (·.setRack (.entry i))).touched = [o.pos] :=
    fun e hpos htouched => Ev.touched_updPos_first htouched (by
      rw [hpos]
      simp [Position.sameForHandOff, Position.setRack, hrack])
  have hpos : (s.retire o.number).pos = s.pos := State.pos_retire s o.number
  rw [Ev.done_stage hkind hi hk]
  refine Ev.touched_updPos_single ?_ _
  unfold Ev.arriveStaged
  split
  · exact Ev.touched_updPos_single (harrives (((((Ev.start s).upd (·.retire o.number)).setPocket k .free)).updTool i _) hpos rfl) _
  · exact harrives _ hpos rfl

end

theorem pos_stageDone (s : State) (o : Order) (i : EntryIx) (k : PocketIx) (w : Tool) : (s.stageDone o i k w).pos o.pos =
    if w.promised = some o.pos then { s.pos o.pos with rack := .entry i, need := .staged, failed := 0 }
    else { s.pos o.pos with rack := .entry i, failed := 0 } := by
  unfold State.stageDone
  split <;> simp

theorem standing_stageDone (s : State) (o : Order) (i : EntryIx) (k : PocketIx) (w : Tool) :
    (s.stageDone o i k w).standing = (s.retire o.number).standing := by
  unfold State.stageDone State.standing
  split
  · simp
  · rfl

theorem present_stageDone (s : State) (o : Order) (i : EntryIx) (k : PocketIx) (w : Tool) :
    (s.stageDone o i k w).present = s.present := by
  unfold State.stageDone
  split <;> simp [State.present_retire]

theorem tool_stageDone (s : State) (o : Order) (i : EntryIx) (k : PocketIx) (w : Tool) : (s.stageDone o i k w).tool i =
    some { w with state := if w.promised = some o.pos then .staged else .offloaded, place := .rack o.pos } := by
  unfold State.stageDone
  split <;> simp

theorem pocket_stageDone (s : State) (o : Order) (i : EntryIx) (k : PocketIx) (w : Tool) (j : PocketIx) :
    (s.stageDone o i k w).pocket j = .free ↔ s.pocket j = .free ∨ j = k := by
  have hpocket : (s.stageDone o i k w).pocket j = if k = j then .free else s.pocket j := by
    unfold State.stageDone
    split <;> simp [State.pocket_retire]
  rw [hpocket]
  split
  · next h => exact iff_of_true rfl (.inr h.symm)
  · next h => exact (or_iff_left (Ne.symm h)).symm

/-- Settles O21. -/
theorem doneStageArrives : Obligations.DoneStageArrives := by
  intro o i k w s hl hbusy hn hx hkind hi hk hw x p u m
  have hm : m = s.stageDone o i k w := rfl
  set e := ((Ev.start s).upd (·.retire o.number)).done o with he
  have hst : e.st = if w.promised = some x then m.unlist x else m := Ev.st_doneStage hkind hi hk hw
  have hfollows : Follows m e.st := by
    rw [hst]
    split
    · exact .unlist m x
    · exact .refl m
  obtain ⟨hexec, hsettles⟩ := done_settles hl hbusy hn hx hfollows
  have hsame : e.st.pos = m.pos ∧ e.st.tool = m.tool ∧ e.st.standing = m.standing ∧ e.st.present = m.present ∧
      e.st.pocket = m.pocket := by
    rw [hst]
    split <;> exact ⟨rfl, rfl, rfl, rfl, rfl⟩
  obtain ⟨hpos, htool, hstanding, hpresent, hpocket⟩ := hsame
  rw [hm, standing_stageDone] at hstanding
  rw [hm, present_stageDone] at hpresent
  refine ⟨doneEvent o s, ?_, hsettles, fun hactive hrack hlen => ?_⟩
  · rw [hexec, retiredResult, hkind]
    rfl
  have htouched : e.touched = [x] := Ev.touched_doneStage hkind hi hk hrack
  have hroom := hasRoom_retire hbusy hlen
  rw [← hstanding] at hroom
  refine ⟨fun hpromised hsister hservice hnone => ?_, fun hpromised hlaw hnamed => ?_⟩
  · have hx' : e.st.pos x = { p with rack := .entry i, need := .staged, failed := 0 } := by
      rw [hpos, hm, pos_stageDone, if_pos hpromised]
    have hreturn : e.st.callsReturn x = none := callsReturn_of_rack fun j v hj hv => by
      rw [hx'] at hj
      cases hj
      rw [htool, hm, tool_stageDone, if_pos hpromised] at hv
      cases hv
      nofun
    have hstands := exchangeStands_finish (before := s) (i := i) htouched (by rw [hpresent]; exact hx) (by rw [hx']; exact hactive)
      hreturn (by rw [hx']) (by rw [hx']; exact hsister) (fun q hq hboth => ?_) (by rw [hx']; exact hservice)
      (hasRoom_of_length hroom)
    · rw [hx', hfollows.mountedTool] at hstands
      exact hstands
    · rw [hstanding] at hq
      obtain ⟨st, hst'⟩ := mem_standing_dropOrder hq
      exact hnone _ hst' hboth
  · have hx' : e.st.pos x = { p with rack := .entry i, failed := 0 } := by
      rw [hpos, hm, pos_stageDone, if_neg hpromised]
    have hfree : (fun j => e.st.pocket j = .free) = fun j => s.pocket j = .free ∨ j = k :=
      funext fun j => propext (by rw [hpocket, hm]; exact pocket_stageDone s o i k w j)
    have hi' : e.st.tool i = some { w with state := .offloaded, place := .rack x } := by
      rw [htool, hm, tool_stageDone, if_neg hpromised]
    rw [← hfree]
    refine returnStands_finish (v := { w with state := .offloaded, place := .rack x }) htouched (by rw [hpresent]; exact hx)
      (by rw [hx']; exact hactive) (by rw [hx']) hi' rfl (fun q hq => ?_) (hasRoom_of_length hroom)
    rw [hstanding] at hq
    exact hnamed.retire hlaw q hq

/-! ## DONE of a RETURN (R128) -/

section
variable {s : State} {o : Order} {j : EntryIx} {v : Tool}

/-- The state with the order retired and the rack of its position EMPTY, the failed-order count at 0. -/
def State.returnLeft (s : State) (o : Order) : State :=
  (s.retire o.number).setPos o.pos { s.pos o.pos with rack := .bare, failed := 0 }

theorem Ev.done_return (hkind : o.kind = .return_) (hj : o.outgoing = some j) (e : Ev) : e.done o =
    Ev.clearFailed o.pos (o.pocket.elim ((e.updPos o.pos (·.setRack .bare)).upd fun s => s.setTool j none) fun k =>
      (e.updPos o.pos (·.setRack .bare)).storeReturned j k) := by
  unfold Ev.done
  rw [hkind]
  show e.doneReturn o = _
  unfold Ev.doneReturn
  rw [hj]
  cases o.pocket <;> rfl

/-- The DONE of a RETURN to the chute. -/
theorem Ev.st_doneChute (hkind : o.kind = .return_) (hj : o.outgoing = some j) (hk : o.pocket = none) :
    (((Ev.start s).upd (·.retire o.number)).done o).st = (s.returnLeft o).setTool j none := by
  rw [Ev.done_return hkind hj, hk]
  simp [Ev.clearFailed, State.returnLeft, Position.setRack, State.pos_retire]

/-- The event of a RETURN to pocket `k` as far as the emptied rack. -/
def Ev.rackEmptied (o : Order) (s : State) : Ev := ((Ev.start s).upd (·.retire o.number)).updPos o.pos (·.setRack .bare)

theorem tool_rackEmptied (o : Order) (s : State) : (Ev.rackEmptied o s).st.tool = s.tool := State.tool_retire s o.number

theorem Ev.done_pocket {k : PocketIx} (hkind : o.kind = .return_) (hj : o.outgoing = some j) (hk : o.pocket = some k) :
    ((Ev.start s).upd (·.retire o.number)).done o = ((Ev.rackEmptied o s).storeReturned j k).clearFailed o.pos := by
  rw [Ev.done_return hkind hj, hk]
  rfl

/-- A DOUBTFUL tool is quarantined in its pocket. -/
theorem Ev.st_doneQuarantined {k : PocketIx} (hv : s.tool j = some v) (hc : v.condition = .doubtful) :
    (((Ev.rackEmptied o s).storeReturned j k).clearFailed o.pos).st =
      (((s.returnLeft o).setPocket k (.holds j)).setTool j (some { v with state := .quarantined, place := .pocket k })).notify
        .ps .quarantine := by
  have hdoubtful : ((Ev.rackEmptied o s).st.tool j).any (fun t => decide (t.condition = .doubtful)) = true := by
    rw [tool_rackEmptied, hv]
    simpa using hc
  unfold Ev.storeReturned
  rw [if_pos hdoubtful]
  simp [Ev.clearFailed, Ev.rackEmptied, State.returnLeft, Position.setRack, State.pos_retire, State.tool_retire, hv, Tool.put]

/-- The event of a RETURN of a tool that is not DOUBTFUL, as far as its arrival in pocket `k`. -/
def Ev.returned (o : Order) (j : EntryIx) (k : PocketIx) (s : State) : Ev :=
  ((Ev.rackEmptied o s).setPocket k (.holds j)).updTool j (·.put .stored (.pocket k))

theorem Ev.storeReturned_stored {k : PocketIx} (hv : s.tool j = some v) (hc : v.condition ≠ .doubtful) :
    (Ev.rackEmptied o s).storeReturned j k = (Ev.returned o j k s).offerTool j := by
  have hsound : ¬((Ev.rackEmptied o s).st.tool j).any (fun t => decide (t.condition = .doubtful)) = true := by
    rw [tool_rackEmptied, hv]
    simpa using hc
  unfold Ev.storeReturned
  rw [if_neg hsound]
  rfl

theorem Ev.st_returned {k : PocketIx} (hv : s.tool j = some v) : (Ev.returned o j k s).st =
    ((((s.retire o.number).setPocket k (.holds j)).setTool j (some { v with state := .stored, place := .pocket k })).setPos
      o.pos { s.pos o.pos with rack := .bare }) := by
  simp [Ev.returned, Ev.rackEmptied, Position.setRack, State.pos_retire, State.tool_retire, hv, Tool.put]

theorem Ev.follows_returned {k : PocketIx} (hv : s.tool j = some v) :
    Follows (((s.returnLeft o).setPocket k (.holds j)).setTool j (some { v with state := .stored, place := .pocket k }))
      (((Ev.returned o j k s).offerTool j).clearFailed o.pos).st := by
  refine .cast ((Ev.follows_offerTool j (Ev.returned o j k s)).apply_congr o.pos (fun p => { p with failed := 0 })
    (fun _ _ h => ?_) (fun _ => rfl) (fun _ => ⟨rfl, rfl⟩) (fun _ => rfl) fun _ => id) ?_ rfl
  · exact congrArg (fun p : Position => { p with failed := 0 }) h
  · rw [Ev.st_returned hv]
    simp [State.returnLeft]

/-- A SOUND tool with enough parts left that comes back to a pocket serves the waiting list (R105). -/
theorem serves_returned {k : PocketIx} (hv : s.tool j = some v) (hc : v.condition = .sound)
    (hparts : (s.figures v.type).pmin ≤ s.partsLeft v) :
    Serves s (finish s (((Ev.returned o j k s).offerTool j).clearFailed o.pos)) v.type j := by
  have hst := Ev.st_returned (o := o) (k := k) hv
  have htyp : (Ev.returned o j k s).st.typ = s.typ := by
    rw [hst]
    exact State.typ_retire s o.number
  have hfigures : (Ev.returned o j k s).st.figures = s.figures := funext fun k => by rw [State.figures, State.figures, htyp]
  have hpartsLeft : (Ev.returned o j k s).st.partsLeft = s.partsLeft :=
    funext fun u => by rw [State.partsLeft, State.partsLeft, hfigures]
  have hcleared : Posts ((Ev.returned o j k s).offerTool j).st (((Ev.returned o j k s).offerTool j).clearFailed o.pos).st :=
    .setPos _ rfl rfl rfl (.inl rfl)
  refine serves_of_posts (hcleared.trans (posts_finish s _)) ?_ (fun l hl => ?_) ?_ fun x => ?_
  · refine (eligible_iff _ _ j).mpr ⟨{ v with state := .stored, place := .pocket k }, ?_, rfl, rfl, hc, ?_⟩
    · rw [hst]
      simp
    · rw [hfigures, hpartsLeft]
      exact hparts
  · have htool : (Ev.returned o j k s).st.tool l = s.tool l := by
      rw [hst]
      simp [Ne.symm hl, State.tool_retire]
    unfold State.eligible
    rw [htool, hfigures, hpartsLeft]
  · rw [hst]
    exact State.waiting_retire s o.number
  · have hpos : ((Ev.returned o j k s).st.pos x).suspended = (s.pos x).suspended ∧
        ((Ev.returned o j k s).st.pos x).required = (s.pos x).required := by
      rw [hst, State.pos_setPos]
      split
      · next h =>
        subst h
        exact ⟨rfl, rfl⟩
      · show ((s.retire o.number).pos x).suspended = _ ∧ ((s.retire o.number).pos x).required = _
        rw [State.pos_retire]
        exact ⟨rfl, rfl⟩
    have hpresent : (Ev.returned o j k s).st.present = s.present := by
      rw [hst]
      exact State.present_retire s o.number
    rw [Candidate, Candidate, Active, Active, hpresent, hpos.1, hpos.2]

end

/-- Settles O24. -/
theorem doneReturnStores : Obligations.DoneReturnStores := by
  intro o j v s hl hbusy hn hx hkind hj hv x u m
  have hresult : retiredResult o = be 2 o.number ++ [5] := by
    rw [retiredResult, hkind]
    rfl
  rw [← hresult]
  cases hk : o.pocket with
  | none =>
    have hm : m = (s.returnLeft o).setTool j none := by
      simp only [m, hk]
      rfl
    obtain ⟨hexec, hsettles⟩ := done_settles hl hbusy hn hx (.cast (.refl m) rfl ((Ev.st_doneChute hkind hj hk).trans hm.symm))
    exact ⟨_, hexec, hsettles, nofun⟩
  | some k =>
    have hdone := Ev.done_pocket (s := s) hkind hj hk
    by_cases hc : v.condition = .doubtful
    · have hm : m = (((Ev.rackEmptied o s).storeReturned j k).clearFailed o.pos).st := by
        rw [Ev.st_doneQuarantined hv hc]
        simp only [m, hk, if_pos hc]
        rfl
      obtain ⟨hexec, hsettles⟩ := done_settles hl hbusy hn hx (.cast (.refl m) rfl (by rw [hdone, hm]))
      exact ⟨_, hexec, hsettles, fun _ hsound => absurd (hc.symm.trans hsound) nofun⟩
    · have hm : m = ((s.returnLeft o).setPocket k (.holds j)).setTool j
          (some { v with state := .stored, place := .pocket k }) := by
        simp only [m, hk, if_neg hc]
        rfl
      rw [Ev.storeReturned_stored hv hc] at hdone
      obtain ⟨hexec, hsettles⟩ := done_settles (m := m) hl hbusy hn hx (by rw [hdone, hm]; exact Ev.follows_returned hv)
      refine ⟨_, hexec, hsettles, fun _ hsound hparts => ?_⟩
      have hevent : doneEvent o s = finish s (((Ev.returned o j k s).offerTool j).clearFailed o.pos) :=
        congrArg (finish s) hdone
      rw [hevent]
      exact serves_returned hv hsound hparts

end Sys2Proof.Machine

/-! PROOFS. DONE of an EXCHANGE, a DIRECT and a REMOVE (R79, R127), with what the outgoing tool teaches (R65 to R67). -/
namespace Sys2Proof.Machine

/-! ## The learning update follows a state -/

section
variable {a b : State}

theorem Follows.reevaluated (h : Follows a b) (k : TypeIx) (but : Option EntryIx) (x : PosIx) :
    b.reevaluated k but x = a.reevaluated k but x := by
  unfold State.reevaluated
  rw [h.present, h.hasFinding, h.mountedTool]

theorem Follows.wearAll_congr (h : Follows a b) (k : TypeIx) (but : Option EntryIx) :
    Follows (wearAll k but a) (wearAll k but b) := by
  unfold wearAll
  generalize allPositions = l
  induction l generalizing a b with
  | nil => exact h
  | cons x l ih =>
    rw [List.foldl_cons, List.foldl_cons, h.reevaluated]
    split
    · exact ih (h.wearAt_congr x)
    · exact ih h

/-- The learning update of a tool that both states have alike. -/
theorem Follows.learned_congr (h : Follows a b) {j : Option EntryIx} (hj : ∀ i, j = some i → b.tool i = a.tool i)
    (but : Option EntryIx) : Follows (learned j but a) (learned j but b) := by
  cases j with
  | none => exact h
  | some i =>
    unfold learned
    dsimp only
    rw [hj i rfl]
    cases a.tool i with
    | none => exact h
    | some u =>
      dsimp only
      rw [h.typ]
      cases a.typ u.type with
      | none => exact h
      | some f =>
        dsimp only
        split
        · exact ((h.setType_congr u.type _).wearAll_congr u.type but).notify_congr .ps .learned
        · exact h

end

/-! ## Work at one position before its hand-off -/

/-- Work that touches no position but `x` and leaves the orders, the pockets, the rack of `x` and tool `j` as they are. -/
structure Ev.WorksAt (x : PosIx) (j : EntryIx) (a b : Ev) : Prop where
  touched : a.touched = [x] → b.touched = [x]
  standing : b.st.standing = a.st.standing
  pocket : b.st.pocket = a.st.pocket
  present : b.st.present = a.st.present
  rack : (b.st.pos x).rack = (a.st.pos x).rack
  suspended : (b.st.pos x).suspended = (a.st.pos x).suspended
  tool : b.st.tool j = a.st.tool j

section
variable {x : PosIx} {j : EntryIx} {v : Tool} {a b c e : Ev}

theorem Ev.WorksAt.refl (a : Ev) : Ev.WorksAt x j a a := ⟨id, rfl, rfl, rfl, rfl, rfl, rfl⟩

theorem Ev.WorksAt.trans (h : Ev.WorksAt x j a b) (g : Ev.WorksAt x j b c) : Ev.WorksAt x j a c :=
  ⟨g.touched ∘ h.touched, g.standing.trans h.standing, g.pocket.trans h.pocket, g.present.trans h.present,
    g.rack.trans h.rack, g.suspended.trans h.suspended, g.tool.trans h.tool⟩

theorem Ev.worksAt_updPos (e : Ev) {f : Position → Position} (hrack : (f (e.st.pos x)).rack = (e.st.pos x).rack)
    (hsuspended : (f (e.st.pos x)).suspended = (e.st.pos x).suspended) : Ev.WorksAt x j e (e.updPos x f) :=
  ⟨fun h => Ev.touched_updPos_single h f, rfl, rfl, rfl, by simp [hrack], by simp [hsuspended], rfl⟩

theorem Ev.worksAt_updTool (e : Ev) {i : EntryIx} (h : i ≠ j) (f : Tool → Tool) : Ev.WorksAt x j e (e.updTool i f) :=
  ⟨id, rfl, rfl, rfl, rfl, rfl, by simp [h]⟩

theorem Ev.worksAt_leaveWaiting (e : Ev) : Ev.WorksAt x j e (e.leaveWaiting x) := ⟨id, rfl, rfl, rfl, rfl, rfl, rfl⟩

theorem Ev.worksAt_notify (e : Ev) (p : Port) (n : Notice) : Ev.WorksAt x j e (e.notify p n) :=
  ⟨id, by simp [State.standing], by simp, by simp, by simp, by simp, by simp⟩

theorem Ev.worksAt_joinWaiting (e : Ev) : Ev.WorksAt x j e (e.upd (·.joinWaiting x)) := by
  have hjoin : ∃ l, e.st.joinWaiting x = { e.st with ret.waiting := l } := by
    unfold State.joinWaiting
    dsimp only
    split <;> exact ⟨_, rfl⟩
  obtain ⟨l, hl⟩ := hjoin
  have hst : (e.upd (·.joinWaiting x)).st = { e.st with ret.waiting := l } := hl
  refine ⟨id, ?_, ?_, ?_, ?_, ?_, ?_⟩
  all_goals
    rw [hst]
    rfl

/-- The need test reserves no tool but a STORED one. -/
theorem Ev.worksAt_needTest (hj : e.st.tool j = some v) (hstate : v.state ≠ .stored) : Ev.WorksAt x j e (e.needTest x) := by
  have hurgent : Ev.WorksAt x j e (e.updPos x (·.setUrgent (e.st.mountedBroken x))) := e.worksAt_updPos rfl rfl
  unfold Ev.needTest
  split
  · next k _ =>
    unfold Ev.raiseNeed
    dsimp only
    split
    · next i hi =>
      have hne : i ≠ j := by
        rintro rfl
        obtain ⟨u, hu, -, hstored, -⟩ := (eligible_iff _ k i).mp (choose_eligible hi)
        cases (show e.st.tool i = some u from hu).symm.trans hj
        exact hstate hstored
      refine hurgent.trans ((Ev.worksAt_updTool _ hne _).trans ((Ev.worksAt_updPos _ ?_ ?_).trans (Ev.worksAt_leaveWaiting _)))
      · rfl
      · rfl
    · refine hurgent.trans (.trans (Ev.worksAt_updPos _ ?_ ?_) (.trans (Ev.worksAt_joinWaiting _) (Ev.worksAt_notify _ _ _)))
      · rfl
      · rfl
  · exact .refl e

theorem Position.finding_rack (d : DueCause) (p : Position) :
    (p.finding d).rack = p.rack ∧ (p.finding d).suspended = p.suspended := by
  unfold Position.finding
  split <;> exact ⟨rfl, rfl⟩

/-- The triggers of a mounted tool leave every other tool that is not STORED. -/
theorem Ev.worksAt_evalTriggers (hj : e.st.tool j = some v) (hstored : v.state ≠ .stored) (hmounted : v.state ≠ .mounted) :
    Ev.WorksAt x j e (e.evalTriggers x) := by
  unfold Ev.evalTriggers
  split
  · exact .refl e
  · next i u hu =>
    dsimp only
    obtain ⟨-, hi, hstate⟩ := (mountedTool_iff _ _ _ _).mp hu
    have hne : i ≠ j := by
      rintro rfl
      cases hi.symm.trans hj
      exact hmounted hstate
    have hstage : ∀ (g : Ev) (p : Prop) [Decidable p], Ev.WorksAt x j e g → Ev.WorksAt x j e (if p then g.needTest x else g) := by
      intro g p _ hg
      split
      · exact hg.trans (Ev.worksAt_needTest (hg.tool.trans hj) hstored)
      · exact hg
    refine hstage _ _ ?_
    split
    · have hworn := (Ev.worksAt_updTool (x := x) e hne fun t => { t with condition := .worn }).trans
        (Ev.worksAt_updPos _ (f := (·.finding .worn)) (Position.finding_rack _ _).1 (Position.finding_rack _ _).2)
      unfold Ev.finding
      dsimp only
      split
      · exact hworn.trans (Ev.worksAt_notify _ _ _)
      · exact hworn
    · exact .refl e

theorem reevaluated_setType (s : State) (k : TypeIx) (r : Option TypeRec) (l : TypeIx) (but : Option EntryIx) (y : PosIx) :
    (s.setType k r).reevaluated l but y = s.reevaluated l but y := by
  unfold State.reevaluated
  rw [State.mountedTool_setType]
  rfl

theorem Ev.reevaluate_idle {k : TypeIx} {but : Option EntryIx} (h : ∀ y, e.st.reevaluated k but y = false) :
    e.reevaluate k but = e := by
  unfold Ev.reevaluate
  generalize allPositions = l
  induction l with
  | nil => rfl
  | cons y l ih =>
    rw [List.foldl_cons, if_neg (by rw [h y]; nofun)]
    exact ih

theorem Ev.arbitrateIfWaited_idle {k : TypeIx} (h : e.st.waitedFor k = false) : e.arbitrateIfWaited k = e :=
  if_neg (by rw [h]; nofun)

/-- A learning update that concerns no position. -/
theorem Ev.worksAt_learn (hj : e.st.tool j = some v) {but : Option EntryIx}
    (hquiet : v.condition = .worn → v.fullHistory = true →
      (∀ y, e.st.reevaluated v.type but y = false) ∧ e.st.waitedFor v.type = false) :
    Ev.WorksAt x j e (e.learnFrom (some j) but) := by
  unfold Ev.learnFrom Ev.learn
  dsimp only
  rw [hj]
  dsimp only
  split
  · exact .refl e
  · next f _ =>
    split
    · next hteaches =>
      simp only [TypeRec.teaches, Bool.and_eq_true, decide_eq_true_eq] at hteaches
      obtain ⟨⟨hworn, hfull⟩, -⟩ := hteaches
      obtain ⟨hnone, hunwaited⟩ := hquiet hworn hfull
      have hset : Ev.WorksAt x j e (e.upd fun s => s.setType v.type (some (f.learn v))) := ⟨id, rfl, rfl, rfl, rfl, rfl, rfl⟩
      have hquiet' : ∀ y, (e.upd fun s => s.setType v.type (some (f.learn v))).st.reevaluated v.type but y = false := fun y =>
        (reevaluated_setType e.st v.type _ v.type but y).trans (hnone y)
      rw [Ev.reevaluate_idle hquiet', Ev.arbitrateIfWaited_idle (e := e.upd fun s => s.setType v.type (some (f.learn v)))
        hunwaited]
      exact hset.trans (Ev.worksAt_notify _ _ _)
    · exact .refl e

/-- The RETURN of an OFFLOADED tool after work at its position (R95, R117). -/
theorem Ev.WorksAt.returnStands {before : State} (h : Ev.WorksAt x j a b) (htouched : a.touched = [x])
    (hx : a.st.present x = true) (hs : (a.st.pos x).suspended = false) (hrack : (a.st.pos x).rack = .entry j)
    (hv : a.st.tool j = some v) (hstate : v.state = .offloaded)
    (hnamed : ∀ q ∈ a.st.standing, q.incoming ≠ some j ∧ q.outgoing ≠ some j) (hroom : a.st.standing.length < 40) :
    ReturnStands x j v.condition (fun k => a.st.pocket k = .free) (finish before b) := by
  rw [← h.pocket]
  exact returnStands_finish (h.touched htouched) (by rw [h.present]; exact hx) (h.suspended.trans hs) (h.rack.trans hrack)
    (h.tool.trans hv) hstate (by rw [h.standing]; exact hnamed) (hasRoom_of_length (by rw [h.standing]; exact hroom))

end

end Sys2Proof.Machine

/-! PROOFS. DONE of an EXCHANGE, a DIRECT and a REMOVE (R79, R127). -/
namespace Sys2Proof.Machine

/-! ## A learning update that concerns no other position -/

theorem reevaluated_iff (s : State) (k : TypeIx) (but : Option EntryIx) (y : PosIx) : s.reevaluated k but y = true →
    ∃ l u, s.mountedTool y = some (l, u) ∧ u.type = k ∧ but ≠ some l := by
  unfold State.reevaluated
  cases s.mountedTool y with
  | none => simp
  | some m =>
    obtain ⟨l, u⟩ := m
    simp only [Bool.and_eq_true, decide_eq_true_eq]
    exact fun ⟨_, htype, hbut⟩ => ⟨l, u, rfl, htype, hbut⟩

/-- A learning update that concerns no position but `x` touches none when the tool at `x` is the new one or none. -/
theorem ConcernsOnly.quiet {s a : State} {x : PosIx} {k : TypeIx} {but : Option EntryIx} (h : ConcernsOnly s x k)
    (hx : ∀ l u, a.mountedTool x = some (l, u) → but = some l) (hpos : ∀ y, y ≠ x → a.pos y = s.pos y)
    (hrequired : (a.pos x).required = (s.pos x).required)
    (htool : ∀ l u, but ≠ some l → a.tool l = some u → u.state = .mounted → s.tool l = some u)
    (hwaiting : ∀ y ∈ a.ret.waiting, y ∈ s.ret.waiting) :
    (∀ y, a.reevaluated k but y = false) ∧ a.waitedFor k = false := by
  obtain ⟨hmounted, hunwaited⟩ := h
  refine ⟨fun y => Bool.eq_false_iff.mpr fun hy => ?_, Bool.eq_false_iff.mpr fun hw => ?_⟩
  · obtain ⟨l, u, hm, htype, hbut⟩ := reevaluated_iff a k but y hy
    by_cases hyx : y = x
    · exact hbut (hx l u (hyx ▸ hm))
    · obtain ⟨hfield, hl, hstate⟩ := (mountedTool_iff _ _ _ _).mp hm
      exact hmounted y hyx l u ((mountedTool_iff _ _ _ _).mpr ⟨hpos y hyx ▸ hfield, htool l u hbut hl hstate, hstate⟩) htype
  · obtain ⟨y, hy, hk⟩ := List.any_eq_true.mp hw
    rw [decide_eq_true_eq] at hk
    refine hunwaited y (hwaiting y hy) ?_
    by_cases hyx : y = x
    · subst hyx
      exact hrequired ▸ hk
    · exact hpos y hyx ▸ hk

/-! ## DONE of a REMOVE (R127) -/

section
variable {s : State} {o : Order} {j : EntryIx} {v : Tool}

/-- The event of a REMOVE as far as the vacated position. -/
def Ev.removed (o : Order) (s : State) : Ev :=
  (((Ev.start s).upd (·.retire o.number)).offloadOutgoing o).updPos o.pos fun p => p.vacate.clearCounts

theorem Ev.done_remove (hkind : o.kind = .remove) : ((Ev.start s).upd (·.retire o.number)).done o =
    ((Ev.removed o s).learnFrom o.outgoing none).needTest o.pos := by
  unfold Ev.done
  rw [hkind]
  rfl

/-- The state after a REMOVE but for what follows, as the spec says it. -/
def State.removeDone (s : State) (o : Order) (j : EntryIx) (v : Tool) : State :=
  ((s.retire o.number).setTool j (some { v with state := .offloaded, place := .rack o.pos })).setPos o.pos { s.pos o.pos with
    service := .vacant
    mounted := .bare
    rack := .entry j
    dueCause := none
    holdCause := none
    resume := none
    failed := 0
    retryCount := 0 }

theorem Ev.st_removed (hj : o.outgoing = some j) (hv : s.tool j = some v) : (Ev.removed o s).st = s.removeDone o j v := by
  unfold Ev.removed Ev.offloadOutgoing State.removeDone
  rw [hj]
  simp [State.tool_retire, State.pos_retire, hv, Tool.put, Position.setRack, Position.vacate, Position.clearCounts]

theorem Ev.touched_offloaded {e : Ev} {n : Nat} (hj : o.outgoing = some j) (htouched : e.touched = [])
    (hrack : (e.st.pos o.pos).rack = .booked n) : (e.offloadOutgoing o).touched = [o.pos] := by
  unfold Ev.offloadOutgoing
  rw [hj]
  exact Ev.touched_updPos_first (e := e.updTool j _) htouched (by simp [Position.sameForHandOff, Position.setRack, hrack])

theorem touched_removed (hj : o.outgoing = some j) (hrack : (s.pos o.pos).rack = .booked o.number) :
    (Ev.removed o s).touched = [o.pos] :=
  Ev.touched_updPos_single (Ev.touched_offloaded (e := (Ev.start s).upd (·.retire o.number)) (n := o.number) hj rfl
    (by rw [← hrack]; exact congrArg Position.rack (congrFun (State.pos_retire s o.number) o.pos))) _

end

/-- Settles O23. -/
theorem doneRemoveVacates : Obligations.DoneRemoveVacates := by
  intro o j v s hl hbusy hn hx hkind hj hv x m
  set e := Ev.removed o s with he
  have hst : e.st = m := Ev.st_removed hj hv
  have hdone : ((Ev.start s).upd (·.retire o.number)).done o = (e.learnFrom (some j) none).needTest x := by
    rw [Ev.done_remove hkind, hj]
  have hresult : retiredResult o = be 2 o.number ++ [4] := by
    rw [retiredResult, hkind]
    rfl
  obtain ⟨hexec, hsettles⟩ := done_settles (m := learned (some j) none m) hl hbusy hn hx (by
    rw [hdone, ← hst]
    exact (Ev.follows_learnFrom (some j) none e).trans (Ev.follows_needTest x _))
  rw [← hresult]
  refine ⟨_, hexec, hsettles, fun hactive hrack hlaw hnamed hconcerns => ?_⟩
  have htool : ∀ l, m.tool l = if j = l then some { v with state := .offloaded, place := .rack x } else s.tool l := fun l => by
    simp [m, State.tool_retire]
  have hpos : ∀ y, m.pos y = if x = y then m.pos x else s.pos y := fun y => by
    show (State.setPos _ x _).pos y = _
    rw [State.pos_setPos]
    split
    · simp [m]
    · exact congrFun (State.pos_retire s o.number) y
  have hposx : (m.pos x).mounted = .bare ∧ (m.pos x).rack = .entry j ∧ (m.pos x).suspended = (s.pos x).suspended ∧
      (m.pos x).required = (s.pos x).required := by simp [m]
  obtain ⟨hmounted, hracked, hsuspended, hrequired⟩ := hposx
  have hvj : e.st.tool j = some { v with state := .offloaded, place := .rack x } := by rw [hst, htool, if_pos rfl]
  have hworks : Ev.WorksAt x j e ((e.learnFrom (some j) none).needTest x) := by
    have hlearn := Ev.worksAt_learn (x := x) (but := none) hvj fun hworn hfull => by
      rw [hst]
      refine (hconcerns hworn hfull).quiet (fun l u hm => ?_) (fun y hy => ?_) hrequired (fun l u _ hlu hmount => ?_) fun y hy => ?_
      · rw [((mountedTool_iff _ _ _ _).mp hm).1] at hmounted
        cases hmounted
      · rw [hpos, if_neg (Ne.symm hy)]
      · rw [htool] at hlu
        split at hlu
        · cases hlu
          cases hmount
        · exact hlu
      · exact (State.waiting_retire s o.number) ▸ hy
    exact hlearn.trans (Ev.worksAt_needTest (hlearn.tool.trans hvj) nofun)
  have hfree : (fun k => e.st.pocket k = .free) = fun k => s.pocket k = .free := by
    rw [hst]
    funext k
    exact congrArg (· = Pocket.free) (congrFun (State.pocket_retire s o.number) k)
  rw [← hfree]
  have hevent : doneEvent o s = finish s ((e.learnFrom (some j) none).needTest x) := congrArg (finish s) hdone
  rw [hevent]
  refine hworks.returnStands (v := { v with state := .offloaded, place := .rack x }) (touched_removed hj hrack) ?_ ?_ ?_ hvj rfl ?_ ?_
  · rw [hst]
    exact (congrFun (State.present_retire s o.number) x).trans hx
  · rw [hst]
    exact hsuspended.trans hactive
  · rw [hst]
    exact hracked
  · rw [hst]
    exact hnamed.retire hlaw
  · rw [hst]
    exact hasRoom_retire hbusy hlaw.length_standing

/-! ## DONE of an EXCHANGE or a DIRECT (R127) -/

section
variable {s : State} {o : Order} {i : EntryIx} {w : Tool}

/-- The event of an EXCHANGE or DIRECT that brings tool `i`, as far as the notice EXCHANGED. -/
def Ev.exchanged (o : Order) (i : EntryIx) (s : State) : Ev :=
  (((((((Ev.start s).upd (·.retire o.number)).updTool i (·.mount o.pos)).offloadOutgoing o).freePocket o.pocket).updPos o.pos
    fun p => (p.serve i).clearCounts).clearNeed o.pos).notifySlot o.pos .exchanged

theorem Ev.done_exchange (hkind : o.kind = .exchange ∨ o.kind = .direct) (hi : o.incoming = some i) :
    ((Ev.start s).upd (·.retire o.number)).done o =
      (((Ev.exchanged o i s).learnFrom o.outgoing (some i)).evalTriggers o.pos).needTest o.pos := by
  unfold Ev.done
  rw [hi]
  obtain h | h := hkind <;> rw [h] <;> rfl

/-- The state after an EXCHANGE or DIRECT but for what follows, as the spec says it. -/
def State.exchangeDone (s : State) (o : Order) (i : EntryIx) (w : Tool) : State :=
  let x := o.pos
  let u := (s.retire o.number).setTool i (some { w with
    state := .mounted, place := .spindle x, promised := none, peakAE := 0, peakPower := 0 })
  let u := o.outgoing.elim u fun j =>
    u.setTool j ((s.tool j).map fun v => { v with state := .offloaded, place := .rack x })
  let u := o.pocket.elim u fun k => u.setPocket k .free
  (u.setPos x { s.pos x with
    service := .serving
    mounted := .entry i
    rack := o.outgoing.elim .bare .entry
    dueCause := none
    holdCause := none
    resume := none
    need := .noNeed
    sister := none
    urgent := false
    failed := 0
    retryCount := 0 }).notifySlot x .exchanged

theorem Ev.st_exchanged (hw : s.tool i = some w) (hne : ∀ j, o.outgoing = some j → i ≠ j) :
    (Ev.exchanged o i s).st = (s.exchangeDone o i w).unlist o.pos := by
  unfold Ev.exchanged State.exchangeDone Ev.clearNeed Ev.offloadOutgoing Ev.freePocket
  cases hj : o.outgoing with
  | none => cases o.pocket <;> simp [State.tool_retire, State.pos_retire, hw, Tool.mount, Position.setRack, Position.serve,
      Position.clearCounts, Position.noNeed]
  | some j =>
    have hij := hne j hj
    cases o.pocket <;> simp [State.tool_retire, State.pos_retire, hw, hij, Tool.mount, Tool.put, Position.setRack,
      Position.serve, Position.clearCounts, Position.noNeed]

theorem touched_exchanged {j : EntryIx} (hj : o.outgoing = some j) (hrack : (s.pos o.pos).rack = .booked o.number) :
    (Ev.exchanged o i s).touched = [o.pos] := by
  have hoffloaded : ((((Ev.start s).upd (·.retire o.number)).updTool i (·.mount o.pos)).offloadOutgoing o).touched = [o.pos] :=
    Ev.touched_offloaded (n := o.number) hj rfl
      (by rw [← hrack]; exact congrArg Position.rack (congrFun (State.pos_retire s o.number) o.pos))
  have hfreed : (((((Ev.start s).upd (·.retire o.number)).updTool i (·.mount o.pos)).offloadOutgoing o).freePocket
      o.pocket).touched = [o.pos] := by
    unfold Ev.freePocket
    split
    · exact hoffloaded
    · exact hoffloaded
  exact Ev.touched_updPos_single (Ev.touched_updPos_single hfreed _) _

theorem pos_exchangeDone (s : State) (o : Order) (i : EntryIx) (w : Tool) (y : PosIx) : (s.exchangeDone o i w).pos y =
    if o.pos = y then { s.pos o.pos with
      service := .serving
      mounted := .entry i
      rack := o.outgoing.elim .bare .entry
      dueCause := none
      holdCause := none
      resume := none
      need := .noNeed
      sister := none
      urgent := false
      failed := 0
      retryCount := 0 } else s.pos y := by
  unfold State.exchangeDone
  cases o.pocket <;> cases o.outgoing <;> simp [State.pos_retire]

theorem tool_exchangeDone {j : EntryIx} {v : Tool} (hj : o.outgoing = some j) (hv : s.tool j = some v) (w : Tool) (l : EntryIx) :
    (s.exchangeDone o i w).tool l = if j = l then some { v with state := .offloaded, place := .rack o.pos }
      else if i = l then some { w with
        state := .mounted, place := .spindle o.pos, promised := none, peakAE := 0, peakPower := 0 }
      else s.tool l := by
  unfold State.exchangeDone
  rw [hj]
  cases o.pocket <;> simp [State.tool_retire, hv]

theorem lists_exchangeDone (s : State) (o : Order) (i : EntryIx) (w : Tool) :
    (s.exchangeDone o i w).ret.waiting = s.ret.waiting ∧ (s.exchangeDone o i w).standing = (s.retire o.number).standing ∧
      (s.exchangeDone o i w).present = s.present := by
  unfold State.exchangeDone State.standing
  cases o.pocket <;> cases o.outgoing <;> simp [State.waiting_retire, State.present_retire]

theorem pocket_exchangeDone (s : State) (o : Order) (i : EntryIx) (w : Tool) (k : PocketIx) :
    (s.exchangeDone o i w).pocket k = .free ↔ s.pocket k = .free ∨ o.pocket = some k := by
  unfold State.exchangeDone
  cases o.pocket with
  | none => cases o.outgoing <;> simp [State.pocket_retire]
  | some l =>
    have hpocket : ∀ v, (if l = k then Pocket.free else v) = .free ↔ v = .free ∨ some l = some k := fun v => by
      split <;> simp_all
    cases o.outgoing <;> simp only [Option.elim_some, Option.elim_none, State.pocket_notifySlot, State.pocket_setPos,
      State.pocket_setPocket, State.pocket_setTool, State.pocket_retire, hpocket]

end

/-- Settles O22. -/
theorem doneExchangeMounts : Obligations.DoneExchangeMounts := by
  intro o i w s hl hbusy hshaped hx hkind hi hw x u₀ u₁ u₂ m
  have hm : m = s.exchangeDone o i w := rfl
  have hne : ∀ j, o.outgoing = some j → i ≠ j := fun j hj hij =>
    hshaped.distinct.elim (fun h => by rw [hi] at h; cases h) fun h => h (by rw [hi, hj, hij])
  set e := Ev.exchanged o i s with he
  have hst : e.st = m.unlist x := Ev.st_exchanged hw hne
  have hdone : ((Ev.start s).upd (·.retire o.number)).done o =
      ((e.learnFrom o.outgoing (some i)).evalTriggers x).needTest x := Ev.done_exchange hkind hi
  have hresult : retiredResult o = be 2 o.number ++ [if o.kind = .exchange then 2 else 3] := by
    unfold retiredResult
    obtain h | h := hkind <;> rw [h] <;> rfl
  have hlearned : Follows (learned o.outgoing (some i) m) (e.learnFrom o.outgoing (some i)).st := by
    refine Follows.trans ?_ (Ev.follows_learnFrom o.outgoing (some i) e)
    rw [hst]
    exact (Follows.unlist m x).learned_congr (fun _ _ => rfl) (some i)
  obtain ⟨hexec, hsettles⟩ := done_settles (m := wearAt x (learned o.outgoing (some i) m)) hl hbusy hshaped.number hx (by
    rw [hdone]
    exact ((hlearned.wearAt_congr x).trans (Ev.follows_evalTriggers x _)).trans (Ev.follows_needTest x _))
  rw [← hresult]
  refine ⟨_, hexec, hsettles, fun j v hj hv hactive hrack hlaw hnamed hconcerns => ?_⟩
  have htool := tool_exchangeDone (i := i) hj hv w
  obtain ⟨hwaiting, hstanding, hpresent⟩ := lists_exchangeDone s o i w
  have hposx := pos_exchangeDone s o i w x
  rw [if_pos rfl, hj] at hposx
  have hvj : e.st.tool j = some { v with state := .offloaded, place := .rack x } := by
    rw [hst]
    exact (htool j).trans (if_pos rfl)
  have hworks : Ev.WorksAt x j e (((e.learnFrom (some j) (some i)).evalTriggers x).needTest x) := by
    have hlearn := Ev.worksAt_learn (x := x) (but := some i) hvj fun hworn hfull => by
      rw [hst]
      refine (hconcerns hworn hfull).quiet (fun l u hmt => ?_) (fun y hy => ?_) ?_ (fun l u hbut hlu hmount => ?_) fun y hy => ?_
      · have hmounted := ((mountedTool_iff _ _ _ _).mp hmt).1
        rw [State.pos_unlist, hm, hposx] at hmounted
        cases hmounted
        rfl
      · exact (pos_exchangeDone s o i w y).trans (if_neg (Ne.symm hy))
      · rw [State.pos_unlist, hm, hposx]
      · rw [State.tool_unlist, hm, htool] at hlu
        split at hlu
        · cases hlu
          cases hmount
        · split at hlu
          · next hil => exact absurd (congrArg some hil) hbut
          · exact hlu
      · exact hwaiting ▸ (List.mem_filter.mp hy).1
    have htriggers := hlearn.trans (Ev.worksAt_evalTriggers (hlearn.tool.trans hvj) nofun nofun)
    exact htriggers.trans (Ev.worksAt_needTest (htriggers.tool.trans hvj) nofun)
  have hfree : (fun k => e.st.pocket k = .free) = fun k => s.pocket k = .free ∨ o.pocket = some k := by
    rw [hst]
    exact funext fun k => propext (pocket_exchangeDone s o i w k)
  have hevent : doneEvent o s = finish s (((e.learnFrom (some j) (some i)).evalTriggers x).needTest x) := by
    rw [← hj]
    exact congrArg (finish s) hdone
  rw [← hfree, hevent]
  refine hworks.returnStands (v := { v with state := .offloaded, place := .rack x }) (touched_exchanged hj hrack) ?_ ?_ ?_ hvj
    rfl ?_ ?_
  · rw [hst]
    exact (congrFun hpresent x).trans hx
  · rw [hst]
    exact (congrArg Position.suspended hposx).trans hactive
  · rw [hst]
    exact congrArg Position.rack hposx
  · rw [hst]
    intro q hq
    exact hnamed.retire hlaw q (hstanding ▸ hq)
  · rw [hst]
    exact (congrArg List.length hstanding).trans_lt (hasRoom_retire hbusy hlaw.length_standing)

end Sys2Proof.Machine

/-! PROOFS. FAIL (R129 to R131) and the expiry of the swap deadline (R133). -/
namespace Sys2Proof.Machine

theorem State.setTool_comm (s : State) {i j : EntryIx} (h : i ≠ j) (a b : Option Tool) :
    (s.setTool i a).setTool j b = (s.setTool j b).setTool i a := by
  have hval : i.val ≠ j.val := fun he => h (Fin.ext he)
  unfold State.setTool
  simp [Vector.set_comm _ _ hval]

/-! ## The tools and places of an order go back

By the kind of the order; a sister that goes back RESERVED to its pocket takes its position off the waiting list. -/

/-- The event of a FAIL as far as the tools and places of its order. -/
def Ev.putBack (o : Order) (missing : Option EntryIx) (s : State) : Ev :=
  ((Ev.start s).upd (·.retire o.number)).failMoves o missing

/-- The moves of a FAIL are those that the spec gives, and only a RESERVED sister takes its position off the waiting list. -/
def Order.PutsBack (o : Order) (missing : Option EntryIx) (s : State) : Prop :=
  (Ev.putBack o missing s).st = restored o missing s ∨
    (Ev.putBack o missing s).st = (restored o missing s).unlist o.pos ∧
      ∃ i u, o.incoming = some i ∧ missing ≠ some i ∧ (restored o missing s).tool i = some u ∧ u.state = .reserved

theorem some_eq_comm {α : Type} (m : Option α) (a : α) : some a = m ↔ m = some a := eq_comm

section
variable {s : State} {o : Order} {i j : EntryIx} {k : PocketIx} {w v : Tool}

theorem Ev.st_failStage (hkind : o.kind = .stage) (hi : o.incoming = some i) (hj : o.outgoing = none) (hk : o.pocket = some k)
    (hw : s.tool i = some w) (missing : Option EntryIx) :
    (Ev.putBack o missing s).st =
      if w.promised = some o.pos ∧ missing ≠ some i then (restored o missing s).unlist o.pos else restored o missing s := by
  unfold Ev.putBack Ev.failMoves Ev.failIncoming Ev.backToPocket restored
  rw [hkind, hi, hj, hk]
  by_cases hp : w.promised = some o.pos <;> by_cases hm : missing = some i <;>
    simp [some_eq_comm missing, hw, hp, hm, State.tool_retire, State.pos_retire, OrderKind.booksRackAtPosting,
      OrderKind.spindle, Position.setRack, State.promisedTo, Tool.put, Tool.lose, lost, Position.progress]

theorem Ev.st_failDirect (hkind : o.kind = .direct) (hi : o.incoming = some i) (hj : o.outgoing = some j)
    (hk : o.pocket = some k) (hw : s.tool i = some w) (hv : s.tool j = some v) (hij : i ≠ j) (missing : Option EntryIx) :
    (Ev.putBack o missing s).st =
      if w.promised = some o.pos ∧ missing ≠ some i then (restored o missing s).unlist o.pos else restored o missing s := by
  unfold Ev.putBack Ev.failMoves Ev.failSpindle Ev.failIncoming Ev.backToPocket restored
  rw [hkind, hi, hj, hk]
  by_cases hp : w.promised = some o.pos <;> by_cases hm : missing = some i <;> by_cases hn : missing = some j <;>
    simp [some_eq_comm missing, hw, hv, hij, hij.symm, hp, hm, hn, State.tool_retire, State.pos_retire,
      OrderKind.booksRackAtPosting, OrderKind.spindle, Position.setRack, State.promisedTo, Tool.put, Tool.lose, lost,
      Position.progress, Position.vacate, Position.giveBack, State.setTool_comm _ hij]

theorem Ev.st_failExchange (hkind : o.kind = .exchange) (hi : o.incoming = some i) (hk : o.pocket = none)
    (hw : s.tool i = some w) (hj : ∀ j, o.outgoing = some j → i ≠ j ∧ (s.tool j).isSome = true) (missing : Option EntryIx) :
    (Ev.putBack o missing s).st = restored o missing s := by
  unfold Ev.putBack Ev.failMoves Ev.failSpindle Ev.failIncoming Ev.backToRack restored
  rw [hkind, hi, hk]
  cases ho : o.outgoing with
  | none =>
    by_cases hp : w.promised = some o.pos <;> by_cases hm : missing = some i <;>
      simp [some_eq_comm missing, hw, hp, hm, State.tool_retire, State.pos_retire, OrderKind.booksRackAtPosting,
        OrderKind.spindle, Position.setRack, State.promisedTo, Tool.put, Tool.lose, lost, Position.vacate]
  | some j =>
    obtain ⟨hij, hlive⟩ := hj j ho
    obtain ⟨v, hv⟩ := Option.isSome_iff_exists.mp hlive
    by_cases hp : w.promised = some o.pos <;> by_cases hm : missing = some i <;> by_cases hn : missing = some j <;>
      simp [some_eq_comm missing, hw, hv, hij, hij.symm, hp, hm, hn, State.tool_retire, State.pos_retire,
        OrderKind.booksRackAtPosting, OrderKind.spindle, Position.setRack, State.promisedTo, Tool.put, Tool.lose, lost,
        Position.vacate, Position.giveBack, State.setTool_comm _ hij]

theorem Ev.st_failRemove (hkind : o.kind = .remove) (hi : o.incoming = none) (hj : o.outgoing = some j) (hk : o.pocket = none)
    (hv : s.tool j = some v) (missing : Option EntryIx) :
    (Ev.putBack o missing s).st = restored o missing s := by
  unfold Ev.putBack Ev.failMoves Ev.failSpindle Ev.failIncoming restored
  rw [hkind, hi, hj, hk]
  by_cases hn : missing = some j <;>
    simp [some_eq_comm missing, hv, hn, State.tool_retire, State.pos_retire, OrderKind.booksRackAtPosting,
      OrderKind.spindle, Position.setRack, Tool.put, Tool.lose, lost, Position.vacate, Position.giveBack]

theorem Ev.st_failReturn (hkind : o.kind = .return_) (hi : o.incoming = none) (hj : o.outgoing = some j)
    (hv : s.tool j = some v) (missing : Option EntryIx) :
    (Ev.putBack o missing s).st = restored o missing s := by
  unfold Ev.putBack Ev.failMoves Ev.failReturn Ev.freePocket restored
  rw [hkind, hi, hj]
  by_cases hn : missing = some j <;> cases o.pocket <;>
    simp [some_eq_comm missing, hv, hn, State.tool_retire, State.pos_retire, Position.setRack, Tool.put, Tool.lose, lost]

/-- The sister of a STAGE or DIRECT that is still promised is RESERVED after the FAIL. -/
theorem tool_restored (hkind : o.kind = .stage ∨ o.kind = .direct) (hi : o.incoming = some i) (hk : o.pocket = some k)
    (hw : s.tool i = some w) (hp : w.promised = some o.pos) (hne : o.outgoing ≠ some i) {missing : Option EntryIx}
    (hm : missing ≠ some i) :
    ∃ u, (restored o missing s).tool i = some u ∧ u.state = .reserved := by
  have hexchange : o.kind ≠ .exchange := by obtain h | h := hkind <;> rw [h] <;> nofun
  refine ⟨{ w with state := .reserved, place := .pocket k }, ?_, rfl⟩
  unfold restored
  rw [hi, hk]
  cases hj : o.outgoing with
  | none => simp [some_eq_comm missing, hw, hp, hm, hexchange, State.tool_retire]
  | some j =>
    have hij : j ≠ i := fun h => hne (hj.trans (congrArg some h))
    simp [some_eq_comm missing, hw, hp, hm, hij, hexchange, State.tool_retire]

theorem Order.Shaped.putsBack (h : o.Shaped s) (missing : Option EntryIx) : o.PutsBack missing s := by
  have hlive : ∀ l, o.incoming = some l ∨ o.outgoing = some l → ∃ t, s.tool l = some t :=
    fun l hl => Option.isSome_iff_exists.mp (h.live l hl)
  have hnoIncoming : ¬(o.kind = .stage ∨ o.kind = .exchange ∨ o.kind = .direct) → o.incoming = none := fun hn => by
    rw [h.incoming] at hn
    simpa using hn
  have hdistinct : ∀ l, o.incoming = some l → o.outgoing ≠ some l := fun l hl hout =>
    h.distinct.elim (fun hn => by rw [hl] at hn; cases hn) fun hn => hn (hl.trans hout.symm)
  have hcarried : ∀ l k u, (o.kind = .stage ∨ o.kind = .direct) → o.incoming = some l → o.pocket = some k → s.tool l = some u →
      (Ev.putBack o missing s).st = (if u.promised = some o.pos ∧ missing ≠ some l
        then (restored o missing s).unlist o.pos else restored o missing s) → o.PutsBack missing s := by
    intro l k u hkind hl hk hu hst
    by_cases hp : u.promised = some o.pos ∧ missing ≠ some l
    · rw [if_pos hp] at hst
      obtain ⟨t, ht, hreserved⟩ := tool_restored hkind hl hk hu hp.1 (hdistinct l hl) hp.2
      exact .inr ⟨hst, l, t, hl, hp.2, ht, hreserved⟩
    · rw [if_neg hp] at hst
      exact .inl hst
  cases hkind : o.kind with
  | stage =>
    obtain ⟨l, hl⟩ := Option.isSome_iff_exists.mp (h.incoming.mp (.inl hkind))
    obtain ⟨k, hk⟩ := Option.isSome_iff_exists.mp (h.pocket (.inl hkind))
    obtain ⟨u, hu⟩ := hlive l (.inl hl)
    exact hcarried l k u (.inl hkind) hl hk hu (Ev.st_failStage hkind hl (h.staged hkind) hk hu missing)
  | direct =>
    obtain ⟨l, hl⟩ := Option.isSome_iff_exists.mp (h.incoming.mp (.inr (.inr hkind)))
    obtain ⟨k, hk⟩ := Option.isSome_iff_exists.mp (h.pocket (.inr hkind))
    obtain ⟨m, hm⟩ := Option.isSome_iff_exists.mp (h.outgoing (.inl hkind))
    obtain ⟨u, hu⟩ := hlive l (.inl hl)
    obtain ⟨t, ht⟩ := hlive m (.inr hm)
    have hlm : l ≠ m := fun he => hdistinct l hl (he ▸ hm)
    exact hcarried l k u (.inr hkind) hl hk hu (Ev.st_failDirect hkind hl hm hk hu ht hlm missing)
  | exchange =>
    obtain ⟨l, hl⟩ := Option.isSome_iff_exists.mp (h.incoming.mp (.inr (.inl hkind)))
    obtain ⟨u, hu⟩ := hlive l (.inl hl)
    exact .inl (Ev.st_failExchange hkind hl (h.noPocket (.inl hkind)) hu
      (fun m hm => ⟨fun he => hdistinct l hl (he ▸ hm), h.live m (.inr hm)⟩) missing)
  | remove =>
    obtain ⟨m, hm⟩ := Option.isSome_iff_exists.mp (h.outgoing (.inr (.inl hkind)))
    obtain ⟨t, ht⟩ := hlive m (.inr hm)
    exact .inl (Ev.st_failRemove hkind (hnoIncoming (by rw [hkind]; nofun)) hm (h.noPocket (.inr hkind)) ht missing)
  | return_ =>
    obtain ⟨m, hm⟩ := Option.isSome_iff_exists.mp (h.outgoing (.inr (.inr hkind)))
    obtain ⟨t, ht⟩ := hlive m (.inr hm)
    exact .inl (Ev.st_failReturn hkind (hnoIncoming (by rw [hkind]; nofun)) hm ht missing)

end

/-! ## FAIL -/

section
variable {s m : State} {o : Order} {missing : Option EntryIx} {reason entry : Nat} {r : FailReason}

theorem failBody_reported (hr : reasonOperand reason = some r) (h : s.busyOrder = some o) (hn : o.number ≠ 0)
    (hx : s.present o.pos = true) (hmissing : missingOperand o r entry = some missing) :
    failBody o.number reason entry s = .ok (failEvent o missing s, retiredResult o) := by
  have hreported : s.reported o.number = some o := by
    unfold State.reported
    rw [h]
    exact if_pos ⟨rfl, hx⟩
  unfold failBody
  rw [hr]
  dsimp only
  rw [if_neg hn, hreported]
  dsimp only
  rw [hmissing]

/-- An accepted FAIL settles to what it does before the need test. -/
theorem fail_settles (hl : s.listening .pc = true) (hr : reasonOperand reason = some r) (h : s.busyOrder = some o)
    (hn : o.number ≠ 0) (hx : s.present o.pos = true) (hmissing : missingOperand o r entry = some missing)
    (hm : Follows m (((Ev.putBack o missing s).failSister o missing).failReport o missing).st) :
    ∃ t : State, exec (.failOrder .pc o.number reason entry) s =
        .next (t.answer .pc ⟨18, .accepted, be 2 o.number ++ [byte o.kind.num]⟩) ∧ Settles m t := by
  refine ⟨failEvent o missing s, ?_, settles_finish (hm.trans ?_)⟩
  · show serve .pc 18 (failBody o.number reason entry s) s = _
    rw [failBody_reported hr h hn hx hmissing, serve_accepted hl]
    rfl
  · show Follows _ (Ev.failNeed o _).st
    unfold Ev.failNeed
    split
    · exact Ev.follows_needTest o.pos _
    · exact .refl _

theorem Ev.offerTool_st_congr {e e' : Ev} (h : e.st = e'.st) (i : EntryIx) : (e.offerTool i).st = (e'.offerTool i).st := by
  unfold Ev.offerTool
  rw [h]
  split
  · split
    · unfold Ev.arbitrate
      exact Ev.arbitrateLoop_st_eq h (h ▸ le_rfl) (h ▸ le_rfl)
    · exact h
  · exact h

/-- A tool that is not STORED is not offered. -/
theorem Ev.offerTool_idle {e : Ev} {i : EntryIx} {u : Tool} (hu : e.st.tool i = some u) (hstate : u.state ≠ .stored) :
    e.offerTool i = e := by
  unfold Ev.offerTool
  rw [hu]
  refine if_neg fun h => ?_
  obtain ⟨w, hw, -, hstored, -⟩ := (eligible_iff _ _ _).mp h
  cases hu.symm.trans hw
  exact hstate hstored

theorem pos_restored (o : Order) (missing : Option EntryIx) (s : State) :
    ((restored o missing s).pos o.pos).failed = (s.pos o.pos).failed ∧
      ((restored o missing s).pos o.pos).sister = (s.pos o.pos).sister := by
  unfold restored
  dsimp only
  rw [State.pos_setPos, if_pos rfl]
  split
  · split <;> exact ⟨rfl, rfl⟩
  · exact ⟨rfl, rfl⟩

/-- The count of a FAIL with GRIP or BLOCKED, as the spec says it (R130). -/
def State.failureCounted (v : State) (x : PosIx) : State :=
  if (v.pos x).failed = 1 then (v.setPos x { v.pos x with failed := 2, suspended := true }).notify .ps .suspended
  else v.setPos x { v.pos x with failed := min 2 ((v.pos x).failed + 1) }

theorem Ev.st_countFailure (x : PosIx) (e : Ev) : (e.countFailure x).st = e.st.failureCounted x := by
  unfold Ev.countFailure State.failureCounted
  dsimp only
  split <;> rfl

theorem failureCounted_unlist (v : State) (x y : PosIx) : (v.unlist y).failureCounted x = (v.failureCounted x).unlist y := by
  unfold State.failureCounted
  rw [State.pos_unlist]
  split <;> simp

/-- The sister of a FAIL with GRIP or BLOCKED, offered where it is STORED again. -/
theorem Ev.st_failSister (h : o.Shaped s) :
    let v := (o.incoming.elim (Ev.start (restored o none s)) fun i => (Ev.start (restored o none s)).offerTool i).st
    ((Ev.putBack o none s).failSister o none).st = v ∨ ((Ev.putBack o none s).failSister o none).st = v.unlist o.pos := by
  obtain hst | ⟨hst, i, u, hi, -, hu, hstate⟩ := h.putsBack none
  · refine .inl ?_
    unfold Ev.failSister
    cases o.incoming with
    | none => exact hst
    | some i => exact Ev.offerTool_st_congr hst i
  · refine .inr ?_
    have hnot : u.state ≠ .stored := by rw [hstate]; nofun
    unfold Ev.failSister
    rw [hi, Option.elim_some, Ev.offerTool_idle hu hnot]
    show ((Ev.putBack o none s).offerTool i).st = _
    rw [Ev.offerTool_idle (hst ▸ hu) hnot, hst]
    rfl

end

/-- Settles O25. -/
theorem failPutsBack : Obligations.FailPutsBack := by
  intro o reason entry s hl hbusy hshaped hx hreason x u v p m
  obtain ⟨r, hr, hgrip⟩ : ∃ r, reasonOperand reason = some r ∧ (r = .grip ∨ r = .blocked) := by
    obtain rfl | rfl := hreason
    · exact ⟨.grip, rfl, .inl rfl⟩
    · exact ⟨.blocked, rfl, .inr rfl⟩
  have hmissing : missingOperand o r entry = some none := by obtain rfl | rfl := hgrip <;> rfl
  have hoffered : Follows u v := by
    show Follows u (o.incoming.elim (Ev.start u) fun i => (Ev.start u).offerTool i).st
    cases o.incoming with
    | none => exact .refl u
    | some i => exact Ev.follows_offerTool i (Ev.start u)
  have hfailed : (v.pos x).failed = (s.pos x).failed :=
    (show (v.pos x).settled.failed = (u.pos x).settled.failed by rw [hoffered.positions x]).trans (pos_restored o none s).1
  have hm : m = v.failureCounted x := by
    unfold State.failureCounted
    rw [hfailed]
    simp only [m, p, hfailed]
  refine fail_settles hl hr hbusy hshaped.number hx hmissing ?_
  show Follows m (Ev.countFailure x _).st
  rw [Ev.st_countFailure, hm]
  obtain h | h := Ev.st_failSister hshaped
  · rw [h]
    exact .refl _
  · rw [h, failureCounted_unlist]
    exact .unlist _ x

/-- Settles O26. -/
theorem failEmptyLosesTool : Obligations.FailEmptyLosesTool := by
  intro o i s hl hbusy hshaped hx hnames x u m
  have hmissing : missingOperand o .empty i.val = some (some i) := by
    have hnamed : o.names i = true := by
      unfold Order.names
      obtain h | h := hnames <;> simp [h]
    unfold missingOperand
    rw [entryOperand_val]
    exact if_pos hnamed
  refine fail_settles hl rfl hbusy hshaped.number hx hmissing ?_
  show Follows _ (Ev.notify .ps .quarantine _).st
  refine Follows.notify_congr ?_ .ps .quarantine
  have hback : Follows u (Ev.putBack o (some i) s).st := by
    obtain h | ⟨h, -⟩ := hshaped.putsBack (some i)
    · rw [h]
      exact .refl u
    · rw [h]
      exact .unlist u x
  by_cases hi : o.incoming = some i
  · have hst : (Ev.putBack o (some i) s).st = u := by
      obtain h | ⟨-, l, -, hl', hne, -⟩ := hshaped.putsBack (some i)
      · exact h
      · exact absurd (hi.symm.trans hl') hne
    have hsister : (u.pos x).sister = (s.pos x).sister := (pos_restored o (some i) s).2
    have hlose : (Ev.putBack o (some i) s).failSister o (some i) = (Ev.putBack o (some i) s).loseSister x i := by
      unfold Ev.failSister
      rw [hi]
      exact if_pos rfl
    rw [hlose]
    refine .cast (Ev.follows_loseSister x i (Ev.putBack o (some i) s)) ?_ rfl
    rw [hst, hsister]
    simp only [m, hi, true_and]
  · have hm : m = u := if_neg fun h => hi h.1
    rw [hm]
    unfold Ev.failSister
    cases hin : o.incoming with
    | none => exact hback
    | some l =>
      have hne : ¬some i = some l := fun h => hi (hin.trans h.symm)
      dsimp only
      rw [if_neg hne]
      exact hback.trans (Ev.follows_offerTool l _)

/-! ## The expiry of the swap deadline (R133) -/

section
variable {s : State} {o : Order}

/-- The notices of an expiry, as the spec gives them. -/
def State.expiryNotices (s : State) (spindle : Bool) : State :=
  if spindle then ((s.notify .pc .expired).notify .ps .quarantine).notify .ps .uncertain
  else (s.notify .pc .expired).notify .ps .quarantine

theorem Ev.st_expireNotices (o : Order) (e : Ev) : (e.expireNotices o).st = e.st.expiryNotices o.kind.spindle := by
  unfold Ev.expireNotices State.expiryNotices
  dsimp only
  split <;> rfl

theorem State.setPos_expiryNotices (s : State) (spindle : Bool) (x : PosIx) (p : Position) :
    (s.expiryNotices spindle).setPos x p = (s.setPos x p).expiryNotices spindle := by
  unfold State.expiryNotices
  split <;> simp

theorem State.pos_expiryNotices (s : State) (spindle : Bool) : (s.expiryNotices spindle).pos = s.pos := by
  unfold State.expiryNotices
  split <;> simp

/-- The expired-number memory is written. -/
def State.withExpired (s : State) (l : List Nat) : State := { s with ret.expired := l }

theorem State.setPos_withExpired (s : State) (l : List Nat) (x : PosIx) (p : Position) :
    (s.withExpired l).setPos x p = (s.setPos x p).withExpired l := rfl

/-- A tool of the order is lost, as the spec says it. -/
def State.toolLost (s : State) (j : Option EntryIx) : State := j.elim s fun i => s.setTool i ((s.tool i).map lost)

theorem Ev.st_loseTool (j : Option EntryIx) (e : Ev) : (e.loseTool j).st = e.st.toolLost j := by cases j <;> rfl

theorem toolLost_ret (s : State) (j : Option EntryIx) : (s.toolLost j).pos = s.pos ∧ (s.toolLost j).pocket = s.pocket ∧
    (s.toolLost j).ret.expired = s.ret.expired := by cases j <;> exact ⟨rfl, rfl, rfl⟩

/-- The tools and the pocket of the order are lost and the order is retired. -/
def State.orderLost (s : State) (o : Order) : State :=
  let u := ((s.retire o.number).toolLost o.incoming).toolLost o.outgoing
  o.pocket.elim u fun k => if s.pocket k = .booked o.number then u.setPocket k .unknown else u

theorem orderLost_ret (s : State) (o : Order) :
    (s.orderLost o).pos = s.pos ∧ (s.orderLost o).ret.expired = s.ret.expired := by
  have hu : (((s.retire o.number).toolLost o.incoming).toolLost o.outgoing).pos = s.pos ∧
      (((s.retire o.number).toolLost o.incoming).toolLost o.outgoing).ret.expired = s.ret.expired :=
    ⟨(toolLost_ret _ _).1.trans ((toolLost_ret _ _).1.trans (State.pos_retire s o.number)),
      (toolLost_ret _ _).2.2.trans ((toolLost_ret _ _).2.2.trans (dropOrder_lists s o.number).1)⟩
  unfold State.orderLost
  cases o.pocket with
  | none => exact hu
  | some k =>
    dsimp only [Option.elim_some]
    split <;> exact hu

/-- The event of an expiry as far as the tools and the pocket. -/
def Ev.orderLost (o : Order) (s : State) : Ev :=
  ((((Ev.start s).upd (·.retire o.number)).loseTool o.incoming).loseTool o.outgoing).losePocket o.number o.pocket

theorem Ev.st_orderLost (o : Order) (s : State) : (Ev.orderLost o s).st = s.orderLost o := by
  have hst : ((((Ev.start s).upd (·.retire o.number)).loseTool o.incoming).loseTool o.outgoing).st =
      ((s.retire o.number).toolLost o.incoming).toolLost o.outgoing := by
    rw [Ev.st_loseTool, Ev.st_loseTool]
    rfl
  have hpocket : (((s.retire o.number).toolLost o.incoming).toolLost o.outgoing).pocket = s.pocket :=
    (toolLost_ret _ _).2.1.trans ((toolLost_ret _ _).2.1.trans (State.pocket_retire s o.number))
  unfold Ev.orderLost Ev.losePocket State.orderLost
  cases o.pocket with
  | none => exact hst
  | some k =>
    dsimp only [Option.elim_some]
    rw [hst, hpocket]
    split
    · show State.setPocket _ k .unknown = _
      rw [hst]
    · exact hst

/-- The event of an expiry but for the need of its sister. -/
def Ev.expired (o : Order) (s : State) : Ev :=
  (((Ev.orderLost o s).updPos o.pos (·.expire o)).upd fun s =>
    { s with ret.expired := rememberExpired o.number s.ret.expired }).expireNotices o

theorem Ev.st_expired (o : Order) (s : State) : (Ev.expired o s).st =
    (((s.orderLost o).setPos o.pos ((s.pos o.pos).expire o)).withExpired
      (rememberExpired o.number s.ret.expired)).expiryNotices o.kind.spindle := by
  obtain ⟨hpos, hexpired⟩ := orderLost_ret s o
  unfold Ev.expired
  rw [Ev.st_expireNotices]
  show State.expiryNotices (State.withExpired ((Ev.orderLost o s).st.setPos o.pos _)
    (rememberExpired o.number (Ev.orderLost o s).st.ret.expired)) _ = _
  rw [Ev.st_orderLost, hpos, hexpired]

/-- The position of an expired order, as the spec says it; `gone` when it loses its sister (R81, R94). -/
def Position.afterExpiry (p : Position) (o : Order) (gone : Bool) : Position :=
  { p with
    rack := if p.rack = .booked o.number then .unknown else p.rack
    mounted := if p.mounted = .booked o.number then .unknown else p.mounted
    service := if o.kind.spindle then .uncertain else p.service
    dueCause := if o.kind.spindle then none else p.dueCause
    holdCause := if o.kind.spindle then none else p.holdCause
    resume := if o.kind.spindle then none else p.resume
    need := if gone then .noNeed else p.need
    sister := if gone then none else p.sister
    urgent := if gone then false else p.urgent }

theorem expire_eq (p : Position) (o : Order) : p.expire o = p.afterExpiry o false := by
  unfold Position.expire Position.afterExpiry Holding.lose
  cases o.kind.spindle <;> rfl

theorem expire_noNeed (p : Position) (o : Order) :
    { p.expire o with need := .noNeed, sister := none, urgent := false } = p.afterExpiry o true := by
  rw [expire_eq]
  rfl

theorem Ev.follows_expireSister (o : Order) (s : State) :
    Follows ((((s.orderLost o).setPos o.pos ((s.pos o.pos).afterExpiry o
      (o.incoming.isSome && decide ((s.pos o.pos).sister = o.incoming)))).withExpired
        (rememberExpired o.number s.ret.expired)).expiryNotices o.kind.spindle) ((Ev.expired o s).expireSister o).st := by
  have hst := Ev.st_expired o s
  have hpos : (Ev.expired o s).st.pos o.pos = (s.pos o.pos).expire o := by
    rw [hst, State.pos_expiryNotices]
    show (State.setPos _ o.pos _).pos o.pos = _
    rw [State.pos_setPos, if_pos rfl]
  have hsister : ((s.pos o.pos).expire o).sister = (s.pos o.pos).sister := by rw [expire_eq]; rfl
  unfold Ev.expireSister
  cases hi : o.incoming with
  | none =>
    refine .cast (.refl _) ?_ hst
    rw [expire_eq]
    rfl
  | some i =>
    refine .cast (Ev.follows_loseSister o.pos i (Ev.expired o s)) ?_ rfl
    rw [hpos, hsister]
    by_cases h : (s.pos o.pos).sister = some i
    · rw [if_pos h, hst, State.setPos_expiryNotices, expire_noNeed, h, State.setPos_withExpired, State.setPos_setPos]
      simp
    · rw [if_neg h, hst, expire_eq]
      simp [h]

end

/-- Settles O27. -/
theorem swapExpiryLosesPlaces : Obligations.SwapExpiryLosesPlaces := by
  intro o s hrun hbusy hdeadline n x p lose spindle gone u₀ u₁ u₂ u₃ u₄ m
  have hspindle : spindle = o.kind.spindle := by
    simp only [spindle]
    cases o.kind <;> rfl
  have hexpiring : s.expiring = some o := (expiring_eq_some_iff s o).mpr ⟨hbusy, hdeadline⟩
  have hm : m = (((s.orderLost o).setPos x (p.afterExpiry o gone)).withExpired
      (rememberExpired n s.ret.expired)).expiryNotices o.kind.spindle := by
    simp only [m, u₄, u₃, u₂, hspindle]
    rfl
  refine ⟨expiryEvent o s, ?_, settles_finish (e := (Ev.expired o s).expireSister o) (hm ▸ Ev.follows_expireSister o s)⟩
  show Host.Outcome.next _ = _
  rw [if_pos hrun, swapExpiry, hexpiring]

end Sys2Proof.Machine

/-! PROOFS. The millisecond count (R189). -/
namespace Sys2Proof.Machine

/-! ## The expiries leave the count -/

theorem State.ms_notify (s : State) (p : Port) (n : Notice) : (s.notify p n).vol.ms = s.vol.ms := by
  unfold State.notify
  split <;> rfl

theorem ms_lossExpiry (s : State) : (lossExpiry s).vol.ms = s.vol.ms := by
  have hfold : ∀ (l : List Station) (u t : State), t.vol.ms = u.vol.ms →
      (l.foldl (fun s' n => if u.stationOpen n then s'.notify (.station n) .blind else s') t).vol.ms = u.vol.ms := by
    intro l u
    induction l with
    | nil => exact fun t h => h
    | cons n l ih =>
      intro t h
      refine ih _ ?_
      dsimp only
      split
      · rw [State.ms_notify, h]
      · exact h
  unfold lossExpiry
  split
  · show s.dropLock.vol.ms = s.vol.ms
    unfold State.dropLock
    split
    · exact hfold _ _ _ (State.ms_notify _ _ _)
    · rfl
  · rfl

theorem ms_retire (s : State) (n : Nat) : (s.retire n).vol.ms = s.vol.ms := by
  show (s.dropOrder n).vol.ms = _
  unfold State.dropOrder State.promote
  split
  · dsimp only
    split
    · rfl
    · split <;> rfl
  · rfl

theorem ms_orderLost (o : Order) (s : State) : (s.orderLost o).vol.ms = s.vol.ms := by
  have htool : ∀ (t : State) j, (t.toolLost j).vol.ms = t.vol.ms := fun t j => by cases j <;> rfl
  have hu : (((s.retire o.number).toolLost o.incoming).toolLost o.outgoing).vol.ms = s.vol.ms := by
    rw [htool, htool, ms_retire]
  unfold State.orderLost
  cases o.pocket with
  | none => exact hu
  | some k =>
    dsimp only [Option.elim_some]
    split <;> exact hu

theorem State.ms_expiryNotices (s : State) (spindle : Bool) : (s.expiryNotices spindle).vol.ms = s.vol.ms := by
  unfold State.expiryNotices
  split
  · rw [State.ms_notify, State.ms_notify, State.ms_notify]
  · rw [State.ms_notify, State.ms_notify]

theorem ms_swapExpiry (s : State) : (swapExpiry s).vol.ms = s.vol.ms := by
  unfold swapExpiry
  split
  · next o _ =>
    have hsettles : Settles _ (expiryEvent o s) := settles_finish (Ev.follows_expireSister o s)
    rw [hsettles.1.ms, State.ms_expiryNotices]
    exact ms_orderLost o s
  · rfl

theorem ms_retryExpiry (x : PosIx) (s : State) : (retryExpiry x s).vol.ms = s.vol.ms := by
  unfold retryExpiry
  split
  · exact (settles_retryEvent x s).1.ms
  · rfl

theorem ms_takeExpiries (s : State) : (takeExpiries s).vol.ms = s.vol.ms := by
  have hfold : ∀ (l : List PosIx) (t : State), (l.foldl (fun s x => retryExpiry x s) t).vol.ms = t.vol.ms := by
    intro l
    induction l with
    | nil => exact fun _ => rfl
    | cons x l ih => exact fun t => (ih _).trans (ms_retryExpiry x t)
  rw [takeExpiries, hfold, ms_swapExpiry, ms_lossExpiry]

/-- Settles O29. -/
theorem tickAdvancesCount : Obligations.TickAdvancesCount := by
  intro s
  refine ⟨fun hrun => ⟨(takeExpiries s).advance, ?_, ?_⟩, fun hrun hloss hswap hretry => ?_, fun hrun => ?_⟩
  · show Host.Outcome.next _ = _
    rw [if_pos hrun]
  · show ((takeExpiries s).vol.ms + 1).toNat = _
    rw [ms_takeExpiries, BitVec.toNat_add]
    rfl
  · show Host.Outcome.next _ = _
    rw [if_pos hrun, takeExpiries_of_ne hloss hswap hretry]
    rfl
  · show Host.Outcome.next _ = _
    rw [if_neg (by rw [hrun]; nofun)]

end Sys2Proof.Machine

/-! PROOFS. The warm start (R43 to R45, R97, R113, R138, R187). -/
namespace Sys2Proof.Machine

/-! ## The adjusted state -/

theorem Order.busy_warm (o : Order) : o.warm.busy = o.busy := by
  unfold Order.warm Order.busy
  cases o.state <;> rfl

theorem busyOrder_warmed (s : State) (pins : Strap) : (s.warmed pins).busyOrder = s.busyOrder.map Order.warm := by
  show (s.ret.queue.map Order.warm).find? Order.busy = (s.ret.queue.find? Order.busy).map Order.warm
  rw [List.find?_map]
  exact congrArg (fun p => (s.ret.queue.find? p).map Order.warm) (funext Order.busy_warm)

/-- The state that a warm start adjusts, as the spec says it (R97, R138, R187). -/
def State.adjusted (s : State) (pins : Strap) : State :=
  let count := 1 + (if pins.nst0 then 1 else 0) + (if pins.nst1 then 2 else 0)
  let here (x : PosIx) : Bool := decide (x.val / 3 < count)
  { s with
    strap := pins
    lastStart := .warm
    ret.positions := s.ret.positions.map fun p => { p with
      window := false
      holdCause := if p.service = .held ∧ p.holdCause = some .retry then some .trip else p.holdCause }
    ret.queue := s.ret.queue.map fun o => { o with state := if o.state = .taken then .inDoubt else o.state }
    vol := {
      ms := 0
      swapDeadline :=
        (s.ret.queue.find? fun o => o.state = .taken || o.state = .inDoubt).bind fun o =>
          if here o.pos then some (BitVec.ofNat 32 (s.ret.timeout * 1000)) else none
      lock := .hunt
      lockCount := 0
      lossDeadline := none
      errors := 0
      lastSamples := Vector.replicate 16 none
      line := .quiet
      channels := Vector.replicate 12 ⟨.idle, 0, 0, 0, none⟩
      ports := s.vol.ports.map fun v => { v with
        mailbox := .empty
        notices := 0
        attn := false
        reception :=
          match v.reception with
          | .receiving _ => .discarded
          | r => r } } }

theorem doubtDeadline_eq (s : State) (pins : Strap) : (s.warmed pins).vol.swapDeadline =
    (s.ret.queue.find? fun o => o.state = .taken || o.state = .inDoubt).bind fun o =>
      if decide (o.pos.val / 3 < pins.count) then some (BitVec.ofNat 32 (s.ret.timeout * 1000)) else none := by
  have hbusy : (fun o : Order => o.state = .taken || o.state = .inDoubt) = Order.busy := rfl
  have hdeadline : (s.warmed pins).vol.swapDeadline =
      match (s.warmed pins).busyOrder with
      | some o => if (s.warmed pins).present o.pos then some (0 + BitVec.ofNat 32 (s.ret.timeout * 1000)) else none
      | none => none := rfl
  rw [hdeadline, busyOrder_warmed]
  show _ = (s.busyOrder).bind _
  cases s.busyOrder with
  | none => rfl
  | some o =>
    dsimp only [Option.map_some, Option.bind_some]
    rw [show ∀ d : Time, 0 + d = d from fun d => zero_add d]
    rfl

theorem warmed_eq_adjusted (s : State) (pins : Strap) : s.warmed pins = s.adjusted pins := by
  have hvol : (s.warmed pins).vol = { (s.adjusted pins).vol with swapDeadline := (s.warmed pins).vol.swapDeadline } := by
    have hport : ∀ p : PortState, p.restart = { p with
        mailbox := .empty, notices := 0, attn := false, reception := p.reception.restart } := fun _ => rfl
    have hports : (s.warmed pins).vol.ports = (s.adjusted pins).vol.ports :=
      congrArg s.vol.ports.map (funext fun p => (hport p).trans (by
        unfold Reception.restart
        cases p.reception <;> rfl))
    show { (s.warmed pins).vol with ports := (s.warmed pins).vol.ports } = _
    rw [hports]
    rfl
  rw [doubtDeadline_eq] at hvol
  have hsplit : s.warmed pins = { s.adjusted pins with vol := (s.warmed pins).vol } := rfl
  rw [hsplit, hvol]
  rfl

/-! ## What follows the adjustment -/

theorem Follows.heldNotices {u v a b : State} (h : Follows a b) (hs : ∀ x, (v.pos x).service = (u.pos x).service) :
    Follows ((List.finRange 12).foldl (fun m x => if (u.pos x).service = .held then m.notifySlot x .held else m) a)
      ((List.finRange 12).foldl (fun m x => if (v.pos x).service = .held then m.notifySlot x .held else m) b) := by
  generalize List.finRange 12 = l
  induction l generalizing a b with
  | nil => exact h
  | cons x l ih =>
    rw [List.foldl_cons, List.foldl_cons, hs]
    refine ih ?_
    split
    · exact h.notifySlot_congr x .held
    · exact h

theorem Ev.follows_arbitrateStart (e : Ev) : Follows e.st e.arbitrateStart.st :=
  Ev.follows_foldl _ (fun e t => Ev.follows_arbitrate t e) _ e

/-- What a warm start does after the adjustment to `u`: its notices and the arbitration with its hand-offs. -/
def WarmFrom (u t : State) : Prop :=
  let types := (u.ret.waiting.filter fun x => u.present x && !(u.pos x).suspended).filterMap fun x => (u.pos x).required
  Settles ((List.finRange 12).foldl (fun m x => if (u.pos x).service = .held then m.notifySlot x .held else m)
    (u.notify .ps .restarted)) t ∧
  t.ret = (types.foldl (fun e k => e.arbitrate k) (Ev.start u)).handOffs.st.ret ∧
  (u.ret.waiting = [] → t.ret = u.ret) ∧
  (t.orderReady = true → (t.port .pc).notices = Notice.orderReady.mask)

/-- The start notices follow what the arbitration has left. -/
theorem Follows.warmNotices {u h : State} (hu : Follows u h) :
    Follows ((List.finRange 12).foldl (fun m x => if (u.pos x).service = .held then m.notifySlot x .held else m)
      (u.notify .ps .restarted)) h.warmNotices := by
  have hheld : Follows ((List.finRange 12).foldl (fun m x => if (u.pos x).service = .held then m.notifySlot x .held else m)
      (u.notify .ps .restarted)) (h.notify .ps .restarted).heldNotices :=
    Follows.heldNotices (v := h.notify .ps .restarted) (hu.notify_congr .ps .restarted)
      fun x => by rw [State.pos_notify, hu.service]
  unfold State.warmNotices
  dsimp only
  split
  · exact hheld.trans (Follows.notify _ (by decide))
  · exact hheld

theorem settles_warmStart (pins : Strap) (s : State) :
    Settles ((List.finRange 12).foldl (fun m x => if ((s.warmed pins).pos x).service = .held then m.notifySlot x .held else m)
      ((s.warmed pins).notify .ps .restarted)) (warmStart pins s) := by
  have hfollows : Follows (s.warmed pins) (Ev.start (s.warmed pins)).arbitrateStart.handOffs.st :=
    (Ev.follows_arbitrateStart (Ev.start (s.warmed pins))).trans (Ev.follows_handOffs _)
  rw [warmStart_eq]
  generalize (Ev.start (s.warmed pins)).arbitrateStart.handOffs.st = h at hfollows
  exact ⟨hfollows.warmNotices.trans ((State.follows_commit _).trans (State.follows_drive _)), rfl⟩

/-- The notices of PC after a warm start: none but ORDER_READY. -/
theorem pcNotices_warmStart (pins : Strap) (s : State) :
    ((warmStart pins s).port .pc).notices &&& ~~~Notice.orderReady.mask = 0 := by
  have hothers := (settles_warmStart pins s).1.others .pc
  refine hothers.trans ?_
  have hfold : ∀ (l : List PosIx) (u a : State),
      ((l.foldl (fun m x => if (u.pos x).service = .held then m.notifySlot x .held else m) a).port .pc).notices =
        (a.port .pc).notices := by
    intro l u
    induction l with
    | nil => exact fun _ => rfl
    | cons x l ih =>
      intro a
      rw [List.foldl_cons, ih]
      split
      · exact pcNotices_notify (p := .station (stationOf x)) nofun _
      · rfl
  have hstart : ((s.warmed pins).port .pc).notices = 0 := by
    show ((s.vol.ports.map PortState.restart)[Port.pc.ix]).notices = 0
    simp [PortState.restart, PortState.start]
  rw [hfold, pcNotices_notify (p := .ps) nofun, hstart]
  exact BitVec.zero_and

/-- A set with no flag but one, and that one set, is that flag. -/
theorem eq_mask_of_and {w : BitVec 16} (hother : w &&& ~~~Notice.orderReady.mask = 0)
    (hset : w &&& Notice.orderReady.mask ≠ 0) : w = Notice.orderReady.mask := by
  have hsplit : w = w &&& Notice.orderReady.mask := by
    calc w = w &&& BitVec.allOnes 16 := BitVec.and_allOnes.symm
      _ = (w &&& Notice.orderReady.mask) ||| (w &&& ~~~Notice.orderReady.mask) := by
        rw [← BitVec.and_or_distrib_left]; rfl
      _ = w &&& Notice.orderReady.mask := by rw [hother]; exact BitVec.or_zero
  have hmask : Notice.orderReady.mask = BitVec.twoPow 16 15 := rfl
  rw [hmask] at hset hsplit ⊢
  rw [BitVec.and_twoPow] at hset hsplit
  split at hsplit
  · exact hsplit
  · next h => exact absurd (if_neg h) hset

theorem warmFrom_warmStart (pins : Strap) (s : State) : WarmFrom (s.warmed pins) (warmStart pins s) := by
  have harbitrated : (Ev.start (s.warmed pins)).arbitrateStart =
      (s.warmed pins).waitingTypes.foldl (fun e k => e.arbitrate k) (Ev.start (s.warmed pins)) := rfl
  refine ⟨settles_warmStart pins s, ret_warmStart pins s, fun hwaiting => ?_, fun hready => ?_⟩
  · have htypes : (s.warmed pins).waitingTypes = [] := by
      unfold State.waitingTypes
      rw [hwaiting]
      rfl
    rw [ret_warmStart, harbitrated, htypes]
    rfl
  · exact eq_mask_of_and (pcNotices_warmStart pins s) ((readyFlag_warmStart pins s).mpr hready)

/-- A power-on start with the latch clear, the marker there and the check byte current is warm (R41). -/
theorem powerOnStart_warm {pins : Strap} {s : State} (hlatch : s.vbatLatch = false) (hmarker : s.marker = true)
    (hcheck : s.checkByte = checkByteOf s.ret) : powerOnStart pins s = warmStart pins { s with started := true } := by
  have hwarm : s.startsCold = false := by simp [State.startsCold, hlatch, hmarker, hcheck]
  have hsame : ({ s with vbatLatch := false, started := true } : State) = { s with started := true } := by rw [← hlatch]
  unfold powerOnStart
  rw [hwarm, if_neg nofun]
  exact congrArg (warmStart pins) hsame

/-- Settles O32. -/
theorem warmStartKeepsRetained : Obligations.WarmStartKeepsRetained := by
  intro pins s adjusted warm
  have hwarm : ∀ q u, warm (adjusted q u) (warmStart q u) := fun q u => by
    have h := warmFrom_warmStart q u
    rw [warmed_eq_adjusted] at h
    exact h
  refine ⟨fun hl => ⟨warmStart s.pins s, ?_, hwarm s.pins s⟩, fun hreset hon hstarted =>
    ⟨warmStart pins { s with resetHeld := false, pins := pins }, ?_, hwarm pins _⟩,
    fun hstarted hreset hlatch hmarker hcheck =>
      ⟨warmStart pins { s with supplyOn := true, started := true, pins := pins }, ?_, hwarm pins _⟩,
    fun hstarted hreset hon hlatch hmarker hcheck =>
      ⟨warmStart pins { s with resetHeld := false, started := true, pins := pins }, ?_, hwarm pins _⟩⟩
  · show serve .ps 44 (.ok (warmStart s.pins s, [])) s = _
    rw [serve_accepted hl]
  · show Host.Outcome.next (if s.resetHeld then releaseStart pins _ else s) = _
    rw [if_pos hreset, releaseStart, if_neg (by rw [hon]; nofun), if_pos hstarted]
  · show Host.Outcome.next (if s.started then s else if s.resetHeld then _ else powerOnStart pins _) = _
    rw [if_neg (by rw [hstarted]; nofun), if_neg (by rw [hreset]; nofun),
      powerOnStart_warm (s := { s with supplyOn := true, pins := pins }) hlatch hmarker hcheck]
  · show Host.Outcome.next (if s.resetHeld then releaseStart pins _ else s) = _
    rw [if_pos hreset, releaseStart, if_neg (by rw [hon]; nofun), if_neg (by rw [hstarted]; nofun),
      powerOnStart_warm (s := { s with resetHeld := false, pins := pins }) hlatch hmarker hcheck]

end Sys2Proof.Machine

/-! PROOFS. CHECK and the queries, and the records they answer with (R82, R177, R182 to R186). -/
namespace Sys2Proof.Machine

/-! ## Lengths of the records -/

theorem length_holdingBytes (h : Holding) : (holdingBytes h).length = 3 := by
  cases h <;> simp [holdingBytes]

theorem length_optPlaceBytes (p : Option Place) : (optPlaceBytes p).length = 2 := by
  cases p <;> simp [optPlaceBytes]

theorem length_outgoingToBytes (o : Order) : o.outgoingToBytes.length = 2 := by
  unfold Order.outgoingToBytes
  split
  · rfl
  · cases o.kind <;> cases o.pocket <;> simp

theorem length_positionRecord (s : State) (x : PosIx) : (s.positionRecord x).length = 34 := by
  simp [State.positionRecord, length_holdingBytes]

theorem length_toolRecord (s : State) (i : EntryIx) : (s.toolRecord i).length = 40 := by
  unfold State.toolRecord
  split
  · rfl
  · simp

theorem length_orderRecord (s : State) (o : Order) : (s.orderRecord o).length = 21 := by
  simp [State.orderRecord, length_optPlaceBytes, length_outgoingToBytes]

theorem length_typeFixed (k : TypeIx) (f : Option TypeRec) : (typeFixed k f).length = 38 := by
  cases f <;> simp [typeFixed]

theorem length_lifeResult {s : State} {i : EntryIx} {u : Tool} (hu : s.tool i = some u) (x : PosIx) (o : GaugeOutcome)
    (m : Nat) : (s.lifeResult x i o m).length = 15 := by
  unfold State.lifeResult
  rw [hu]
  simp

/-! ## The fields of the records -/

theorem byte_flagNum (b : Bool) : byte (flagNum b) = if b then 1 else 0 := by cases b <;> rfl

/-- The number of the standing order that names a tool, 0 where none does (R182). -/
theorem namingNumber_eq {s : State} {i : EntryIx} {n : Nat}
    (hsome : ∀ o, s.standing.find? (fun o => decide (o.incoming = some i ∨ o.outgoing = some i)) = some o → n = o.number)
    (hnone : (∀ o ∈ s.standing, o.incoming ≠ some i ∧ o.outgoing ≠ some i) → n = 0) : s.namingNumber i = n := by
  have hnames : Order.names i = fun o => decide (o.incoming = some i ∨ o.outgoing = some i) :=
    funext fun o => (Bool.decide_or _ _).symm
  unfold State.namingNumber State.orderNaming
  rw [hnames]
  cases h : s.standing.find? fun o => decide (o.incoming = some i ∨ o.outgoing = some i) with
  | some o => exact (hsome o h).symm
  | none =>
    refine (hnone fun o ho => ?_).symm
    simpa using List.find?_eq_none.mp h o ho

theorem orderTimeLeft_eq (s : State) (o : Order) : s.orderTimeLeft o =
    if o.state = .taken ∨ o.state = .inDoubt then s.vol.swapDeadline.elim 0 fun d => (d - s.vol.ms).toNat else 0 := by
  have hbusy : o.busy = true ↔ o.state = .taken ∨ o.state = .inDoubt := by simp [Order.busy]
  unfold State.orderTimeLeft
  simp only [hbusy]
  rfl

theorem liveEntries_eq (s : State) : s.liveEntries = (List.finRange 64).countP fun i => (s.tool i).isSome :=
  (List.countP_eq_length_filter ..).symm

/-- An order stands at the index at which its number stands. -/
theorem getElem?_of_findIdx? {l : List Order} {o : Order} {k : Nat} (hnodup : (l.map (·.number)).Nodup) (ho : o ∈ l)
    (hk : l.findIdx? (fun q => decide (q.number = o.number)) = some k) : l[k]? = some o := by
  obtain ⟨hlt, hnumber, -⟩ := List.findIdx?_eq_some_iff_getElem.mp hk
  rw [decide_eq_true_eq] at hnumber
  rw [List.getElem?_eq_getElem hlt]
  exact congrArg some (List.inj_on_of_nodup_map hnodup (List.getElem_mem hlt) ho hnumber)

theorem findIdx?_isSome {l : List Order} {o : Order} (ho : o ∈ l) :
    ∃ k, l.findIdx? (fun q => decide (q.number = o.number)) = some k := by
  rw [← Option.isSome_iff_exists, List.findIdx?_isSome, List.any_eq_true]
  exact ⟨o, ho, decide_eq_true rfl⟩

/-- The collection of an order and its place in it. -/
theorem standingPlace_eq {s : State} {o : Order} (hnodup : (s.standing.map (·.number)).Nodup) (ho : o ∈ s.standing) :
    ∃ k : Nat, (s.ret.queue[k]? = some o ∨ s.ret.backlog[k]? = some o) ∧
      s.standingPlace o = (if o ∈ s.ret.queue then 1 else 2, k + 1) := by
  unfold State.standing at hnodup ho
  rw [List.map_append] at hnodup
  obtain ⟨hqueue, hbacklog, hapart⟩ := List.nodup_append.mp hnodup
  unfold State.standingPlace
  by_cases hq : o ∈ s.ret.queue
  · obtain ⟨k, hk⟩ := findIdx?_isSome hq
    refine ⟨k, .inl (getElem?_of_findIdx? hqueue hq hk), ?_⟩
    rw [hk, if_pos hq]
  · have hb : o ∈ s.ret.backlog := (List.mem_append.mp ho).resolve_left hq
    have hnone : s.ret.queue.findIdx? (fun q => decide (q.number = o.number)) = none := by
      rw [List.findIdx?_eq_none_iff]
      intro q hqmem
      exact decide_eq_false fun h => hapart q.number (List.mem_map_of_mem hqmem) o.number (List.mem_map_of_mem hb) h
    obtain ⟨k, hk⟩ := findIdx?_isSome hb
    refine ⟨k, .inr (getElem?_of_findIdx? hbacklog hb hk), ?_⟩
    rw [hnone, if_neg hq]
    dsimp only
    rw [List.findIdx_eq_getD_findIdx?, hk]
    rfl

theorem orderRecord_eq {s : State} {o : Order} {a b : Nat} (hplace : s.standingPlace o = (a, b)) : s.orderRecord o =
    be 2 o.number ++ [byte o.kind.num, if o.urgent then 1 else 0, byte o.state.num, byte o.pos.val,
      byte (o.incoming.elim 255 (·.val)), byte (o.outgoing.elim 255 (·.val))] ++
    (optPlaceBytes o.incomingFrom ++ optPlaceBytes o.incomingTo) ++ (optPlaceBytes o.outgoingFrom ++ o.outgoingToBytes) ++
    be 3 (if o.state = .taken ∨ o.state = .inDoubt then s.vol.swapDeadline.elim 0 fun d => (d - s.vol.ms).toNat else 0) ++
    [byte a, byte b] := by
  unfold State.orderRecord
  rw [hplace, orderTimeLeft_eq, byte_flagNum]
  simp only [List.append_assoc]
  rfl

theorem incomingBytes_eq (o : Order) : optPlaceBytes o.incomingFrom ++ optPlaceBytes o.incomingTo =
    match o.kind with
    | .stage => o.pocket.elim [0, 0] (fun k => [1, byte (k.val + 1)]) ++ [2, byte o.pos.val]
    | .direct => o.pocket.elim [0, 0] (fun k => [1, byte (k.val + 1)]) ++ [3, byte o.pos.val]
    | .exchange => [2, byte o.pos.val, 3, byte o.pos.val]
    | .remove | .return_ => [0, 0, 0, 0] := by
  unfold Order.incomingFrom Order.incomingTo
  cases o.kind <;> cases o.pocket <;> rfl

theorem outgoingBytes_eq (o : Order) : optPlaceBytes o.outgoingFrom ++ o.outgoingToBytes =
    match o.kind, o.outgoing with
    | _, none | .stage, _ => [0, 0, 0, 0]
    | .return_, _ => [2, byte o.pos.val] ++ o.pocket.elim [6, 0] fun k => [1, byte (k.val + 1)]
    | _, _ => [3, byte o.pos.val, 2, byte o.pos.val] := by
  unfold Order.outgoingFrom Order.outgoingToBytes
  cases o.outgoing with
  | none => cases o.kind <;> rfl
  | some j => cases o.kind <;> rfl

theorem take_typeResult (s : State) (k : TypeIx) : (s.typeResult k).take 38 = typeFixed k (s.typ k) := by
  unfold State.typeResult
  rw [List.append_assoc, List.take_left' (length_typeFixed k _)]

theorem drop_typeResult (s : State) (k : TypeIx) : (s.typeResult k).drop 38 =
    byte (s.entriesOf k).length :: (s.entriesOf k).map (fun i => byte i.val) ++
      byte (s.positionsOf k).length :: (s.positionsOf k).map (fun x => byte x.val) := by
  unfold State.typeResult
  rw [List.append_assoc, List.drop_left' (length_typeFixed k _)]

theorem mem_entriesOf (s : State) (k : TypeIx) (i : EntryIx) : i ∈ s.entriesOf k ↔ ∃ u, s.tool i = some u ∧ u.type = k := by
  simp [State.entriesOf, allEntries, Option.any_eq_true]

theorem mem_positionsOf (s : State) (k : TypeIx) (x : PosIx) : x ∈ s.positionsOf k ↔ (s.pos x).required = some k := by
  simp [State.positionsOf, allPositions]

theorem ascending_entriesOf (s : State) (k : TypeIx) : (s.entriesOf k).Pairwise (· < ·) :=
  (List.pairwise_lt_finRange 64).filter _

theorem ascending_positionsOf (s : State) (k : TypeIx) : (s.positionsOf k).Pairwise (· < ·) :=
  (List.pairwise_lt_finRange 12).filter _

/-! ## The queries -/

theorem queryToolBody_atStation {s : State} {n : Station} {i : EntryIx} {u : Tool} {sl : Slot} (hu : s.tool i = some u)
    (hplace : u.state = .mounted ∧ u.place = .spindle (posAt n sl) ∨ u.state = .staged ∧ u.place = .rack (posAt n sl)) :
    queryToolBody (.station n) i.val s = .ok (s, s.toolRecord i) := by
  have hmay : s.mayAsk (.station n) i = true := by
    show (s.tool i).any (Tool.atStation n) = true
    rw [hu]
    obtain ⟨hstate, hat⟩ | ⟨hstate, hat⟩ := hplace <;> simp [Tool.atStation, hstate, hat, stationOf_posAt]
  rw [queryToolBody, entryOperand_val]
  exact if_pos hmay

theorem queryToolBody_other {s : State} {p : Port} (hp : p = .pc ∨ p = .ps) (i : EntryIx) :
    queryToolBody p i.val s = .ok (s, s.toolRecord i) := by
  rw [queryToolBody, entryOperand_val]
  obtain rfl | rfl := hp <;> rfl

theorem queryOrderBody_eq {s : State} {p : Port} (hp : p = .pc ∨ p = .ps) (n : Nat) : queryOrderBody p n s =
    (s.askedOrder n).elim (.error .noOrder) fun o => .ok (s, s.orderRecord o) := by
  obtain rfl | rfl := hp <;> unfold queryOrderBody <;> cases s.askedOrder n <;> rfl

theorem askedOrder_some {s : State} {o : Order} (ho : o ∈ s.standing) (hone : ∀ q ∈ s.standing, q.number = o.number → q = o)
    (hn : o.number ≠ 0) : s.askedOrder o.number = some o := by
  rw [State.askedOrder, if_neg hn]
  exact find?_eq_some_of_unique ho (decide_eq_true rfl) fun q hq h => hone q hq (of_decide_eq_true h)

theorem askedOrder_none {s : State} {n : Nat} (hn : n ≠ 0) (hnone : ∀ q ∈ s.standing, q.number ≠ n) :
    s.askedOrder n = none := by
  rw [State.askedOrder, if_neg hn, List.find?_eq_none]
  intro q hq
  simpa using hnone q hq

theorem exec_queryOrder {s : State} {p : Port} (hp : p = .pc ∨ p = .ps) (hl : s.listening p = true) (n : Nat) :
    exec (.queryOrder p n) s = .next (s.answer p ((s.askedOrder n).elim ⟨51, .noOrder, []⟩ fun o =>
      ⟨51, .accepted, s.orderRecord o⟩)) := by
  show serve p 51 (queryOrderBody p n s) s = _
  rw [queryOrderBody_eq hp]
  cases s.askedOrder n with
  | none => exact serve_error hl 51 .noOrder
  | some o => exact serve_accepted hl 51 s _

/-- The clauses of O35 on the station ports. -/
theorem stationQueries {s : State} {n : Station} (hl : s.listening (.station n) = true) :
    exec (.check (.station n)) s = .next (s.answer (.station n) ⟨1, .accepted,
      s.checkAnswer (posAt n .a) ++ s.checkAnswer (posAt n .b) ++ s.checkAnswer (posAt n .d)⟩) ∧
    (∀ sl : Slot, exec (.queryPosition (.station n) sl.num) s =
      .next (s.answer (.station n) ⟨50, .accepted, s.positionRecord (posAt n sl)⟩)) ∧
    (∀ i u sl, s.tool i = some u →
      u.state = .mounted ∧ u.place = .spindle (posAt n sl) ∨ u.state = .staged ∧ u.place = .rack (posAt n sl) →
      exec (.queryTool (.station n) i.val) s = .next (s.answer (.station n) ⟨49, .accepted, s.toolRecord i⟩)) := by
  refine ⟨?_, fun sl => ?_, fun i u sl hu hplace => ?_⟩
  · show serve (.station n) 1 (.ok (s, s.checkResult n)) s = _
    rw [serve_accepted hl]
    rfl
  · show serve (.station n) 50 (queryPositionBody (.station n) sl.num s) s = _
    rw [show queryPositionBody (.station n) sl.num s = .ok (s, s.positionRecord (posAt n sl)) by simp [queryPositionBody],
      serve_accepted hl]
  · show serve (.station n) 49 (queryToolBody (.station n) i.val s) s = _
    rw [queryToolBody_atStation hu hplace, serve_accepted hl]

/-- The clauses of O35 on the ports PC and PS. -/
theorem cellQueries {s : State} {p : Port} (hp : p = .pc ∨ p = .ps) (hl : s.listening p = true) :
    (∀ i : EntryIx, exec (.queryTool p i.val) s = .next (s.answer p ⟨49, .accepted, s.toolRecord i⟩)) ∧
    (∀ o rest, s.ret.queue = o :: rest →
      exec (.queryOrder p 0) s = .next (s.answer p ⟨51, .accepted, s.orderRecord o⟩)) ∧
    (∀ o ∈ s.standing, (∀ q ∈ s.standing, q.number = o.number → q = o) → o.number ≠ 0 →
      exec (.queryOrder p o.number) s = .next (s.answer p ⟨51, .accepted, s.orderRecord o⟩)) ∧
    (s.ret.queue = [] → exec (.queryOrder p 0) s = .next (s.answer p ⟨51, .noOrder, []⟩)) ∧
    (∀ n, n ≠ 0 → (∀ q ∈ s.standing, q.number ≠ n) →
      exec (.queryOrder p n) s = .next (s.answer p ⟨51, .noOrder, []⟩)) := by
  have hhead : s.askedOrder 0 = s.ret.queue.head? := if_pos rfl
  refine ⟨fun i => ?_, fun o rest hq => ?_, fun o ho hone hn => ?_, fun hq => ?_, fun n hn hnone => ?_⟩
  · show serve p 49 (queryToolBody p i.val s) s = _
    rw [queryToolBody_other hp, serve_accepted hl]
  · rw [exec_queryOrder hp hl, hhead, hq]
    rfl
  · rw [exec_queryOrder hp hl, askedOrder_some ho hone hn]
    rfl
  · rw [exec_queryOrder hp hl, hhead, hq]
    rfl
  · rw [exec_queryOrder hp hl, askedOrder_none hn hnone]
    rfl

/-- The clauses of O35 on the queries of PS alone. -/
theorem supervisorQueries {s : State} (hl : s.listening .ps = true) :
    (∀ k : TypeIx, exec (.queryType .ps (k.val + 1)) s = .next (s.answer .ps ⟨48, .accepted, s.typeResult k⟩)) ∧
    (∀ x : PosIx, s.present x = true →
      exec (.queryPosition .ps x.val) s = .next (s.answer .ps ⟨50, .accepted, s.positionRecord x⟩)) ∧
    exec (.queryWaiting .ps) s = .next (s.answer .ps ⟨52, .accepted, s.waitingResult⟩) ∧
    exec (.queryCell .ps) s = .next (s.answer .ps ⟨53, .accepted, s.cellResult⟩) := by
  refine ⟨fun k => ?_, fun x hx => ?_, ?_, ?_⟩
  · show serve .ps 48 (queryTypeBody (k.val + 1) s) s = _
    rw [show queryTypeBody (k.val + 1) s = .ok (s, s.typeResult k) by rw [queryTypeBody, typeOperand_succ], serve_accepted hl]
  · show serve .ps 50 (queryPositionBody .ps x.val s) s = _
    rw [show queryPositionBody .ps x.val s = .ok (s, s.positionRecord x) by simp [queryPositionBody, presentOperand_val hx],
      serve_accepted hl]
  · show serve .ps 52 (.ok (s, s.waitingResult)) s = _
    rw [serve_accepted hl]
  · show serve .ps 53 (.ok (s, s.cellResult)) s = _
    rw [serve_accepted hl]

/-! ## The layouts -/

theorem toolRecord_eq {s : State} {i : EntryIx} {u : Tool} {n : Nat} (hu : s.tool i = some u) (hn : s.namingNumber i = n) :
    s.toolRecord i =
      [byte i.val, 1] ++ be 4 u.serial ++ [byte (u.type.val + 1), byte u.state.num, byte u.condition.num] ++
      placeBytes u.place ++ [byte (posNum u.promised)] ++ be 3 u.r ++ be 2 u.rem ++ be 2 (s.partsLeft u) ++ be 3 u.nnom ++
      [if u.fullHistory then 1 else 0] ++ be 3 u.parts ++ be 3 u.dresses ++ be 3 (u.gauged.getD 16777215) ++
      [byte u.doubts, byte u.trips] ++ be 2 u.peakAE ++ be 2 u.peakPower ++ be 2 n := by
  unfold State.toolRecord
  rw [hu, ← hn, ← byte_flagNum]

theorem lifeResult_eq {s : State} {i : EntryIx} {u : Tool} (hu : s.tool i = some u) (x : PosIx) (o : GaugeOutcome) (m : Nat) :
    s.lifeResult x i o m = byte i.val :: be 3 u.r ++ be 2 u.rem ++ be 2 (s.partsLeft u) ++
      [byte u.condition.num, byte (s.pos x).service.num, Config.outcomeByte o] ++ be 3 m ++ [byte u.doubts] := by
  unfold State.lifeResult
  rw [hu]

/-- Settles O35. -/
theorem queriesAnswer : Obligations.QueriesAnswer := by
  intro s
  refine ⟨fun n hl => stationQueries hl, fun p hp hl => cellQueries hp hl, fun hl => supervisorQueries hl,
    length_positionRecord s, length_toolRecord s, length_orderRecord s, ?_, fun x i u o m hu => length_lifeResult hu x o m,
    fun i hi => ?_, fun i u hu n hsome hnone => ?_, fun x => ?_, fun o ho hnodup => ?_, fun k hk => ?_, fun k f hk => ?_,
    fun k => ?_, ?_, ?_, fun x => rfl, fun x i u o m hu => lifeResult_eq hu x o m, ?_⟩
  · simp [State.cellResult]
  · unfold State.toolRecord
    rw [hi]
  · exact toolRecord_eq hu (namingNumber_eq hsome hnone)
  · intro p c holding flag
    unfold State.positionRecord
    simp only [byte_flagNum]
    rfl
  · obtain ⟨k, hk, hplace⟩ := standingPlace_eq hnodup ho
    refine ⟨k, hk, ?_⟩
    rw [orderRecord_eq hplace, incomingBytes_eq, outgoingBytes_eq, apply_ite byte]
    rfl
  · rw [take_typeResult, hk]
    rfl
  · rw [take_typeResult, hk]
    rfl
  · exact ⟨s.entriesOf k, s.positionsOf k, drop_typeResult s k, mem_entriesOf s k, ascending_entriesOf s k,
      mem_positionsOf s k, ascending_positionsOf s k⟩
  · unfold State.waitingResult
    simp only [byte_flagNum]
    rfl
  · unfold State.cellResult
    have hlock : byte s.vol.lock.num = if s.vol.lock = .locked then 1 else 0 := by cases s.vol.lock <;> rfl
    have hstart : byte s.lastStart.num = if s.lastStart = .warm then 1 else 0 := by cases s.lastStart <;> rfl
    rw [liveEntries_eq, hlock, hstart]
  · exact ⟨rfl, rfl, rfl, rfl, rfl, rfl, rfl, rfl, rfl, rfl, rfl, rfl, rfl⟩

end Sys2Proof.Machine

/-! PROOFS. The cell seen position by position: what a position record and its order say of each other, which tools the
position claims, and how a claimed tool lies. The law of the cell says the same. -/
namespace Sys2Proof.Machine

/-! ## The order of a position -/

/-- An order without its class, and without the difference of READY and BACKLOG and of TAKEN and IN_DOUBT. -/
def Order.core (o : Order) : Order := { o with urgent := false, state := if o.busy then .taken else .ready }

@[simp] theorem Order.core_number (o : Order) : o.core.number = o.number := rfl
@[simp] theorem Order.core_kind (o : Order) : o.core.kind = o.kind := rfl
@[simp] theorem Order.core_pos (o : Order) : o.core.pos = o.pos := rfl
@[simp] theorem Order.core_incoming (o : Order) : o.core.incoming = o.incoming := rfl
@[simp] theorem Order.core_outgoing (o : Order) : o.core.outgoing = o.outgoing := rfl
@[simp] theorem Order.core_pocket (o : Order) : o.core.pocket = o.pocket := rfl

@[simp] theorem Order.core_busy (o : Order) : o.core.busy = o.busy := by
  unfold Order.core Order.busy
  cases o.state <;> rfl

/-- `f` gives each position its standing order. -/
def Stands (s : State) (f : PosIx → Option Order) : Prop :=
  ∀ x c, f x = some c ↔ ∃ o ∈ s.standing, o.pos = x ∧ o.core = c

/-- The fields of an order that go with its kind (Table 6-2). -/
structure Order.Formed (o : Order) : Prop where
  incoming : (o.kind = .stage ∨ o.kind = .exchange ∨ o.kind = .direct) ↔ o.incoming.isSome = true
  outgoing : o.kind = .direct ∨ o.kind = .remove ∨ o.kind = .return_ → o.outgoing.isSome = true
  staged : o.kind = .stage → o.outgoing = none
  pocket : o.kind = .stage ∨ o.kind = .direct → o.pocket.isSome = true
  noPocket : o.kind = .exchange ∨ o.kind = .remove → o.pocket = none
  distinct : o.incoming = none ∨ o.incoming ≠ o.outgoing

/-- The record of its position goes with an order that has not been taken (R116). -/
def Order.Posted (c : Order) (p : Position) : Prop :=
  (c.kind = .stage → p.sister = c.incoming ∧ p.need = .staging) ∧
  (c.kind = .direct →
    p.sister = c.incoming ∧ p.need = .staging ∧ p.service = .released ∧ ∃ j, c.outgoing = some j ∧ p.mounted = .entry j) ∧
  (c.kind = .exchange →
    p.sister = c.incoming ∧ p.need = .staged ∧ (∃ i, c.incoming = some i ∧ p.rack = .entry i) ∧
      (p.service = .released ∧ (∃ j, c.outgoing = some j ∧ p.mounted = .entry j) ∨
        p.service = .vacant ∧ c.outgoing = none)) ∧
  (c.kind = .remove → p.service = .released ∧ p.required = none ∧ ∃ j, c.outgoing = some j ∧ p.mounted = .entry j) ∧
  (c.kind = .return_ → ∃ j, c.outgoing = some j ∧ p.rack = .entry j ∧ p.sister ≠ some j)

/-- The record of its position goes with an order that is out. -/
def Order.Out (c : Order) (p : Position) : Prop :=
  (c.outgoing = none ∨ p.sister ≠ c.outgoing) ∧
    (c.hasSpindle → p.need = .noNeed ∧ p.sister = none ∨ p.sister.isSome = true ∧ p.sister = c.incoming)

/-- The order names the tool. -/
def Order.Has (c : Order) (i : EntryIx) : Prop := c.incoming = some i ∨ c.outgoing = some i

/-! ## A position record and its order -/

/-- What the record of a position and its order say of each other. -/
structure Shape (p : Position) (o : Option Order) : Prop where
  occupied : p.service = .serving ∨ p.service = .due ∨ p.service = .held ∨ p.service = .released →
    ∃ i, p.mounted = .entry i
  vacant : p.service = .vacant → p.mounted = .bare
  exchanging : p.service = .exchanging ↔ ∃ c, o = some c ∧ c.hasSpindle
  mounted : ∀ n, p.mounted = .booked n ↔ ∃ c, o = some c ∧ c.number = n ∧ c.hasSpindle
  rack : ∀ n, p.rack = .booked n ↔ ∃ c, o = some c ∧ c.number = n ∧ c.hasRack
  sister : p.sister.isSome = true ↔ p.need ≠ .noNeed ∧ p.need ≠ .waiting
  required : p.need ≠ .noNeed → p.required.isSome = true
  staging : p.need = .staging → ∃ c, o = some c ∧ c.incoming = p.sister ∧ (c.kind = .stage ∨ c.kind = .direct)
  staged : ∀ i, p.need = .staged → p.sister = some i →
    p.rack = .entry i ∨ ∃ c, o = some c ∧ c.busy = true ∧ c.kind = .exchange ∧ c.incoming = some i
  flag : p.returnWaiting = true → o = none ∧ ∃ i, p.rack = .entry i ∧ p.sister ≠ some i
  order : ∀ c, o = some c → c.Formed ∧ (c.busy = true → c.Out p) ∧ (c.busy = false → c.Posted p)

/-- The position claims the tool: its rack, its spindle or its need names it, or its order has it out. -/
def Claims (p : Position) (o : Option Order) (i : EntryIx) : Prop :=
  p.rack = .entry i ∨ p.mounted = .entry i ∨ p.sister = some i ∨ ∃ c, o = some c ∧ c.busy = true ∧ c.Has i

/-- Tool `t`, entry `i`, lies as the position `x` that claims it says. -/
structure Lies (x : PosIx) (p : Position) (o : Option Order) (i : EntryIx) (t : Tool) : Prop where
  promised : t.promised = if p.sister = some i then some x else none
  rack : p.rack = .entry i → t.place = .rack x ∧ t.state = if p.sister = some i then .staged else .offloaded
  mounted : p.mounted = .entry i → t.place = .spindle x ∧ t.state = .mounted ∧ p.sister ≠ some i
  moving : ∀ c, o = some c → c.busy = true → c.Has i → t.place = .gripper ∧ t.state = .moving
  stored : p.sister = some i → p.need = .reserved ∨ p.need = .staging ∧ (∀ c, o = some c → c.busy = false) →
    t.state = .reserved ∧ ∃ k, t.place = .pocket k ∧ ∀ c, o = some c → p.need = .staging → c.pocket = some k

/-- The tool lies where no position claims it: in the store without a promise, or lost. -/
def Tool.Loose (t : Tool) : Prop :=
  t.promised = none ∧
    (t.state = .stored ∧ (∃ k, t.place = .pocket k) ∨ t.state = .quarantined ∧ ((∃ k, t.place = .pocket k) ∨ t.place = .unknown))

/-- The order has the pocket booked. -/
def Books (o : Option Order) (k : PocketIx) (n : Nat) : Prop :=
  ∃ c, o = some c ∧ c.number = n ∧ c.pocket = some k ∧ c.hasPocket

/-- The cell agrees, `f` giving each position its order. -/
structure Agrees (s : State) (f : PosIx → Option Order) : Prop where
  stands : Stands s f
  shape : ∀ x, Shape (s.pos x) (f x)
  claimed : ∀ x i, Claims (s.pos x) (f x) i → ∃ t, s.tool i = some t ∧ Lies x (s.pos x) (f x) i t
  loose : ∀ i t, s.tool i = some t → (∃ x, Claims (s.pos x) (f x) i) ∨ t.Loose
  stored : ∀ k i, s.pocket k = .holds i ↔ ∃ t, s.tool i = some t ∧ t.place = .pocket k
  booked : ∀ k n, s.pocket k = .booked n ↔ ∃ x, Books (f x) k n
  numbers : ∀ x y c d, f x = some c → f y = some d → c.number = d.number → x = y
  oneOut : ∀ x y c d, f x = some c → f y = some d → c.busy = true → d.busy = true → x = y

/-! ## A claim belongs to one position -/

section
variable {x y : PosIx} {p q : Position} {o r : Option Order} {i : EntryIx} {t : Tool} {s : State} {f : PosIx → Option Order}

/-- How a claimed tool lies: on the rack, on the spindle, out, or in the store. -/
theorem Lies.cases (hl : Lies x p o i t) (hs : Shape p o) (hc : Claims p o i) :
    t.place = .rack x ∧ p.rack = .entry i ∧ (t.state = .staged ∧ p.sister = some i ∨ t.state = .offloaded ∧ p.sister ≠ some i) ∨
    t.place = .spindle x ∧ p.mounted = .entry i ∧ t.state = .mounted ∧ p.sister ≠ some i ∨
    t.place = .gripper ∧ t.state = .moving ∧ (∃ c, o = some c ∧ c.busy = true ∧ c.Has i) ∨
    (∃ k, t.place = .pocket k) ∧ t.state = .reserved ∧ p.sister = some i := by
  by_cases hrack : p.rack = .entry i
  · obtain ⟨hplace, hstate⟩ := hl.rack hrack
    by_cases hsis : p.sister = some i
    · rw [if_pos hsis] at hstate
      exact .inl ⟨hplace, hrack, .inl ⟨hstate, hsis⟩⟩
    · rw [if_neg hsis] at hstate
      exact .inl ⟨hplace, hrack, .inr ⟨hstate, hsis⟩⟩
  by_cases hmounted : p.mounted = .entry i
  · obtain ⟨hplace, hstate, hsis⟩ := hl.mounted hmounted
    exact .inr (.inl ⟨hplace, hmounted, hstate, hsis⟩)
  by_cases hout : ∃ c, o = some c ∧ c.busy = true ∧ c.Has i
  · obtain ⟨c, hc, hb, hi⟩ := hout
    obtain ⟨hplace, hstate⟩ := hl.moving c hc hb hi
    exact .inr (.inr (.inl ⟨hplace, hstate, c, hc, hb, hi⟩))
  have hsis : p.sister = some i := by
    obtain h | h | h | h := hc
    · exact absurd h hrack
    · exact absurd h hmounted
    · exact h
    · exact absurd h hout
  have hneed := hs.sister.mp (by rw [hsis]; rfl)
  have hstore : p.need = .reserved ∨ p.need = .staging ∧ ∀ c, o = some c → c.busy = false := by
    cases hn : p.need with
    | noNeed => exact absurd hn hneed.1
    | waiting => exact absurd hn hneed.2
    | reserved => exact .inl rfl
    | staging =>
      refine .inr ⟨rfl, fun c hc => ?_⟩
      obtain ⟨d, hd, hin, -⟩ := hs.staging hn
      obtain rfl : d = c := Option.some.inj (hd.symm.trans hc)
      exact Bool.eq_false_iff.mpr fun hb => hout ⟨d, hd, hb, .inl (hin.trans hsis)⟩
    | staged =>
      obtain h | ⟨c, hc, hb, -, hin⟩ := hs.staged i hn hsis
      · exact absurd h hrack
      · exact absurd ⟨c, hc, hb, .inl hin⟩ hout
  obtain ⟨hstate, k, hk, -⟩ := hl.stored hsis hstore
  exact .inr (.inr (.inr ⟨⟨k, hk⟩, hstate, hsis⟩))

/-- A claimed tool is promised to the position whose sister it is. -/
theorem Lies.promised_iff (hl : Lies x p o i t) : t.promised = some y ↔ p.sister = some i ∧ x = y := by
  rw [hl.promised]
  split <;> simp_all

theorem Agrees.claimant (h : Agrees s f) (hx : Claims (s.pos x) (f x) i) (hy : Claims (s.pos y) (f y) i) : x = y := by
  obtain ⟨t, ht, hlx⟩ := h.claimed x i hx
  obtain ⟨u, hu, hly⟩ := h.claimed y i hy
  obtain rfl : t = u := Option.some.inj (ht.symm.trans hu)
  obtain ⟨hp, hr, hs⟩ | ⟨hp, hr, hs, hn⟩ | ⟨hp, hs, c, hc, hb, -⟩ | ⟨⟨k, hp⟩, hs, hn⟩ := hlx.cases (h.shape x) hx <;>
  obtain ⟨hp', hr', hs'⟩ | ⟨hp', hr', hs', hn'⟩ | ⟨hp', hs', d, hd, hb', -⟩ | ⟨⟨k', hp'⟩, hs', hn'⟩ :=
    hly.cases (h.shape y) hy <;> rw [hp] at hp'
  case inl.inl => exact Place.rack.inj hp'
  case inr.inl.inr.inl => exact Place.spindle.inj hp'
  case inr.inr.inl.inr.inr.inl => exact h.oneOut x y c d hc hd hb hb'
  case inr.inr.inr.inr.inr.inr => exact (hly.promised_iff.mp (hlx.promised_iff.mpr ⟨hn, rfl⟩)).2.symm
  all_goals cases hp'

/-- A loose tool is claimed by no position. -/
theorem Agrees.not_claims_of_loose (h : Agrees s f) (ht : s.tool i = some t) (hl : t.Loose) :
    ¬Claims (s.pos x) (f x) i := by
  intro hx
  obtain ⟨u, hu, hlx⟩ := h.claimed x i hx
  obtain rfl : t = u := Option.some.inj (ht.symm.trans hu)
  obtain ⟨-, ⟨hstate, -⟩ | ⟨hstate, -⟩⟩ := hl
  all_goals
    obtain ⟨-, -, ⟨hs, -⟩ | ⟨hs, -⟩⟩ | ⟨-, -, hs, -⟩ | ⟨-, hs, -⟩ | ⟨-, hs, -⟩ := hlx.cases (h.shape x) hx <;>
    · rw [hstate] at hs
      cases hs

theorem Agrees.not_claims_of_free (h : Agrees s f) (ht : s.tool i = none) : ¬Claims (s.pos x) (f x) i := by
  intro hx
  obtain ⟨u, hu, -⟩ := h.claimed x i hx
  rw [ht] at hu
  cases hu

/-- A tool that a position claims, as it lies. -/
theorem Agrees.lies (h : Agrees s f) (hx : Claims (s.pos x) (f x) i) (ht : s.tool i = some t) :
    Lies x (s.pos x) (f x) i t := by
  obtain ⟨u, hu, hl⟩ := h.claimed x i hx
  obtain rfl : t = u := Option.some.inj (ht.symm.trans hu)
  exact hl

end

end Sys2Proof.Machine

/-! PROOFS. The law of the cell is the agreement of its positions. -/
namespace Sys2Proof.Machine

section
variable {s : State}

/-! ## From the law: one order of a position -/

/-- An order has the rack booked, or names the tool that lies there. -/
theorem CellLaw.order_rack (h : CellLaw s) {o : Order} (ho : o ∈ s.standing) :
    o.hasRack ∧ (s.pos o.pos).rack = .booked o.number ∨
      ¬o.hasRack ∧ o.busy = false ∧ ∃ i, (s.pos o.pos).rack = .entry i ∧ o.Has i := by
  by_cases hr : o.hasRack
  · exact .inl ⟨hr, (h.bookings.1 o ho).1 hr⟩
  have hbusy : o.busy = false := Bool.eq_false_iff.mpr fun hb => hr (.inr (.inr (.inr hb)))
  have hw := (h.orders.1 o ho).2 hbusy
  refine .inr ⟨hr, hbusy, ?_⟩
  cases hk : o.kind with
  | exchange =>
    simp only [Order.Waits, hk] at hw
    obtain ⟨⟨i, hi, t, ht, -, hpl⟩, -⟩ := hw
    have hplace := h.places.1 i t ht
    rw [hpl] at hplace
    exact ⟨i, hplace.1, .inl hi⟩
  | return_ =>
    simp only [Order.Waits, hk] at hw
    obtain ⟨i, hi, t, ht, -, hpl⟩ := hw
    have hplace := h.places.1 i t ht
    rw [hpl] at hplace
    exact ⟨i, hplace.1, .inr hi⟩
  | stage => exact absurd (.inl hk) hr
  | direct => exact absurd (.inr (.inl hk)) hr
  | remove => exact absurd (.inr (.inr (.inl hk))) hr

/-- A position has one standing order at most. -/
theorem CellLaw.order_unique (h : CellLaw s) (hs : OrderLaw s) {o q : Order} (ho : o ∈ s.standing) (hq : q ∈ s.standing)
    (hpos : o.pos = q.pos) : o = q := by
  have hor := h.order_rack ho
  have hqr := h.order_rack hq
  rw [← hpos] at hqr
  obtain ⟨-, hr⟩ | ⟨-, -, i, hr, hi⟩ := hor <;> obtain ⟨-, hr'⟩ | ⟨-, -, j, hr', hj⟩ := hqr <;> rw [hr] at hr'
  · exact eq_of_number_eq hs.numbers ho hq (Holding.booked.inj hr')
  · cases hr'
  · cases hr'
  · obtain rfl : i = j := Holding.entry.inj hr'
    exact h.orders.2 i o ho q hq hi hj

/-- The standing order of each position. -/
def State.orderAt (s : State) (x : PosIx) : Option Order := (s.standing.find? fun o => decide (o.pos = x)).map Order.core

theorem CellLaw.stands (h : CellLaw s) (hs : OrderLaw s) : Stands s s.orderAt := by
  intro x c
  constructor
  · intro hc
    obtain ⟨o, ho, rfl⟩ := Option.map_eq_some_iff.mp hc
    exact ⟨o, List.mem_of_find?_eq_some ho, of_decide_eq_true (List.find?_some (p := fun o : Order => decide (o.pos = x)) ho), rfl⟩
  · rintro ⟨o, ho, rfl, rfl⟩
    rw [State.orderAt]
    cases hf : s.standing.find? fun q => decide (q.pos = o.pos) with
    | none => exact absurd (decide_eq_true rfl) (List.find?_eq_none.mp hf o ho)
    | some q =>
      have hq : q.pos = o.pos := of_decide_eq_true (List.find?_some (p := fun q : Order => decide (q.pos = o.pos)) hf)
      rw [h.order_unique hs (List.mem_of_find?_eq_some hf) ho hq]
      rfl

/-- The statements about the standing order of a position are statements about its record's order. -/
theorem CellLaw.of_orderAt (h : CellLaw s) (hs : OrderLaw s) {x : PosIx} {c : Order} (hc : s.orderAt x = some c) :
    ∃ o ∈ s.standing, o.pos = x ∧ o.core = c := (h.stands hs x c).mp hc

theorem CellLaw.orderAt_of (h : CellLaw s) (hs : OrderLaw s) {o : Order} (ho : o ∈ s.standing) :
    s.orderAt o.pos = some o.core := (h.stands hs o.pos o.core).mpr ⟨o, ho, rfl, rfl⟩

/-! ## From the law: shapes -/

theorem Order.Shaped.formed {o : Order} (h : o.Shaped s) : o.Formed :=
  ⟨h.incoming, h.outgoing, h.staged, h.pocket, h.noPocket, h.distinct⟩

theorem CellLaw.lies_rack (h : CellLaw s) {x : PosIx} {i : EntryIx} {t : Tool} (ht : s.tool i = some t)
    (hp : t.place = .rack x) : (s.pos x).rack = .entry i := by
  have hplace := h.places.1 i t ht
  rw [hp] at hplace
  exact hplace.1

theorem CellLaw.lies_spindle (h : CellLaw s) {x : PosIx} {i : EntryIx} {t : Tool} (ht : s.tool i = some t)
    (hp : t.place = .spindle x) : (s.pos x).mounted = .entry i := by
  have hplace := h.places.1 i t ht
  rw [hp] at hplace
  exact hplace.1

theorem CellLaw.promised_of_sister (h : CellLaw s) {x : PosIx} {i : EntryIx} (hi : (s.pos x).sister = some i) :
    ∃ t, s.tool i = some t ∧ t.promised = some x := by
  obtain ⟨t, ht⟩ := Option.isSome_iff_exists.mp (h.promises.2.1 x i hi)
  exact ⟨t, ht, (h.promises.1 i t ht x).mpr hi⟩

/-- A tool in a state that goes without a promise is no sister. -/
theorem CellLaw.not_sister (h : CellLaw s) {x : PosIx} {i : EntryIx} {t : Tool} (ht : s.tool i = some t)
    (hstate : t.state = .stored ∨ t.state = .mounted ∨ t.state = .offloaded ∨ t.state = .quarantined) :
    (s.pos x).sister ≠ some i := by
  intro hi
  have hp := (h.promises.1 i t ht x).mpr hi
  rw [(h.promises.2.2.2.2 i t ht).1 hstate] at hp
  cases hp

theorem CellLaw.posted (h : CellLaw s) {o : Order} (ho : o ∈ s.standing) (hb : o.busy = false) :
    o.core.Posted (s.pos o.pos) := by
  have hw := (h.orders.1 o ho).2 hb
  have hr := h.order_rack ho
  unfold Order.Waits at hw
  unfold Order.Posted
  rw [Order.core_kind]
  cases hk : o.kind <;> simp only [hk, reduceCtorEq, false_imp_iff, forall_const, true_and, and_true] at hw ⊢
  · obtain ⟨k, -, -, hsis, hneed⟩ := hw
    exact ⟨hsis, hneed⟩
  · obtain ⟨⟨i, hi, t, ht, -, hpl⟩, hsis, hneed, ⟨hserv, j, hj, u, hu, -, hpl'⟩ | ⟨hserv, hj⟩⟩ := hw
    · exact ⟨hsis, hneed, ⟨i, hi, h.lies_rack ht hpl⟩, .inl ⟨hserv, j, hj, h.lies_spindle hu hpl'⟩⟩
    · exact ⟨hsis, hneed, ⟨i, hi, h.lies_rack ht hpl⟩, .inr ⟨hserv, hj⟩⟩
  · obtain ⟨-, ⟨j, hj, u, hu, -, hpl⟩, hsis, hneed, hserv⟩ := hw
    exact ⟨hsis, hneed, hserv, j, hj, h.lies_spindle hu hpl⟩
  · obtain ⟨⟨j, hj, u, hu, -, hpl⟩, hserv, hreq⟩ := hw
    exact ⟨hserv, hreq, j, hj, h.lies_spindle hu hpl⟩
  · obtain ⟨j, hj, u, hu, hst, hpl⟩ := hw
    exact ⟨j, hj, h.lies_rack hu hpl, h.not_sister hu (.inr (.inr (.inl hst)))⟩

/-- A tool that an order has out moves. -/
theorem CellLaw.moves (h : CellLaw s) (hs : OrderLaw s) {o : Order} (ho : o ∈ s.standing) (hb : o.busy = true) {i : EntryIx}
    (hi : o.Has i) : ∃ t, s.tool i = some t ∧ t.state = .moving ∧ t.place = .gripper := by
  obtain ⟨t, ht⟩ := Option.isSome_iff_exists.mp ((h.orders.1 o ho).1.live i hi)
  have hq : o ∈ s.ret.queue := by
    refine (List.mem_append.mp ho).resolve_right fun hback => ?_
    rw [busy_of_backlog (hs.backlog o hback)] at hb
    cases hb
  have hstate : t.state = .moving := (h.moving i t ht).mpr ⟨o, hq, hb, hi⟩
  have hplace := h.places.1 i t ht
  refine ⟨t, ht, hstate, ?_⟩
  cases hp : t.place <;> simp_all

theorem CellLaw.out (h : CellLaw s) (hs : OrderLaw s) {o : Order} (ho : o ∈ s.standing) (hb : o.busy = true) :
    o.core.Out (s.pos o.pos) := by
  refine ⟨?_, fun hsp => ?_⟩
  · cases hj : o.outgoing with
    | none => exact .inl hj
    | some j =>
      refine .inr fun hsis => ?_
      rw [Order.core_outgoing, hj] at hsis
      obtain ⟨t, ht, hstate, -⟩ := h.moves hs ho hb (.inr hj)
      have hneeds := h.needs o.pos j hsis t ht
      have hshaped := (h.orders.1 o ho).1
      have hnot : ∀ q ∈ s.standing, q.pos = o.pos → q.incoming ≠ some j := by
        intro q hq hpos hin
        obtain rfl := h.order_unique hs hq ho hpos
        obtain hd | hd := hshaped.distinct
        · rw [hin] at hd
          cases hd
        · exact hd (hin.trans hj.symm)
      have hsome := (h.promises.2.2.1 o.pos).mp (by rw [hsis]; rfl)
      cases hn : (s.pos o.pos).need with
      | noNeed => exact hsome.1 hn
      | waiting => exact hsome.2 hn
      | reserved =>
        have hr := hneeds.1 hn
        rw [hstate] at hr
        cases hr
      | staging =>
        obtain ⟨-, q, hq, hpos, hin, -⟩ := hneeds.2.1 hn
        exact hnot q hq hpos hin
      | staged =>
        obtain ⟨hr, -⟩ | ⟨-, q, hq, hpos, hin, -⟩ := hneeds.2.2 hn
        · rw [hstate] at hr
          cases hr
        · exact hnot q hq hpos hin
  · obtain ⟨hneed, hsis⟩ | ⟨-, hsome, hsis⟩ := h.exchanges o ho ⟨hb, by simpa using hsp.2⟩
    · exact .inl ⟨hneed, hsis⟩
    · exact .inr ⟨hsome, hsis⟩

theorem Order.core_hasRack {o : Order} : o.core.hasRack ↔ o.hasRack := by simp [Order.hasRack]
theorem Order.core_hasSpindle {o : Order} : o.core.hasSpindle ↔ o.hasSpindle := by simp [Order.hasSpindle]
theorem Order.core_hasPocket {o : Order} : o.core.hasPocket ↔ o.hasPocket := by simp [Order.hasPocket]

/-- What the order of a position has is what a standing order of the position has. -/
theorem CellLaw.exists_orderAt (h : CellLaw s) (hs : OrderLaw s) (x : PosIx) {P : Order → Prop} {Q : Order → Prop}
    (hPQ : ∀ o, P o.core ↔ Q o) :
    (∃ c, s.orderAt x = some c ∧ P c) ↔ ∃ o ∈ s.standing, o.pos = x ∧ Q o := by
  constructor
  · rintro ⟨c, hc, hP⟩
    obtain ⟨o, ho, hpos, rfl⟩ := h.of_orderAt hs hc
    exact ⟨o, ho, hpos, (hPQ o).mp hP⟩
  · rintro ⟨o, ho, rfl, hQ⟩
    exact ⟨o.core, h.orderAt_of hs ho, (hPQ o).mpr hQ⟩

theorem CellLaw.mounted_iff (h : CellLaw s) (hs : OrderLaw s) (x : PosIx) (n : Nat) :
    (s.pos x).mounted = .booked n ↔ ∃ c, s.orderAt x = some c ∧ c.number = n ∧ c.hasSpindle := by
  rw [h.exists_orderAt hs x (P := fun c => c.number = n ∧ c.hasSpindle) (Q := fun o => o.number = n ∧ o.hasSpindle)
    fun o => and_congr_right fun _ => Order.core_hasSpindle]
  constructor
  · intro hm
    obtain ⟨o, ho, hn, hpos, hsp⟩ := h.bookings.2.2.1 x n hm
    exact ⟨o, ho, hpos, hn, hsp⟩
  · rintro ⟨o, ho, rfl, rfl, hsp⟩
    exact (h.bookings.1 o ho).2.1 hsp

theorem CellLaw.rack_iff (h : CellLaw s) (hs : OrderLaw s) (x : PosIx) (n : Nat) :
    (s.pos x).rack = .booked n ↔ ∃ c, s.orderAt x = some c ∧ c.number = n ∧ c.hasRack := by
  rw [h.exists_orderAt hs x (P := fun c => c.number = n ∧ c.hasRack) (Q := fun o => o.number = n ∧ o.hasRack)
    fun o => and_congr_right fun _ => Order.core_hasRack]
  constructor
  · intro hm
    obtain ⟨o, ho, hn, hpos, hr⟩ := h.bookings.2.1 x n hm
    exact ⟨o, ho, hpos, hn, hr⟩
  · rintro ⟨o, ho, rfl, rfl, hr⟩
    exact (h.bookings.1 o ho).1 hr

/-- A position is EXCHANGING exactly while an order works on its spindle. -/
theorem CellLaw.exchanging_iff (h : CellLaw s) (hs : OrderLaw s) (x : PosIx) :
    (s.pos x).service = .exchanging ↔ ∃ c, s.orderAt x = some c ∧ c.hasSpindle := by
  rw [h.exists_orderAt hs x (P := Order.hasSpindle) (Q := Order.hasSpindle) fun _ => Order.core_hasSpindle]
  have hsp := h.spindles x
  constructor
  · intro he
    rwa [he] at hsp
  · rintro ⟨o, ho, rfl, ho'⟩
    have hm := (h.bookings.1 o ho).2.1 ho'
    have hnoEntry : ¬∃ i, (s.pos o.pos).mounted = .entry i := fun ⟨i, hi⟩ => by
      rw [hm] at hi
      cases hi
    cases he : (s.pos o.pos).service with
    | exchanging => rfl
    | uncertain =>
      rw [he] at hsp
      exact absurd hm (hsp o ho)
    | vacant =>
      rw [he, hm] at hsp
      cases hsp
    | serving | due | held | released =>
      rw [he] at hsp
      exact absurd hsp hnoEntry

theorem CellLaw.shape (h : CellLaw s) (hs : OrderLaw s) (x : PosIx) : Shape (s.pos x) (s.orderAt x) where
  occupied := by
    have hsp := h.spindles x
    rintro (he | he | he | he) <;> rwa [he] at hsp
  vacant he := by
    have hsp := h.spindles x
    rwa [he] at hsp
  exchanging := h.exchanging_iff hs x
  mounted := h.mounted_iff hs x
  rack := h.rack_iff hs x
  sister := h.promises.2.2.1 x
  required := h.promises.2.2.2.1 x
  staging hn := by
    obtain ⟨i, hi⟩ := Option.isSome_iff_exists.mp ((h.promises.2.2.1 x).mpr (by rw [hn]; exact ⟨nofun, nofun⟩))
    obtain ⟨t, ht, -⟩ := h.promised_of_sister hi
    obtain ⟨-, o, ho, rfl, hin, hk⟩ := (h.needs x i hi t ht).2.1 hn
    exact ⟨o.core, h.orderAt_of hs ho, hin.trans hi.symm, hk⟩
  staged i hn hi := by
    obtain ⟨t, ht, -⟩ := h.promised_of_sister hi
    obtain ⟨-, hp⟩ | ⟨hmove, o, ho, rfl, hin, hk⟩ := (h.needs x i hi t ht).2.2 hn
    · exact .inl (h.lies_rack ht hp)
    · refine .inr ⟨o.core, h.orderAt_of hs ho, ?_, hk, hin⟩
      obtain ⟨q, hq, hb, hname⟩ := (h.moving i t ht).mp hmove
      obtain rfl := h.orders.2 i q (List.mem_append_left _ hq) o ho hname (.inl hin)
      simpa using hb
  flag hf := by
    obtain ⟨i, hr, ⟨t, ht, hst⟩, hnone⟩ := h.returns x hf
    refine ⟨?_, i, hr, h.not_sister ht (.inr (.inr (.inl hst)))⟩
    cases hc : s.orderAt x with
    | none => rfl
    | some c =>
      obtain ⟨o, ho, rfl, rfl⟩ := h.of_orderAt hs hc
      obtain ⟨-, hb⟩ | ⟨-, -, j, hj, hname⟩ := h.order_rack ho
      · rw [hr] at hb
        cases hb
      · obtain rfl : i = j := Holding.entry.inj (hr.symm.trans hj)
        exact absurd hname (not_or.mpr (hnone o ho))
  order c hc := by
    obtain ⟨o, ho, rfl, rfl⟩ := h.of_orderAt hs hc
    have hf := (h.orders.1 o ho).1.formed
    refine ⟨⟨hf.incoming, hf.outgoing, hf.staged, hf.pocket, hf.noPocket, hf.distinct⟩, fun hb => ?_, fun hb => ?_⟩
    · exact h.out hs ho (by simpa using hb)
    · exact h.posted ho (by simpa using hb)

/-! ## From the law: tools -/

/-- A sister is on its position's rack, out under its order, or reserved in its pocket. -/
theorem CellLaw.sister_cases (h : CellLaw s) {x : PosIx} {i : EntryIx} (hi : (s.pos x).sister = some i) {t : Tool}
    (ht : s.tool i = some t) :
    t.state = .staged ∧ t.place = .rack x ∨ t.state = .reserved ∨
      t.state = .moving ∧ ∃ o ∈ s.standing, o.pos = x ∧ o.incoming = some i := by
  have hneeds := h.needs x i hi t ht
  have hsome := (h.promises.2.2.1 x).mp (by rw [hi]; rfl)
  cases hn : (s.pos x).need with
  | noNeed => exact absurd hn hsome.1
  | waiting => exact absurd hn hsome.2
  | reserved => exact .inr (.inl (hneeds.1 hn))
  | staging =>
    obtain ⟨hr | hm, o, ho, hpos, hin, -⟩ := hneeds.2.1 hn
    · exact .inr (.inl hr)
    · exact .inr (.inr ⟨hm, o, ho, hpos, hin⟩)
  | staged =>
    obtain h | ⟨hm, o, ho, hpos, hin, -⟩ := hneeds.2.2 hn
    · exact .inl h
    · exact .inr (.inr ⟨hm, o, ho, hpos, hin⟩)

/-- A tool's promise is to the position that claims it. -/
theorem CellLaw.promised_eq (h : CellLaw s) {x : PosIx} {i : EntryIx} {t : Tool} (ht : s.tool i = some t)
    (honly : ∀ y, (s.pos y).sister = some i → y = x) : t.promised = if (s.pos x).sister = some i then some x else none := by
  split
  · next hi => exact (h.promises.1 i t ht x).mpr hi
  · next hi =>
    cases hp : t.promised with
    | none => rfl
    | some y =>
      have hy := (h.promises.1 i t ht y).mp hp
      exact absurd (honly y hy ▸ hy) hi

theorem CellLaw.reserved_pocket (h : CellLaw s) {i : EntryIx} {t : Tool} (ht : s.tool i = some t)
    (hst : t.state = .reserved) : ∃ k, t.place = .pocket k := by
  have hplace := h.places.1 i t ht
  cases hp : t.place <;> simp_all

theorem CellLaw.lies (h : CellLaw s) (hs : OrderLaw s) {x : PosIx} {i : EntryIx}
    (hc : Claims (s.pos x) (s.orderAt x) i) : ∃ t, s.tool i = some t ∧ Lies x (s.pos x) (s.orderAt x) i t := by
  have hlive : ∃ t, s.tool i = some t := by
    obtain hr | hm | hi | ⟨c, hc, hb, hname⟩ := hc
    · obtain ⟨t, ht, -⟩ := h.places.2.2.1 x i hr
      exact ⟨t, ht⟩
    · obtain ⟨t, ht, -⟩ := h.places.2.2.2 x i hm
      exact ⟨t, ht⟩
    · obtain ⟨t, ht, -⟩ := h.promised_of_sister hi
      exact ⟨t, ht⟩
    · obtain ⟨o, ho, rfl, rfl⟩ := h.of_orderAt hs hc
      obtain ⟨t, ht, -⟩ := h.moves hs ho (by simpa using hb) hname
      exact ⟨t, ht⟩
  obtain ⟨t, ht⟩ := hlive
  have hplaces := h.places.1 i t ht
  have hrack : (s.pos x).rack = .entry i → t.place = .rack x := fun hr => by
    obtain ⟨u, hu, hp⟩ := h.places.2.2.1 x i hr
    rwa [Option.some.inj (ht.symm.trans hu)]
  have hmounted : (s.pos x).mounted = .entry i → t.place = .spindle x := fun hr => by
    obtain ⟨u, hu, hp⟩ := h.places.2.2.2 x i hr
    rwa [Option.some.inj (ht.symm.trans hu)]
  have hmoving : ∀ c, s.orderAt x = some c → c.busy = true → c.Has i → t.place = .gripper ∧ t.state = .moving := by
    intro c hc hb hname
    obtain ⟨o, ho, rfl, rfl⟩ := h.of_orderAt hs hc
    obtain ⟨u, hu, hst, hp⟩ := h.moves hs ho (by simpa using hb) hname
    rw [Option.some.inj (ht.symm.trans hu)]
    exact ⟨hp, hst⟩
  have honly : ∀ y, (s.pos y).sister = some i → y = x := by
    intro y hy
    obtain hr | hm | hi | ⟨c, hc, hb, hname⟩ := hc
    · have hp := hrack hr
      rw [hp] at hplaces
      obtain ⟨-, hp'⟩ | hst | ⟨hst, -⟩ := h.sister_cases hy ht
      · exact Place.rack.inj (hp'.symm.trans hp)
      all_goals
        rw [hst] at hplaces
        obtain h | h := hplaces.2 <;> cases h
    · have hp := hmounted hm
      rw [hp] at hplaces
      exact absurd hy (h.not_sister ht (.inr (.inl hplaces.2)))
    · have hx := (h.promises.1 i t ht x).mpr hi
      rw [(h.promises.1 i t ht y).mpr hy] at hx
      exact Option.some.inj hx
    · have hst := (hmoving c hc hb hname).2
      obtain ⟨o, ho, rfl, rfl⟩ := h.of_orderAt hs hc
      obtain ⟨hst', -⟩ | hst' | ⟨-, q, hq, rfl, hin⟩ := h.sister_cases hy ht
      · rw [hst] at hst'
        cases hst'
      · rw [hst] at hst'
        cases hst'
      · rw [h.orders.2 i q hq o ho (.inl hin) hname]
  refine ⟨t, ht, h.promised_eq ht honly, fun hr => ?_, fun hm => ?_, hmoving, fun hi hneed => ?_⟩
  · refine ⟨hrack hr, ?_⟩
    rw [hrack hr] at hplaces
    split
    · next hi =>
      refine hplaces.2.resolve_right fun hst => ?_
      exact h.not_sister ht (.inr (.inr (.inl hst))) hi
    · next hi =>
      refine hplaces.2.resolve_left fun hst => ?_
      obtain ⟨y, hy⟩ := Option.isSome_iff_exists.mp ((h.promises.2.2.2.2 i t ht).2 (.inr hst))
      have hy' := (h.promises.1 i t ht y).mp hy
      exact hi (honly y hy' ▸ hy')
  · rw [hmounted hm] at hplaces
    exact ⟨hmounted hm, hplaces.2, h.not_sister ht (.inr (.inl hplaces.2))⟩
  · have hneeds := h.needs x i hi t ht
    have hst : t.state = .reserved := by
      obtain hn | ⟨hn, hall⟩ := hneed
      · exact hneeds.1 hn
      · refine (hneeds.2.1 hn).1.resolve_right fun hmove => ?_
        obtain ⟨-, o, ho, rfl, hin, -⟩ := hneeds.2.1 hn
        obtain ⟨q, hq, hb, hname⟩ := (h.moving i t ht).mp hmove
        obtain rfl := h.orders.2 i q (List.mem_append_left _ hq) o ho hname (.inl hin)
        have hidle := hall _ (h.orderAt_of hs ho)
        rw [Order.core_busy, hb] at hidle
        cases hidle
    obtain ⟨k, hk⟩ := h.reserved_pocket ht hst
    refine ⟨hst, k, hk, fun c hc hn => ?_⟩
    obtain ⟨o, ho, rfl, rfl⟩ := h.of_orderAt hs hc
    obtain ⟨-, q, hq, hpos, hin, hk'⟩ := hneeds.2.1 hn
    obtain rfl := h.order_unique hs hq ho hpos
    have hidle : q.busy = false := by
      obtain hn' | ⟨-, hall⟩ := hneed
      · rw [hn] at hn'
        cases hn'
      · simpa using hall _ hc
    have hw := (h.orders.1 q ho).2 hidle
    unfold Order.Waits at hw
    obtain hkind | hkind := hk' <;> simp only [hkind] at hw
    · obtain ⟨l, hl, ⟨j, hj, u, hu, -, hp⟩, -⟩ := hw
      obtain rfl : i = j := Option.some.inj (hin.symm.trans hj)
      obtain rfl : t = u := Option.some.inj (ht.symm.trans hu)
      rw [hk] at hp
      rw [Order.core_pocket, Place.pocket.inj hp]
      exact hl
    · obtain ⟨⟨l, hl, j, hj, u, hu, -, hp⟩, -⟩ := hw
      obtain rfl : i = j := Option.some.inj (hin.symm.trans hj)
      obtain rfl : t = u := Option.some.inj (ht.symm.trans hu)
      rw [hk] at hp
      rw [Order.core_pocket, Place.pocket.inj hp]
      exact hl

/-- The law of the cell makes its positions agree. -/
theorem CellLaw.agrees (h : CellLaw s) (hs : OrderLaw s) : Agrees s s.orderAt where
  stands := h.stands hs
  shape := h.shape hs
  claimed _ _ hc := h.lies hs hc
  loose i t ht := by
    have hplaces := h.places.1 i t ht
    have hnone : t.state = .stored ∨ t.state = .mounted ∨ t.state = .offloaded ∨ t.state = .quarantined → t.promised = none :=
      (h.promises.2.2.2.2 i t ht).1
    cases hp : t.place with
    | pocket k =>
      rw [hp] at hplaces
      obtain ⟨-, hst | hst | hst⟩ := hplaces
      · exact .inr ⟨hnone (.inl hst), .inl ⟨hst, k, hp⟩⟩
      · obtain ⟨y, hy⟩ := Option.isSome_iff_exists.mp ((h.promises.2.2.2.2 i t ht).2 (.inl hst))
        exact .inl ⟨y, .inr (.inr (.inl ((h.promises.1 i t ht y).mp hy)))⟩
      · exact .inr ⟨hnone (.inr (.inr (.inr hst))), .inr ⟨hst, .inl ⟨k, hp⟩⟩⟩
    | rack x => exact .inl ⟨x, .inl (h.lies_rack ht hp)⟩
    | spindle x => exact .inl ⟨x, .inr (.inl (h.lies_spindle ht hp))⟩
    | gripper =>
      rw [hp] at hplaces
      obtain ⟨o, ho, hb, hname⟩ := (h.moving i t ht).mp hplaces
      have ho' : o ∈ s.standing := List.mem_append_left _ ho
      exact .inl ⟨o.pos, .inr (.inr (.inr ⟨o.core, h.orderAt_of hs ho', by simpa using hb, hname⟩))⟩
    | unknown =>
      rw [hp] at hplaces
      exact .inr ⟨hnone (.inr (.inr (.inr hplaces))), .inr ⟨hplaces, .inr hp⟩⟩
  stored k i := by
    refine ⟨h.places.2.1 k i, fun ⟨t, ht, hp⟩ => ?_⟩
    have hplaces := h.places.1 i t ht
    rw [hp] at hplaces
    exact hplaces.1
  booked k n := by
    constructor
    · intro hk
      obtain ⟨o, ho, hn, hpk, hpocket⟩ := h.bookings.2.2.2 k n hk
      exact ⟨o.pos, o.core, h.orderAt_of hs ho, hn, hpk, Order.core_hasPocket.mpr hpocket⟩
    · rintro ⟨x, c, hc, rfl, hk, hpocket⟩
      obtain ⟨o, ho, rfl, rfl⟩ := h.of_orderAt hs hc
      exact (h.bookings.1 o ho).2.2 (Order.core_hasPocket.mp hpocket) k hk
  numbers x y c d hc hd hn := by
    obtain ⟨o, ho, rfl, rfl⟩ := h.of_orderAt hs hc
    obtain ⟨q, hq, rfl, rfl⟩ := h.of_orderAt hs hd
    rw [eq_of_number_eq hs.numbers ho hq hn]
  oneOut x y c d hc hd hb hb' := by
    obtain ⟨o, ho, rfl, rfl⟩ := h.of_orderAt hs hc
    obtain ⟨q, hq, rfl, rfl⟩ := h.of_orderAt hs hd
    rw [Order.core_busy] at hb hb'
    have hmem : ∀ r ∈ s.standing, r.busy = true → r ∈ s.ret.queue := fun r hr hbr =>
      (List.mem_append.mp hr).resolve_right fun hback => by
        rw [busy_of_backlog (hs.backlog r hback)] at hbr
        cases hbr
    by_contra hne
    have hoq : o ≠ q := fun he => hne (by rw [he])
    have hsym : Std.Symm fun a b : Order => ¬(a.busy = true ∧ b.busy = true) := ⟨fun a b h hb => h hb.symm⟩
    exact hs.oneBusy.forall (hmem o ho hb) (hmem q hq hb') hoq ⟨hb, hb'⟩

end

end Sys2Proof.Machine

/-! PROOFS. Positions that agree make a lawful cell. -/
namespace Sys2Proof.Machine

section
variable {s : State} {f : PosIx → Option Order}

theorem Agrees.orderAt_of (h : Agrees s f) {o : Order} (ho : o ∈ s.standing) : f o.pos = some o.core :=
  (h.stands o.pos o.core).mpr ⟨o, ho, rfl, rfl⟩

theorem Agrees.of_orderAt (h : Agrees s f) {x : PosIx} {c : Order} (hc : f x = some c) :
    ∃ o ∈ s.standing, o.pos = x ∧ o.core = c := (h.stands x c).mp hc

/-- A tool of an order is claimed by the order's position. -/
theorem Agrees.claims_of_has (h : Agrees s f) {x : PosIx} {c : Order} (hc : f x = some c) {i : EntryIx} (hi : c.Has i) :
    Claims (s.pos x) (f x) i := by
  cases hb : c.busy with
  | true => exact .inr (.inr (.inr ⟨c, hc, hb, hi⟩))
  | false =>
    obtain ⟨hformed, -, hposted⟩ := (h.shape x).order c hc
    have hp := hposted hb
    have hin := hformed.incoming
    unfold Order.Posted at hp
    cases hk : c.kind <;> simp only [hk, reduceCtorEq, false_imp_iff, forall_const, true_and, and_true] at hp <;> obtain hi | hi := hi
    · exact .inr (.inr (.inl (hp.1.trans hi)))
    · rw [hformed.staged hk] at hi
      cases hi
    · exact .inr (.inr (.inl (hp.1.trans hi)))
    · obtain ⟨-, -, -, ⟨-, j, hj, hm⟩ | ⟨-, hj⟩⟩ := hp
      · rw [hi] at hj
        exact .inr (.inl (hm.trans (congrArg _ (Option.some.inj hj).symm)))
      · rw [hi] at hj
        cases hj
    · exact .inr (.inr (.inl (hp.1.trans hi)))
    · obtain ⟨-, -, -, j, hj, hm⟩ := hp
      rw [hi] at hj
      exact .inr (.inl (hm.trans (congrArg _ (Option.some.inj hj).symm)))
    · simp [hi, hk] at hin
    · obtain ⟨-, -, j, hj, hm⟩ := hp
      rw [hi] at hj
      exact .inr (.inl (hm.trans (congrArg _ (Option.some.inj hj).symm)))
    · simp [hi, hk] at hin
    · obtain ⟨j, hj, hm, -⟩ := hp
      rw [hi] at hj
      exact .inl (hm.trans (congrArg _ (Option.some.inj hj).symm))

/-- A live tool is loose, or lies as the one position that claims it says. -/
theorem Agrees.tool_cases (h : Agrees s f) {i : EntryIx} {t : Tool} (ht : s.tool i = some t) :
    t.Loose ∨ ∃ x, Claims (s.pos x) (f x) i ∧ Lies x (s.pos x) (f x) i t :=
  (h.loose i t ht).symm.imp_right fun ⟨x, hx⟩ => ⟨x, hx, h.lies hx ht⟩

theorem Agrees.places (h : Agrees s f) : PlacesAgree s := by
  refine ⟨fun i t ht => ?_, fun k i => (h.stored k i).mp, fun x i hr => ?_, fun x i hm => ?_⟩
  · have hpocket : ∀ k, t.place = .pocket k → s.pocket k = .holds i := fun k hp => (h.stored k i).mpr ⟨t, ht, hp⟩
    obtain ⟨-, ⟨hst, k, hp⟩ | ⟨hst, ⟨k, hp⟩ | hp⟩⟩ | ⟨x, hx, hl⟩ := h.tool_cases ht
    · rw [hp]
      exact ⟨hpocket k hp, .inl hst⟩
    · rw [hp]
      exact ⟨hpocket k hp, .inr (.inr hst)⟩
    · rw [hp]
      exact hst
    · obtain ⟨hp, hr, ⟨hst, -⟩ | ⟨hst, -⟩⟩ | ⟨hp, hm, hst, -⟩ | ⟨hp, hst, -⟩ | ⟨⟨k, hp⟩, hst, -⟩ := hl.cases (h.shape x) hx
      · rw [hp]
        exact ⟨hr, .inl hst⟩
      · rw [hp]
        exact ⟨hr, .inr hst⟩
      · rw [hp]
        exact ⟨hm, hst⟩
      · rw [hp]
        exact hst
      · rw [hp]
        exact ⟨hpocket k hp, .inr (.inl hst)⟩
  · obtain ⟨t, ht, hl⟩ := h.claimed x i (.inl hr)
    exact ⟨t, ht, (hl.rack hr).1⟩
  · obtain ⟨t, ht, hl⟩ := h.claimed x i (.inr (.inl hm))
    exact ⟨t, ht, (hl.mounted hm).1⟩

theorem Agrees.moving (h : Agrees s f) (hs : OrderLaw s) : MovingIsTaken s := by
  intro i t ht
  constructor
  · intro hst
    obtain ⟨-, ⟨hst', -⟩ | ⟨hst', -⟩⟩ | ⟨x, hx, hl⟩ := h.tool_cases ht
    · rw [hst] at hst'
      cases hst'
    · rw [hst] at hst'
      cases hst'
    · obtain ⟨-, -, ⟨hst', -⟩ | ⟨hst', -⟩⟩ | ⟨-, -, hst', -⟩ | ⟨-, -, c, hc, hb, hi⟩ | ⟨-, hst', -⟩ :=
        hl.cases (h.shape x) hx
      case inr.inr.inr.inl =>
        obtain ⟨o, ho, -, rfl⟩ := h.of_orderAt hc
        rw [Order.core_busy] at hb
        refine ⟨o, (List.mem_append.mp ho).resolve_right fun hback => ?_, hb, hi⟩
        rw [busy_of_backlog (hs.backlog o hback)] at hb
        cases hb
      all_goals
        rw [hst] at hst'
        cases hst'
  · rintro ⟨o, ho, hb, hi⟩
    have hc := h.orderAt_of (List.mem_append_left _ ho)
    have hb' : o.core.busy = true := by simpa using hb
    exact ((h.lies (.inr (.inr (.inr ⟨_, hc, hb', hi⟩))) ht).moving _ hc hb' hi).2

theorem Agrees.promised_iff (h : Agrees s f) {i : EntryIx} {t : Tool} (ht : s.tool i = some t) (x : PosIx) :
    t.promised = some x ↔ (s.pos x).sister = some i := by
  constructor
  · intro hp
    obtain ⟨hno, -⟩ | ⟨y, -, hl⟩ := h.tool_cases ht
    · rw [hp] at hno
      cases hno
    · obtain ⟨hsis, rfl⟩ := hl.promised_iff.mp hp
      exact hsis
  · intro hsis
    exact (h.lies (.inr (.inr (.inl hsis))) ht).promised_iff.mpr ⟨hsis, rfl⟩

theorem Agrees.promises (h : Agrees s f) : PromisesAgree s := by
  refine ⟨fun i t ht x => h.promised_iff ht x, fun x i hi => ?_, fun x => (h.shape x).sister, fun x => (h.shape x).required,
    fun i t ht => ?_⟩
  · obtain ⟨t, ht, -⟩ := h.claimed x i (.inr (.inr (.inl hi)))
    rw [ht]
    rfl
  · obtain ⟨hno, hst⟩ | ⟨x, hx, hl⟩ := h.tool_cases ht
    · refine ⟨fun _ => hno, fun hst' => ?_⟩
      obtain ⟨hst, -⟩ | ⟨hst, -⟩ := hst <;> rw [hst] at hst' <;> obtain h | h := hst' <;> cases h
    · have hp := hl.promised
      obtain ⟨-, -, ⟨hst, hsis⟩ | ⟨hst, hsis⟩⟩ | ⟨-, -, hst, hsis⟩ | ⟨-, hst, -⟩ | ⟨-, hst, hsis⟩ := hl.cases (h.shape x) hx <;>
        simp_all

theorem Agrees.needs (h : Agrees s f) : NeedsAgree s := by
  intro x i hi t ht
  rw [Option.mem_def] at hi ht
  have hl := h.lies (.inr (.inr (.inl hi))) ht
  refine ⟨fun hn => (hl.stored hi (.inl hn)).1, fun hn => ?_, fun hn => ?_⟩
  · obtain ⟨c, hc, hin, hk⟩ := (h.shape x).staging hn
    obtain ⟨o, ho, hpos, rfl⟩ := h.of_orderAt hc
    refine ⟨?_, o, ho, hpos, hin.trans hi, hk⟩
    cases hb : o.core.busy with
    | true => exact .inr (hl.moving _ hc hb (.inl (hin.trans hi))).2
    | false =>
      refine .inl (hl.stored hi (.inr ⟨hn, fun d hd => ?_⟩)).1
      rwa [← Option.some.inj (hc.symm.trans hd)]
  · obtain hr | ⟨c, hc, hb, hk, hin⟩ := (h.shape x).staged i hn hi
    · have hrack := hl.rack hr
      rw [if_pos hi] at hrack
      exact .inl ⟨hrack.2, hrack.1⟩
    · obtain ⟨o, ho, hpos, rfl⟩ := h.of_orderAt hc
      exact .inr ⟨(hl.moving _ hc hb (.inl hin)).2, o, ho, hpos, hin, hk⟩

theorem Agrees.spindles (h : Agrees s f) : SpindlesAgree s := by
  intro x
  have hs := h.shape x
  cases he : (s.pos x).service with
  | serving => exact hs.occupied (.inl he)
  | due => exact hs.occupied (.inr (.inl he))
  | held => exact hs.occupied (.inr (.inr (.inl he)))
  | released => exact hs.occupied (.inr (.inr (.inr he)))
  | vacant => exact hs.vacant he
  | exchanging =>
    obtain ⟨c, hc, hsp⟩ := hs.exchanging.mp he
    obtain ⟨o, ho, hpos, rfl⟩ := h.of_orderAt hc
    exact ⟨o, ho, hpos, Order.core_hasSpindle.mp hsp⟩
  | uncertain =>
    intro o _ hm
    obtain ⟨c, hc, -, hsp⟩ := (hs.mounted o.number).mp hm
    have := hs.exchanging.mpr ⟨c, hc, hsp⟩
    rw [he] at this
    cases this

theorem Agrees.bookings (h : Agrees s f) : BookingsAgree s := by
  refine ⟨fun o ho => ⟨fun hr => ?_, fun hsp => ?_, fun hp k hk => ?_⟩, fun x n hr => ?_, fun x n hm => ?_, fun k n hk => ?_⟩
  · exact ((h.shape o.pos).rack o.number).mpr ⟨_, h.orderAt_of ho, rfl, Order.core_hasRack.mpr hr⟩
  · exact ((h.shape o.pos).mounted o.number).mpr ⟨_, h.orderAt_of ho, rfl, Order.core_hasSpindle.mpr hsp⟩
  · exact (h.booked k o.number).mpr ⟨o.pos, _, h.orderAt_of ho, rfl, hk, Order.core_hasPocket.mpr hp⟩
  · obtain ⟨c, hc, hn, hr⟩ := ((h.shape x).rack n).mp hr
    obtain ⟨o, ho, hpos, rfl⟩ := h.of_orderAt hc
    exact ⟨o, ho, hn, hpos, Order.core_hasRack.mp hr⟩
  · obtain ⟨c, hc, hn, hsp⟩ := ((h.shape x).mounted n).mp hm
    obtain ⟨o, ho, hpos, rfl⟩ := h.of_orderAt hc
    exact ⟨o, ho, hn, hpos, Order.core_hasSpindle.mp hsp⟩
  · obtain ⟨x, c, hc, hn, hk, hp⟩ := (h.booked k n).mp hk
    obtain ⟨o, ho, -, rfl⟩ := h.of_orderAt hc
    exact ⟨o, ho, hn, hk, Order.core_hasPocket.mp hp⟩

theorem Agrees.shaped (h : Agrees s f) (hs : OrderLaw s) {o : Order} (ho : o ∈ s.standing) : o.Shaped s := by
  have hc := h.orderAt_of ho
  obtain ⟨hf, -⟩ := (h.shape o.pos).order _ hc
  refine ⟨?_, hf.incoming, hf.outgoing, hf.staged, hf.pocket, hf.noPocket, fun i hi => ?_, hf.distinct⟩
  · have := (hs.range o ho).1
    omega
  · obtain ⟨t, ht, -⟩ := h.claimed o.pos i (h.claims_of_has hc hi)
    rw [ht]
    rfl

/-- The mounted tool of a position. -/
theorem Agrees.tool_mounted (h : Agrees s f) {x : PosIx} {j : EntryIx} (hm : (s.pos x).mounted = .entry j) :
    ∃ t, s.tool j = some t ∧ t.state = .mounted ∧ t.place = .spindle x := by
  obtain ⟨t, ht, hl⟩ := h.claimed x j (.inr (.inl hm))
  obtain ⟨hp, hst, -⟩ := hl.mounted hm
  exact ⟨t, ht, hst, hp⟩

/-- The sister of a position whose STAGE or DIRECT has not been taken lies reserved in the order's pocket. -/
theorem Agrees.tool_staging (h : Agrees s f) {x : PosIx} {c : Order} (hc : f x = some c) (hb : c.busy = false)
    {i : EntryIx} (hi : (s.pos x).sister = some i) (hn : (s.pos x).need = .staging) :
    ∃ k, c.pocket = some k ∧ ∃ t, s.tool i = some t ∧ t.state = .reserved ∧ t.place = .pocket k := by
  obtain ⟨t, ht, hl⟩ := h.claimed x i (.inr (.inr (.inl hi)))
  obtain ⟨hst, k, hp, hk⟩ := hl.stored hi (.inr ⟨hn, fun d hd => by rwa [← Option.some.inj (hc.symm.trans hd)]⟩)
  exact ⟨k, hk c hc hn, t, ht, hst, hp⟩

theorem Agrees.waits (h : Agrees s f) {o : Order} (ho : o ∈ s.standing) (hb : o.busy = false) : o.Waits s := by
  have hc := h.orderAt_of ho
  have hb' : o.core.busy = false := by simpa using hb
  obtain ⟨hf, -, hposted⟩ := (h.shape o.pos).order _ hc
  have hp := hposted hb'
  have hin := hf.incoming
  unfold Order.Posted at hp
  unfold Order.Waits
  dsimp only
  rw [Order.core_kind] at hp hin
  have hstaging : (s.pos o.pos).sister = o.incoming → (s.pos o.pos).need = .staging → o.incoming.isSome = true →
      ∃ k ∈ o.pocket, ∃ i ∈ o.incoming, ∃ t ∈ s.tool i, t.state = .reserved ∧ t.place = .pocket k := by
    intro hsis hn hsome
    obtain ⟨i, hi⟩ := Option.isSome_iff_exists.mp hsome
    obtain ⟨k, hk, t, ht, hst, hpl⟩ := h.tool_staging hc hb' (hsis.trans hi) hn
    exact ⟨k, hk, i, hi, t, ht, hst, hpl⟩
  cases hk : o.kind <;> simp only [hk, reduceCtorEq, false_imp_iff, forall_const, true_and, and_true] at hp hin <;>
    dsimp only
  · obtain ⟨k, hk, hl⟩ := hstaging hp.1 hp.2 (by simpa using hin)
    exact ⟨k, hk, hl, hp⟩
  · obtain ⟨hsis, hn, ⟨i, hi, hr⟩, hspin⟩ := hp
    obtain ⟨t, ht, hl⟩ := h.claimed o.pos i (.inl hr)
    have hrack := hl.rack hr
    rw [if_pos (hsis.trans hi)] at hrack
    refine ⟨⟨i, hi, t, ht, hrack.2, hrack.1⟩, hsis, hn, hspin.imp (fun ⟨hs, j, hj, hm⟩ => ⟨hs, ?_⟩) id⟩
    obtain ⟨u, hu, hst, hpl⟩ := h.tool_mounted hm
    exact ⟨j, hj, u, hu, hst, hpl⟩
  · obtain ⟨hsis, hn, hserv, j, hj, hm⟩ := hp
    obtain ⟨k, hk, hl⟩ := hstaging hsis hn (by simpa using hin)
    obtain ⟨u, hu, hst, hpl⟩ := h.tool_mounted hm
    exact ⟨⟨k, hk, hl⟩, ⟨j, hj, u, hu, hst, hpl⟩, hsis, hn, hserv⟩
  · obtain ⟨hserv, hreq, j, hj, hm⟩ := hp
    obtain ⟨u, hu, hst, hpl⟩ := h.tool_mounted hm
    exact ⟨⟨j, hj, u, hu, hst, hpl⟩, hserv, hreq⟩
  · obtain ⟨j, hj, hr, hsis⟩ := hp
    obtain ⟨t, ht, hl⟩ := h.claimed o.pos j (.inl hr)
    have hrack := hl.rack hr
    rw [if_neg hsis] at hrack
    exact ⟨j, hj, t, ht, hrack.2, hrack.1⟩

theorem Agrees.orders (h : Agrees s f) (hs : OrderLaw s) : OrdersAgree s := by
  refine ⟨fun o ho => ⟨h.shaped hs ho, h.waits ho⟩, fun i o ho q hq hi hi' => ?_⟩
  have hc := h.orderAt_of ho
  have hd := h.orderAt_of hq
  have hpos := h.claimant (h.claims_of_has hc hi) (h.claims_of_has hd hi')
  rw [← hpos, hc] at hd
  exact eq_of_number_eq hs.numbers ho hq (by simpa using congrArg Order.number (Option.some.inj hd))

theorem Agrees.returns (h : Agrees s f) : ReturnsWait s := by
  intro x hx
  obtain ⟨hnone, i, hr, hsis⟩ := (h.shape x).flag hx
  obtain ⟨t, ht, hl⟩ := h.claimed x i (.inl hr)
  have hrack := hl.rack hr
  rw [if_neg hsis] at hrack
  refine ⟨i, hr, ⟨t, ht, hrack.2⟩, fun o ho => not_or.mp fun hi => ?_⟩
  have hc := h.orderAt_of ho
  have hpos := h.claimant (.inl hr) (h.claims_of_has hc hi)
  rw [← hpos, hnone] at hc
  cases hc

theorem Agrees.exchanges (h : Agrees s f) : ExchangesAgree s := by
  intro o ho hsp
  have hc := h.orderAt_of ho
  obtain ⟨-, hout⟩ := ((h.shape o.pos).order _ hc).2.1 (by simpa using hsp.1)
  refine (hout (Order.core_hasSpindle.mpr hsp)).imp id fun ⟨hsome, hsis⟩ => ⟨?_, hsome, hsis⟩
  exact ((h.shape o.pos).sister.mp hsome).2

/-- Positions that agree make a lawful cell. -/
theorem Agrees.cellLaw (h : Agrees s f) (hs : OrderLaw s) : CellLaw s :=
  ⟨h.places, h.moving hs, h.promises, h.needs, h.spindles, h.bookings, h.orders hs, h.returns, h.exchanges⟩

end

end Sys2Proof.Machine

/-! PROOFS. The standing orders, one of each position, as the operations of the queue and the backlog leave them. -/
namespace Sys2Proof.Machine

/-! ## Cores -/

/-- The order stands, but for its class. -/
def HasCore (s : State) (c : Order) : Prop := ∃ o ∈ s.standing, o.core = c

theorem stands_iff {s : State} {f : PosIx → Option Order} :
    Stands s f ↔ ∀ x c, f x = some c ↔ HasCore s c ∧ c.pos = x := by
  refine forall_congr' fun x => forall_congr' fun c => iff_congr Iff.rfl ⟨?_, ?_⟩
  · rintro ⟨o, ho, rfl, rfl⟩
    exact ⟨⟨o, ho, rfl⟩, rfl⟩
  · rintro ⟨⟨o, ho, rfl⟩, rfl⟩
    exact ⟨o, ho, rfl, rfl⟩

theorem Order.core_of_waiting {o : Order} {st : OrderState} (ho : o.busy = false) (hst : st = .ready ∨ st = .backlog) :
    Order.core { o with state := st } = o.core := by
  have hb : Order.busy { o with state := st } = false := Order.not_busy hst
  unfold Order.core
  rw [hb, ho]

theorem Order.core_urgent (o : Order) (u : Bool) : Order.core { o with urgent := u } = o.core := rfl

section
variable {s t : State} {c o : Order} {n : Nat}

theorem HasCore.congr (hq : t.ret.queue = s.ret.queue) (hb : t.ret.backlog = s.ret.backlog) :
    HasCore t c ↔ HasCore s c := by
  rw [HasCore, HasCore, State.standing, State.standing, hq, hb]

theorem hasCore_append {q b : List Order} (h : s.standing = q ++ b) :
    HasCore s c ↔ (∃ o ∈ q, o.core = c) ∨ ∃ o ∈ b, o.core = c := by
  rw [HasCore, h]
  simp only [List.mem_append, or_and_right, exists_or]

theorem exists_core_insertOrder {l : List Order} :
    (∃ p ∈ insertOrder o l, p.core = c) ↔ o.core = c ∨ ∃ p ∈ l, p.core = c := by
  simp only [mem_insertOrder, or_and_right, exists_or, exists_eq_left]

theorem exists_core_dropNumber {l : List Order} :
    (∃ p ∈ dropNumber n l, p.core = c) ↔ (∃ p ∈ l, p.core = c) ∧ c.number ≠ n := by
  constructor
  · rintro ⟨p, hp, rfl⟩
    obtain ⟨hp, hn⟩ := mem_dropNumber.mp hp
    exact ⟨⟨p, hp, rfl⟩, hn⟩
  · rintro ⟨⟨p, hp, rfl⟩, hn⟩
    exact ⟨p, mem_dropNumber.mpr ⟨hp, hn⟩, rfl⟩

theorem and_number_of_forall {l : List Order} (h : ∀ p ∈ l, p.number ≠ n) :
    ((∃ p ∈ l, p.core = c) ∧ c.number ≠ n) ↔ ∃ p ∈ l, p.core = c :=
  and_iff_left_of_imp fun ⟨p, hp, he⟩ => he ▸ h p hp

/-- A posted order stands beside the others. -/
theorem hasCore_enqueue (ho : o.busy = false) : HasCore (s.enqueue o) c ↔ o.core = c ∨ HasCore s c := by
  rw [hasCore_append (s := s) (q := s.ret.queue) (b := s.ret.backlog) rfl]
  unfold State.enqueue
  split
  · rw [hasCore_append (q := insertOrder { o with state := .ready } s.ret.queue) (b := s.ret.backlog) rfl,
      exists_core_insertOrder, Order.core_of_waiting ho (.inl rfl), or_assoc]
  · rw [hasCore_append (q := s.ret.queue) (b := insertOrder { o with state := .backlog } s.ret.backlog) rfl,
      exists_core_insertOrder, Order.core_of_waiting ho (.inr rfl), or_left_comm]

/-- An order that leaves stands no more; the others do. -/
theorem hasCore_dropOrder (hs : OrderLaw s) : HasCore (s.dropOrder n) c ↔ HasCore s c ∧ c.number ≠ n := by
  have h := (orderLaw_iff s).mp hs
  rw [hasCore_append (s := s.dropOrder n) rfl, hasCore_append (s := s) rfl, or_and_right]
  obtain ⟨o, ho, rfl, hb, hq', hb'⟩ | ⟨o, ho, p, rest, rfl, hb, hq', hb'⟩ | ⟨hnone, hq', hb'⟩ := dropOrder_cases s n
  · rw [hq', hb', hb, exists_core_dropNumber, and_number_of_forall (l := []) nofun]
  · have hbacklog : ∀ q ∈ s.ret.backlog, q.number ≠ o.number := fun q hq => (h.disjoint ho hq).symm
    rw [and_number_of_forall hbacklog, hq', hb', hb]
    have hp : p.busy = false := busy_of_backlog (hs.backlog p (hb ▸ List.mem_cons_self))
    split_ifs
    · rw [exists_core_insertOrder, exists_core_dropNumber, Order.core_of_waiting hp (.inl rfl), or_assoc, or_left_comm,
        List.exists_mem_cons_iff]
    · rw [exists_core_dropNumber]
  · rw [hq', hb', exists_core_dropNumber, and_number_of_forall hnone]

/-- An order that is handed out stands as TAKEN. -/
theorem hasCore_headTaken (hs : OrderLaw s) (ho : o ∈ s.ret.queue) :
    HasCore (s.headTaken o) c ↔ Order.core { o with state := .taken } = c ∨ HasCore s c ∧ c.number ≠ o.number := by
  have hbacklog : ∀ q ∈ s.ret.backlog, q.number ≠ o.number := fun q hq => (((orderLaw_iff s).mp hs).disjoint ho hq).symm
  rw [hasCore_append (s := s.headTaken o) (q := { o with state := .taken } :: dropNumber o.number s.ret.queue)
      (b := s.ret.backlog) rfl, hasCore_append (s := s) rfl, List.exists_mem_cons_iff, exists_core_dropNumber, or_and_right,
    and_number_of_forall hbacklog, or_assoc]

/-- The orders that are made urgent stand as before. -/
theorem exists_core_makeUrgent (i : EntryIx) {l : List Order} (hl : (l.map (·.number)).Nodup) :
    (∃ p ∈ makeUrgent (Order.hastens i) l, p.core = c) ↔ ∃ p ∈ l, p.core = c := by
  obtain he | ⟨o, ho, -, he⟩ := makeUrgent_cases i l
  · rw [he]
  · rw [he, exists_core_insertOrder, exists_core_dropNumber, Order.core_urgent]
    constructor
    · rintro (rfl | ⟨h, -⟩)
      · exact ⟨o, ho, rfl⟩
      · exact h
    · rintro ⟨p, hp, rfl⟩
      by_cases hn : p.number = o.number
      · exact .inl (by rw [eq_of_number_eq hl hp ho hn])
      · exact .inr ⟨⟨p, hp, rfl⟩, hn⟩

theorem hasCore_hasten (hs : OrderLaw s) (i : EntryIx) : HasCore (s.hasten i) c ↔ HasCore s c := by
  have h := (orderLaw_iff s).mp hs
  rw [hasCore_append (s := s.hasten i) (q := makeUrgent (Order.hastens i) s.ret.queue)
    (b := makeUrgent (Order.hastens i) s.ret.backlog) rfl, hasCore_append (s := s) rfl,
    exists_core_makeUrgent i h.queueNumbers, exists_core_makeUrgent i h.backlogNumbers]

/-- The DIRECT that replaces a STAGE stands in its place. -/
theorem hasCore_replaceOrder {stage : Order} (hs : OrderLaw s) :
    HasCore (s.replaceOrder stage.number o) c ↔ o.core = c ∨ HasCore s c ∧ c.number ≠ stage.number := by
  have h := (orderLaw_iff s).mp hs
  rw [hasCore_append (s := s) rfl, or_and_right]
  unfold State.replaceOrder
  split
  · next hany =>
    obtain ⟨p, hp, hn⟩ := List.any_eq_true.mp hany
    rw [decide_eq_true_eq] at hn
    have hbacklog : ∀ q ∈ s.ret.backlog, q.number ≠ stage.number := fun q hq => hn ▸ (h.disjoint hp hq).symm
    rw [hasCore_append (q := insertOrder o (dropNumber stage.number s.ret.queue)) (b := s.ret.backlog) rfl,
      exists_core_insertOrder, exists_core_dropNumber, and_number_of_forall hbacklog, or_assoc]
  · next hany =>
    have hqueue : ∀ q ∈ s.ret.queue, q.number ≠ stage.number := fun q hq hn =>
      hany (List.any_eq_true.mpr ⟨q, hq, decide_eq_true hn⟩)
    rw [hasCore_append (q := s.ret.queue) (b := insertOrder o (dropNumber stage.number s.ret.backlog)) rfl,
      exists_core_insertOrder, exists_core_dropNumber, and_number_of_forall hqueue, or_left_comm]

theorem Order.core_warm (o : Order) : o.warm.core = o.core := by
  have hb := (Order.rank_warm o).2
  unfold Order.core
  rw [hb]
  rfl

/-- The adjustments of a warm start leave the orders as they stand. -/
theorem hasCore_warm (ht : t.ret = s.ret.warm) : HasCore t c ↔ HasCore s c := by
  have hstanding : t.standing = s.ret.queue.map Order.warm ++ s.ret.backlog := by rw [State.standing, ht]; rfl
  rw [hasCore_append hstanding, hasCore_append (s := s) rfl]
  simp only [List.mem_map, exists_exists_and_eq_and, Order.core_warm]

end

/-! ## The order of each position -/

section
variable {s t : State} {f : PosIx → Option Order} {o : Order}

theorem Stands.congr (h : Stands s f) (ht : ∀ c, HasCore t c ↔ HasCore s c) : Stands t f := by
  rw [stands_iff] at h ⊢
  intro x c
  rw [h x c, ht c]

theorem Stands.of_ret (h : Stands s f) (ht : t.ret = s.ret) : Stands t f :=
  h.congr fun _ => HasCore.congr (by rw [ht]) (by rw [ht])

/-- A position without an order is given one. -/
theorem Stands.post (h : Stands s f) (hnone : f o.pos = none) (ht : ∀ c, HasCore t c ↔ o.core = c ∨ HasCore s c) :
    Stands t (Function.update f o.pos (some o.core)) := by
  rw [stands_iff] at h ⊢
  intro x c
  rw [ht, Function.update_apply, or_and_right, ← h x c]
  split
  · next hx =>
    subst hx
    rw [hnone, Option.some.injEq]
    refine ⟨fun hc => .inl ⟨hc, by rw [← hc]; rfl⟩, fun hc => ?_⟩
    obtain ⟨hc, -⟩ | hc := hc
    · exact hc
    · cases hc
  · next hx =>
    refine ⟨.inr, fun hc => hc.resolve_left ?_⟩
    rintro ⟨rfl, rfl⟩
    exact hx rfl

/-- The order of a position leaves. -/
theorem Stands.leave (h : Stands s f) {x : PosIx} {d : Order} (hd : f x = some d)
    (hnumbers : ∀ y c, f y = some c → c.number = d.number → y = x)
    (ht : ∀ c, HasCore t c ↔ HasCore s c ∧ c.number ≠ d.number) : Stands t (Function.update f x none) := by
  rw [stands_iff] at h ⊢
  intro y c
  rw [ht, Function.update_apply, and_right_comm, ← h y c]
  split
  · next hy =>
    subst hy
    refine ⟨nofun, fun ⟨hc, hn⟩ => absurd ?_ hn⟩
    rw [Option.some.inj (hc.symm.trans hd)]
  · next hy => exact (and_iff_left_of_imp fun hc hn => hy (hnumbers y c hc hn)).symm

/-- The order of a position makes way for another. -/
theorem Stands.change (h : Stands s f) {d : Order} (hd : f o.pos = some d)
    (hnumbers : ∀ y c, f y = some c → c.number = d.number → y = o.pos)
    (ht : ∀ c, HasCore t c ↔ o.core = c ∨ HasCore s c ∧ c.number ≠ d.number) :
    Stands t (Function.update f o.pos (some o.core)) := by
  rw [stands_iff] at h ⊢
  intro y c
  rw [ht, Function.update_apply, or_and_right, and_right_comm, ← h y c]
  split
  · next hy =>
    subst hy
    rw [Option.some.injEq]
    refine ⟨fun hc => .inl ⟨hc, by rw [← hc]; rfl⟩, fun hc => ?_⟩
    obtain ⟨hc, -⟩ | ⟨hc, hn⟩ := hc
    · exact hc
    · exact absurd (by rw [Option.some.inj (hc.symm.trans hd)]) hn
  · next hy =>
    refine ⟨fun hc => .inr ⟨hc, fun hn => hy (hnumbers y c hc hn)⟩, fun hc => ?_⟩
    obtain ⟨rfl, rfl⟩ | ⟨hc, -⟩ := hc
    · exact absurd rfl hy
    · exact hc

end

end Sys2Proof.Machine

/-! PROOFS. A change at one position, of the tools it claims and of a few pockets, leaves the agreement of the others. -/
namespace Sys2Proof.Machine

section
variable {s t : State} {f : PosIx → Option Order}

/-! ## A change at one position -/

/-- From `s` to `t` position `x` is given the order `o`; only the tools of `T` and the pockets of `K` change with its record,
none of them another position's; and what is new agrees. -/
structure Patch (s t : State) (f : PosIx → Option Order) (x : PosIx) (o : Option Order) (T : EntryIx → Prop)
    (K : PocketIx → Prop) : Prop where
  stands : Stands t (Function.update f x o)
  pos : ∀ y, y ≠ x → t.pos y = s.pos y
  tool : ∀ i, ¬T i → t.tool i = s.tool i
  pocket : ∀ k, ¬K k → t.pocket k = s.pocket k
  shape : Shape (t.pos x) o
  owned : ∀ i, T i → Claims (s.pos x) (f x) i ∨ ∀ y, ¬Claims (s.pos y) (f y) i
  rest : ∀ i, ¬T i → (Claims (t.pos x) o i ↔ Claims (s.pos x) (f x) i) ∧
    (Claims (s.pos x) (f x) i → ∀ u, Lies x (s.pos x) (f x) i u → Lies x (t.pos x) o i u)
  claimed : ∀ i, T i → Claims (t.pos x) o i → ∃ u, t.tool i = some u ∧ Lies x (t.pos x) o i u
  loose : ∀ i u, T i → t.tool i = some u → Claims (t.pos x) o i ∨ u.Loose
  stored : ∀ i k, T i → (t.pocket k = .holds i ↔ ∃ u, t.tool i = some u ∧ u.place = .pocket k)
  content : ∀ k i, K k → s.pocket k = .holds i ∨ t.pocket k = .holds i → T i
  books : ∀ k n, ¬K k → (Books o k n ↔ Books (f x) k n)
  booked : ∀ k n, K k → (t.pocket k = .booked n ↔ Books o k n)
  freed : ∀ k n, K k → s.pocket k = .booked n → Books (f x) k n
  number : ∀ c, o = some c → (∃ d, f x = some d ∧ d.number = c.number) ∨ ∀ y d, f y = some d → d.number ≠ c.number
  out : ∀ c, o = some c → c.busy = true → (∃ d, f x = some d ∧ d.busy = true) ∨ ∀ y d, f y = some d → d.busy = false

variable {x : PosIx} {o : Option Order} {T : EntryIx → Prop} {K : PocketIx → Prop}

theorem Patch.claims_iff (h : Patch s t f x o T K) {i : EntryIx} (hi : ¬T i) (y : PosIx) :
    Claims (t.pos y) (Function.update f x o y) i ↔ Claims (s.pos y) (f y) i := by
  by_cases hy : y = x
  · subst hy
    rw [Function.update_self]
    exact (h.rest i hi).1
  · rw [h.pos y hy, Function.update_of_ne hy]

theorem Patch.not_owned (h : Patch s t f x o T K) (hs : Agrees s f) {i : EntryIx} (hi : T i) {y : PosIx} (hy : y ≠ x) :
    ¬Claims (s.pos y) (f y) i := by
  obtain hx | hno := h.owned i hi
  · exact fun hc => hy (hs.claimant hc hx)
  · exact hno y

theorem Patch.claimed_all (h : Patch s t f x o T K) (hs : Agrees s f) (y : PosIx) (i : EntryIx)
    (hc : Claims (t.pos y) (Function.update f x o y) i) :
    ∃ u, t.tool i = some u ∧ Lies y (t.pos y) (Function.update f x o y) i u := by
  by_cases hi : T i
  · by_cases hy : y = x
    · subst hy
      rw [Function.update_self] at hc ⊢
      exact h.claimed i hi hc
    · rw [h.pos y hy, Function.update_of_ne hy] at hc
      exact absurd hc (h.not_owned hs hi hy)
  · have hc' := (h.claims_iff hi y).mp hc
    obtain ⟨u, hu, hl⟩ := hs.claimed y i hc'
    refine ⟨u, (h.tool i hi).trans hu, ?_⟩
    by_cases hy : y = x
    · subst hy
      rw [Function.update_self]
      exact (h.rest i hi).2 hc' u hl
    · rwa [h.pos y hy, Function.update_of_ne hy]

theorem Patch.stored_all (h : Patch s t f x o T K) (hs : Agrees s f) (k : PocketIx) (i : EntryIx) :
    t.pocket k = .holds i ↔ ∃ u, t.tool i = some u ∧ u.place = .pocket k := by
  by_cases hi : T i
  · exact h.stored i k hi
  · rw [h.tool i hi, ← hs.stored k i]
    by_cases hk : K k
    · exact ⟨fun ht => absurd (h.content k i hk (.inr ht)) hi, fun hs' => absurd (h.content k i hk (.inl hs')) hi⟩
    · rw [h.pocket k hk]

theorem Patch.booked_all (h : Patch s t f x o T K) (hs : Agrees s f) (k : PocketIx) (n : Nat) :
    t.pocket k = .booked n ↔ ∃ y, Books (Function.update f x o y) k n := by
  by_cases hk : K k
  · rw [h.booked k n hk]
    refine ⟨fun hb => ⟨x, by rwa [Function.update_self]⟩, fun ⟨y, hb⟩ => ?_⟩
    by_cases hy : y = x
    · subst hy
      rwa [Function.update_self] at hb
    · rw [Function.update_of_ne hy] at hb
      obtain ⟨c, hc, hn, -⟩ := h.freed k n hk ((hs.booked k n).mpr ⟨y, hb⟩)
      obtain ⟨d, hd, hn', -⟩ := hb
      exact absurd (hs.numbers y x d c hd hc (hn'.trans hn.symm)) hy
  · rw [h.pocket k hk, hs.booked k n]
    refine exists_congr fun y => ?_
    by_cases hy : y = x
    · subst hy
      rw [Function.update_self]
      exact (h.books k n hk).symm
    · rw [Function.update_of_ne hy]

/-- What another position's order would share with the new one, it shared with the old. -/
theorem Patch.apart (h : Patch s t f x o T K) (hs : Agrees s f) {y : PosIx} (hy : y ≠ x) {c d : Order} (hc : o = some c)
    (hd : f y = some d) : c.number ≠ d.number ∧ ¬(c.busy = true ∧ d.busy = true) := by
  constructor
  · intro hn
    obtain ⟨b, hb, hn'⟩ | hall := h.number c hc
    · exact hy (hs.numbers y x d b hd hb (hn.symm.trans hn'.symm))
    · exact hall y d hd hn.symm
  · rintro ⟨hb, hb'⟩
    obtain ⟨b, hbx, hb''⟩ | hall := h.out c hc hb
    · exact hy (hs.oneOut y x d b hd hbx hb' hb'')
    · rw [hall y d hd] at hb'
      cases hb'

/-- The positions agree after a change at one of them. -/
theorem Patch.agrees (h : Patch s t f x o T K) (hs : Agrees s f) : Agrees t (Function.update f x o) where
  stands := h.stands
  shape y := by
    by_cases hy : y = x
    · subst hy
      rw [Function.update_self]
      exact h.shape
    · rw [h.pos y hy, Function.update_of_ne hy]
      exact hs.shape y
  claimed := h.claimed_all hs
  loose i u hu := by
    by_cases hi : T i
    · exact (h.loose i u hi hu).imp (fun hc => ⟨x, by rwa [Function.update_self]⟩) id
    · rw [h.tool i hi] at hu
      exact (hs.loose i u hu).imp (fun ⟨y, hy⟩ => ⟨y, (h.claims_iff hi y).mpr hy⟩) id
  stored := h.stored_all hs
  booked := h.booked_all hs
  numbers y z c d hc hd hn := by
    rw [Function.update_apply] at hc hd
    split at hc <;> split at hd
    · next hy hz => rw [hy, hz]
    · next hz => exact absurd hn (h.apart hs hz hc hd).1
    · next hy _ => exact absurd hn.symm (h.apart hs hy hd hc).1
    · exact hs.numbers y z c d hc hd hn
  oneOut y z c d hc hd hb hb' := by
    rw [Function.update_apply] at hc hd
    split at hc <;> split at hd
    · next hy hz => rw [hy, hz]
    · next hz => exact absurd ⟨hb, hb'⟩ (h.apart hs hz hc hd).2
    · next hy _ => exact absurd ⟨hb', hb⟩ (h.apart hs hy hd hc).2
    · exact hs.oneOut y z c d hc hd hb hb'

/-! ## Changes of what the cell does not read -/

/-- The fields of a position record that the cell reads. -/
def Position.cell (p : Position) : Position :=
  { Position.cold with
    service := p.service, required := p.required, mounted := p.mounted, rack := p.rack, need := p.need,
    sister := p.sister, returnWaiting := p.returnWaiting }

/-- The fields of a tool entry that the cell reads. -/
def Tool.spot (t : Tool) : ToolState × Place × Option PosIx := (t.state, t.place, t.promised)

theorem shape_cell {p : Position} {o : Option Order} : Shape p.cell o ↔ Shape p o :=
  ⟨fun ⟨a, b, c, d, e, g, h, i, j, k, l⟩ => ⟨a, b, c, d, e, g, h, i, j, k, l⟩,
    fun ⟨a, b, c, d, e, g, h, i, j, k, l⟩ => ⟨a, b, c, d, e, g, h, i, j, k, l⟩⟩

theorem lies_cell {p : Position} {o : Option Order} {i : EntryIx} {u : Tool} :
    Lies x p.cell o i u ↔ Lies x p o i u :=
  ⟨fun ⟨a, b, c, d, e⟩ => ⟨a, b, c, d, e⟩, fun ⟨a, b, c, d, e⟩ => ⟨a, b, c, d, e⟩⟩

theorem claims_cell {p : Position} {o : Option Order} {i : EntryIx} : Claims p.cell o i ↔ Claims p o i := Iff.rfl

theorem spot_eq_iff {u v : Tool} : u.spot = v.spot ↔ u.state = v.state ∧ u.place = v.place ∧ u.promised = v.promised := by
  simp [Tool.spot]

theorem Lies.of_spot {p : Position} {i : EntryIx} {u v : Tool} (h : Lies x p o i u) (hv : v.spot = u.spot) :
    Lies x p o i v := by
  obtain ⟨hst, hpl, hpr⟩ := spot_eq_iff.mp hv
  obtain ⟨a, b, c, d, e⟩ := h
  rw [← hpr] at a
  rw [← hst, ← hpl] at b c
  rw [← hst, ← hpl] at e
  exact ⟨a, b, c, by rwa [hst, hpl], e⟩

theorem Tool.Loose.of_spot {u v : Tool} (h : u.Loose) (hv : v.spot = u.spot) : v.Loose := by
  obtain ⟨hst, hpl, hpr⟩ := spot_eq_iff.mp hv
  rw [Tool.Loose, hst, hpl, hpr]
  exact h

/-- Changes of what the cell does not read leave the positions in agreement. -/
theorem Agrees.congr (h : Agrees s f) (hstands : Stands t f) (hpos : ∀ x, (t.pos x).cell = (s.pos x).cell)
    (htool : ∀ i, (t.tool i).map Tool.spot = (s.tool i).map Tool.spot) (hpocket : t.pocket = s.pocket) : Agrees t f := by
  have hclaims : ∀ x i, Claims (t.pos x) (f x) i ↔ Claims (s.pos x) (f x) i := fun x i => by
    rw [← claims_cell, hpos x, claims_cell]
  have hlive : ∀ {i u}, s.tool i = some u → ∃ v, t.tool i = some v ∧ v.spot = u.spot := fun {i u} hu => by
    have hi := htool i
    rw [hu, Option.map_some] at hi
    exact Option.map_eq_some_iff.mp hi
  have hlive' : ∀ {i v}, t.tool i = some v → ∃ u, s.tool i = some u ∧ u.spot = v.spot := fun {i v} hv => by
    have hi := htool i
    rw [hv, Option.map_some] at hi
    exact Option.map_eq_some_iff.mp hi.symm
  refine ⟨hstands, fun x => ?_, fun x i hc => ?_, fun i v hv => ?_, fun k i => ?_, fun k n => ?_, h.numbers, h.oneOut⟩
  · rw [← shape_cell, hpos x, shape_cell]
    exact h.shape x
  · obtain ⟨u, hu, hl⟩ := h.claimed x i ((hclaims x i).mp hc)
    obtain ⟨v, hv, hvu⟩ := hlive hu
    refine ⟨v, hv, ?_⟩
    rw [← lies_cell, hpos x, lies_cell]
    exact hl.of_spot hvu
  · obtain ⟨u, hu, huv⟩ := hlive' hv
    exact (h.loose i u hu).imp (fun ⟨x, hx⟩ => ⟨x, (hclaims x i).mpr hx⟩) fun hl => hl.of_spot huv.symm
  · rw [hpocket, h.stored k i]
    constructor
    · rintro ⟨u, hu, hp⟩
      obtain ⟨v, hv, hvu⟩ := hlive hu
      exact ⟨v, hv, (spot_eq_iff.mp hvu).2.1.trans hp⟩
    · rintro ⟨v, hv, hp⟩
      obtain ⟨u, hu, huv⟩ := hlive' hv
      exact ⟨u, hu, (spot_eq_iff.mp huv).2.1.trans hp⟩
  · rw [hpocket]
    exact h.booked k n

theorem Agrees.of_ret (h : Agrees s f) (ht : t.ret = s.ret) : Agrees t f :=
  h.congr (h.stands.of_ret ht) (fun x => by rw [State.pos, ht]; rfl) (fun i => by rw [State.tool, ht]; rfl)
    (by funext k; rw [State.pocket, ht]; rfl)

/-! ## A change of one record -/

/-- A change of fields of a record that the cell does not read. -/
theorem Agrees.setPos_cell (h : Agrees s f) {p : Position} (hp : p.cell = (s.pos x).cell) : Agrees (s.setPos x p) f := by
  refine h.congr (h.stands.congr fun _ => Iff.rfl) (fun y => ?_) (fun _ => rfl) rfl
  rw [State.pos_setPos]
  split
  · next hy => rw [hp, hy]
  · rfl

/-- A change of a record that names the same tools, and keeps the shape. -/
theorem Agrees.setPos (h : Agrees s f) {p : Position} (hrack : p.rack = (s.pos x).rack ∨
      (∀ i, p.rack ≠ .entry i) ∧ ∀ i, (s.pos x).rack ≠ .entry i)
    (hmounted : p.mounted = (s.pos x).mounted ∨ (∀ i, p.mounted ≠ .entry i) ∧ ∀ i, (s.pos x).mounted ≠ .entry i)
    (hneed : p.need = (s.pos x).need ∨ p.sister = none) (hsister : p.sister = (s.pos x).sister) (hshape : Shape p (f x)) :
    Agrees (s.setPos x p) f := by
  have hrack' : ∀ i, p.rack = .entry i ↔ (s.pos x).rack = .entry i := by
    intro i
    obtain he | ⟨hn, hn'⟩ := hrack
    · rw [he]
    · exact iff_of_false (hn i) (hn' i)
  have hmounted' : ∀ i, p.mounted = .entry i ↔ (s.pos x).mounted = .entry i := by
    intro i
    obtain he | ⟨hn, hn'⟩ := hmounted
    · rw [he]
    · exact iff_of_false (hn i) (hn' i)
  have hpatch : Patch s (s.setPos x p) f x (f x) (fun _ => False) fun _ => False := by
    refine ⟨?_, fun y hy => ?_, fun _ _ => rfl, fun _ _ => rfl, ?_, nofun, fun i _ => ⟨?_, fun _ u hl => ?_⟩, nofun, nofun,
      nofun, nofun, fun _ _ _ => Iff.rfl, nofun, nofun, fun c hc => .inl ⟨c, hc, rfl⟩, fun c hc hb => .inl ⟨c, hc, hb⟩⟩
    · rw [Function.update_eq_self]
      exact h.stands.congr fun _ => Iff.rfl
    · rw [State.pos_setPos, if_neg (Ne.symm hy)]
    · rwa [State.pos_setPos, if_pos rfl]
    · rw [State.pos_setPos, if_pos rfl, Claims, Claims, hrack', hmounted', hsister]
    · rw [State.pos_setPos, if_pos rfl]
      obtain ⟨a, b, c, d, e⟩ := hl
      rw [← hsister] at a b c e
      refine ⟨a, fun hr => b ((hrack' i).mp hr), fun hm => c ((hmounted' i).mp hm), d, fun hi hn => ?_⟩
      obtain he | he := hneed
      · rw [he] at hn ⊢
        exact e hi hn
      · rw [he] at hi
        cases hi
  have hagrees := hpatch.agrees h
  rwa [Function.update_eq_self] at hagrees

end

end Sys2Proof.Machine

/-! PROOFS. The kinds of change at one position: of its record and its order, with no tool, with one tool, or with the tools
of the order that it has out. -/
namespace Sys2Proof.Machine

section
variable {s t : State} {f : PosIx → Option Order} {x : PosIx} {p q : Position} {o r : Option Order} {i : EntryIx}

/-- A tool that does not change is claimed as before, and lies as before. -/
def Rest (x : PosIx) (p : Position) (o : Option Order) (q : Position) (r : Option Order) (i : EntryIx) : Prop :=
  (Claims q r i ↔ Claims p o i) ∧ (Claims p o i → ∀ u, Lies x p o i u → Lies x q r i u)

/-- The new order of the position has a number that is new or the position's, and is out only where none other is. -/
structure Follow (f : PosIx → Option Order) (x : PosIx) (r : Option Order) : Prop where
  number : ∀ c, r = some c → (∃ d, f x = some d ∧ d.number = c.number) ∨ ∀ y d, f y = some d → d.number ≠ c.number
  out : ∀ c, r = some c → c.busy = true → (∃ d, f x = some d ∧ d.busy = true) ∨ ∀ y d, f y = some d → d.busy = false

theorem Follow.none : Follow f x none := ⟨nofun, nofun⟩

theorem Follow.same : Follow f x (f x) := ⟨fun c hc => .inl ⟨c, hc, rfl⟩, fun c hc hb => .inl ⟨c, hc, hb⟩⟩

/-- A new order that waits, under a number that no order has. -/
theorem Follow.fresh {c : Order} (hn : ∀ y d, f y = some d → d.number ≠ c.number) (hb : c.busy = false) :
    Follow f x (some c) := by
  refine ⟨fun d hd => .inr ?_, fun d hd hb' => ?_⟩ <;> obtain rfl := Option.some.inj hd
  · exact hn
  · rw [hb] at hb'
    cases hb'

/-- A tool as it lies after a change: where the position that claims it says, or loose. -/
def Placed (x : PosIx) (p : Position) (o : Option Order) (i : EntryIx) (u : Tool) : Prop :=
  Claims p o i ∧ Lies x p o i u ∨ ¬Claims p o i ∧ u.Loose

/-- The tools that change are the position's or nobody's. -/
def Owned (s : State) (f : PosIx → Option Order) (x : PosIx) (i : EntryIx) : Prop :=
  Claims (s.pos x) (f x) i ∨ ∀ y, ¬Claims (s.pos y) (f y) i

theorem Agrees.owned_of_loose (h : Agrees s f) {u : Tool} (hu : s.tool i = some u) (hl : u.Loose) : Owned s f x i :=
  .inr fun _ => h.not_claims_of_loose hu hl

theorem Agrees.owned_of_free (h : Agrees s f) (hu : s.tool i = none) : Owned s f x i :=
  .inr fun _ => h.not_claims_of_free hu

/-- A tool in a state of the store is loose. -/
theorem Agrees.loose_of_state (h : Agrees s f) {u : Tool} (hu : s.tool i = some u)
    (hst : u.state = .stored ∨ u.state = .quarantined) : u.Loose := by
  refine (h.tool_cases hu).resolve_right fun ⟨y, hy, hl⟩ => ?_
  obtain ⟨-, -, ⟨hs, -⟩ | ⟨hs, -⟩⟩ | ⟨-, -, hs, -⟩ | ⟨-, hs, -⟩ | ⟨-, hs, -⟩ := hl.cases (h.shape y) hy <;>
    rw [hs] at hst <;> obtain h | h := hst <;> cases h

/-- The number of an order is its position's alone. -/
theorem Agrees.number_unique (h : Agrees s f) {c : Order} (hc : f x = some c) :
    ∀ y d, f y = some d → d.number = c.number → y = x :=
  fun y d hd hn => h.numbers y x d c hd hc hn

/-- A change of the record and the order of a position, of no tool and no pocket. -/
theorem Agrees.change (h : Agrees s f) (hstands : Stands t (Function.update f x r))
    (hpos : ∀ y, t.pos y = if x = y then p else s.pos y) (htool : ∀ i, t.tool i = s.tool i)
    (hpocket : ∀ k, t.pocket k = s.pocket k) (hfollow : Follow f x r) (hbooks : ∀ k n, Books r k n ↔ Books (f x) k n)
    (hshape : Shape p r) (hrest : ∀ i, Rest x (s.pos x) (f x) p r i) : Agrees t (Function.update f x r) := by
  have hx : t.pos x = p := (hpos x).trans (if_pos rfl)
  refine Patch.agrees (T := fun _ => False) (K := fun _ => False)
    ⟨hstands, fun y hy => (hpos y).trans (if_neg hy.symm), fun i _ => htool i, fun k _ => hpocket k, ?_, nofun, fun i _ => ?_,
      nofun, nofun, nofun, nofun, fun k n _ => hbooks k n, nofun, nofun, hfollow.number, hfollow.out⟩ h
  · rwa [hx]
  · rw [hx]
    exact hrest i

/-- A change of the record and the order of a position and of one tool, which stays in its pocket or out of the store. -/
theorem Agrees.changeTool (h : Agrees s f) {u v : Tool} (hstands : Stands t (Function.update f x r))
    (hpos : ∀ y, t.pos y = if x = y then p else s.pos y) (htool : ∀ j, t.tool j = if i = j then some v else s.tool j)
    (hpocket : ∀ k, t.pocket k = s.pocket k) (hfollow : Follow f x r) (hbooks : ∀ k n, Books r k n ↔ Books (f x) k n)
    (hshape : Shape p r) (hrest : ∀ j, j ≠ i → Rest x (s.pos x) (f x) p r j) (hu : s.tool i = some u)
    (howned : Owned s f x i) (hplace : ∀ k, v.place = .pocket k ↔ u.place = .pocket k) (hnew : Placed x p r i v) :
    Agrees t (Function.update f x r) := by
  have hx : t.pos x = p := (hpos x).trans (if_pos rfl)
  have hi : t.tool i = some v := (htool i).trans (if_pos rfl)
  refine Patch.agrees (T := fun j => j = i) (K := fun _ => False)
    ⟨hstands, fun y hy => (hpos y).trans (if_neg hy.symm), fun j hj => (htool j).trans (if_neg (Ne.symm hj)),
      fun k _ => hpocket k, by rwa [hx], ?_, fun j hj => by rw [hx]; exact hrest j hj, ?_, ?_, ?_, nofun,
      fun k n _ => hbooks k n, nofun, nofun, hfollow.number, hfollow.out⟩ h
  · rintro j rfl
    exact howned
  · rintro j rfl hc
    rw [hx] at hc ⊢
    exact ⟨v, hi, (hnew.resolve_right fun hl => hl.1 hc).2⟩
  · rintro j w rfl hw
    rw [hx]
    obtain rfl := Option.some.inj (hi.symm.trans hw)
    exact hnew.imp And.left And.right
  · rintro j k rfl
    rw [hpocket, h.stored k j, hi, hu]
    simp only [Option.some.injEq, exists_eq_left', hplace]

/-- A change of the record of a position alone. -/
theorem Agrees.changeRecord (h : Agrees s f) (hcore : ∀ c, HasCore t c ↔ HasCore s c)
    (hpos : ∀ y, t.pos y = if x = y then p else s.pos y) (htool : ∀ i, t.tool i = s.tool i)
    (hpocket : ∀ k, t.pocket k = s.pocket k) (hshape : Shape p (f x)) (hrest : ∀ i, Rest x (s.pos x) (f x) p (f x) i) :
    Agrees t f := by
  have hstands : Stands t (Function.update f x (f x)) := by
    rw [Function.update_eq_self]
    exact h.stands.congr hcore
  have hagrees := h.change hstands hpos htool hpocket .same (fun _ _ => Iff.rfl) hshape hrest
  rwa [Function.update_eq_self] at hagrees

/-- A change of the record of a position and of one tool, the orders standing as they were. -/
theorem Agrees.changeRecordTool (h : Agrees s f) {u v : Tool} (hcore : ∀ c, HasCore t c ↔ HasCore s c)
    (hpos : ∀ y, t.pos y = if x = y then p else s.pos y) (htool : ∀ j, t.tool j = if i = j then some v else s.tool j)
    (hpocket : ∀ k, t.pocket k = s.pocket k) (hshape : Shape p (f x))
    (hrest : ∀ j, j ≠ i → Rest x (s.pos x) (f x) p (f x) j) (hu : s.tool i = some u) (howned : Owned s f x i)
    (hplace : ∀ k, v.place = .pocket k ↔ u.place = .pocket k) (hnew : Placed x p (f x) i v) : Agrees t f := by
  have hstands : Stands t (Function.update f x (f x)) := by
    rw [Function.update_eq_self]
    exact h.stands.congr hcore
  have hagrees := h.changeTool hstands hpos htool hpocket .same (fun _ _ => Iff.rfl) hshape hrest hu howned hplace hnew
  rwa [Function.update_eq_self] at hagrees

end

end Sys2Proof.Machine

/-! PROOFS. Needs that are raised and cancelled leave the cell in agreement. -/
namespace Sys2Proof.Machine

/-! ## The record of a need -/

section
variable {x : PosIx} {p : Position} {o : Option Order} {i j : EntryIx} {u : Tool} {r : Option TypeIx} {c : Order}

theorem Shape.sister_none (h : Shape p o) (hneed : p.need = .noNeed ∨ p.need = .waiting) : p.sister = none := by
  have hs := h.sister
  cases hsis : p.sister with
  | none => rfl
  | some i =>
    rw [hsis] at hs
    obtain ⟨h1, h2⟩ := hs.mp rfl
    exact (hneed.elim h1 h2).elim

theorem Shape.reserve (h : Shape p o) (hneed : p.need = .noNeed ∧ p.service ≠ .exchanging ∨ p.need = .waiting)
    (hreq : p.required.isSome = true) (hi : ¬Claims p o i) : Shape (p.reserve i) o := by
  obtain ⟨_, _, _, _, _, _, _, _, _, _, _⟩ := h
  constructor <;> simp only [Position.reserve] <;> grind [Claims, Order.Out, Order.Posted, Order.Has]

theorem Rest.reserve (hij : j ≠ i) (hnone : p.sister = none) : Rest x p o (p.reserve i) o j := by
  refine ⟨by grind [Claims, Position.reserve], ?_⟩
  rintro hc u ⟨a, b, c, d, e⟩
  constructor <;> grind [Position.reserve]

theorem Placed.reserve (hno : ¬Claims p o i) (hk : ∃ k, u.place = .pocket k) :
    Placed x (p.reserve i) o i { u with state := .reserved, promised := some x } := by
  refine .inl ⟨.inr (.inr (.inl rfl)), ?_⟩
  constructor <;> grind [Position.reserve, Claims]

theorem Shape.wait (h : Shape p o) (hneed : p.need = .noNeed) (hserv : p.service ≠ .exchanging)
    (hreq : p.required.isSome = true) : Shape p.wait o := by
  obtain ⟨_, _, _, _, _, _, _, _, _, _, _⟩ := h
  constructor <;> simp only [Position.wait] <;> grind [Order.Out, Order.Posted]

/-- The order of a position that has not been taken waits for no sister. -/
def Sisterless (o : Option Order) : Prop :=
  ∀ c, o = some c → c.busy = false → c.kind = .remove ∨ c.kind = .return_

/-- A REMOVE that has not been taken waits only where no type is required. -/
def Unwanted (p : Position) (o : Option Order) : Prop :=
  ∀ c, o = some c → c.busy = false → c.kind = .remove → p.required = none

theorem Shape.unwanted (h : Shape p o) : Unwanted p o :=
  fun c hc hb hk => (((h.order c hc).2.2 hb).2.2.2.1 hk).2.1

/-- A need is cleared whose order, if any, is out. The record is read as it was before its required type changed. -/
theorem Shape.noNeed (h : Shape { p with required := r } o) (hun : Unwanted p o) (hless : Sisterless o) :
    Shape p.noNeed o := by
  obtain ⟨_, _, _, _, _, _, _, _, _, _, _⟩ := h
  constructor <;> simp only [Position.noNeed] <;> grind [Order.Out, Order.Posted, Unwanted, Sisterless]

/-- A need is cleared with the order that waits for its sister. -/
theorem Shape.noNeed_withdrawn (h : Shape { p with required := r } (some c)) (hb : c.busy = false)
    (hk : c.kind = .stage ∨ c.kind = .direct ∨ c.kind = .exchange) :
    Shape { p.noNeed with rack := if c.kind.booksRackAtPosting then .bare else p.rack } none := by
  obtain ⟨_, _, _, _, _, _, _, _, _, _, _⟩ := h
  constructor <;> simp only [Position.noNeed] <;>
    grind [Order.Out, Order.Posted, Order.hasRack, Order.hasSpindle, OrderKind.booksRackAtPosting]

theorem Rest.noNeed (hsis : p.sister = none ∨ p.sister = some i) (hij : j ≠ i) :
    Rest x { p with required := r } o p.noNeed o j := by
  refine ⟨by grind [Claims, Position.noNeed], ?_⟩
  rintro hc u ⟨a, b, c, d, e⟩
  constructor <;> grind [Position.noNeed]

theorem Rest.noNeed_withdrawn (h : Shape { p with required := r } (some c)) (hb : c.busy = false)
    (hsis : p.sister = some i) (hij : j ≠ i) :
    Rest x { p with required := r } (some c)
      { p.noNeed with rack := if c.kind.booksRackAtPosting then .bare else p.rack } none j := by
  have hrack : c.kind.booksRackAtPosting = true → p.rack = .booked c.number := fun hk =>
    (h.rack c.number).mpr ⟨c, rfl, rfl, by revert hk; cases hk' : c.kind <;> simp [OrderKind.booksRackAtPosting, Order.hasRack, hk']⟩
  refine ⟨by grind [Claims, Position.noNeed], ?_⟩
  rintro hc u ⟨a, b, c, d, e⟩
  constructor <;> grind [Position.noNeed]

/-- A sister that lies in its pocket goes back to the store. -/
theorem Placed.released (hl : Lies x { p with required := r } o i u) (hk : ∃ k, u.place = .pocket k)
    {q : Position} {o' : Option Order} (hsis : q.sister = none) (hmounted : q.mounted = p.mounted)
    (hrack : q.rack = p.rack ∨ q.rack = .bare) (ho : o' = o ∨ o' = none) :
    Placed x q o' i { u with state := .stored, promised := none } := by
  obtain ⟨k, hk⟩ := hk
  obtain ⟨a, b, c, d, e⟩ := hl
  refine .inr ⟨?_, rfl, .inl ⟨rfl, k, hk⟩⟩
  rcases ho with rfl | rfl <;> grind [Claims]

/-- A sister that lies on the rack stays there as any tool. -/
theorem Placed.offloaded (hl : Lies x { p with required := r } o i u) (hrack : p.rack = .entry i)
    {q : Position} {o' : Option Order} (hsis : q.sister = none) (hmounted : q.mounted = p.mounted)
    (hrack' : q.rack = p.rack) (ho : o' = o ∨ o' = none) :
    Placed x q o' i { u with state := .offloaded, promised := none } := by
  obtain ⟨a, b, c, d, e⟩ := hl
  refine .inl ⟨.inl (hrack'.trans hrack), ?_⟩
  rcases ho with rfl | rfl <;> constructor <;> grind

/-- A sister that is out stays out without its promise. -/
theorem Placed.unpromised (hl : Lies x { p with required := r } o i u) (hc : o = some c) (hb : c.busy = true) (hi : c.Has i) :
    Placed x p.noNeed o i u.unpromise := by
  obtain ⟨a, b, c, d, e⟩ := hl
  refine .inl ⟨.inr (.inr (.inr ⟨_, hc, hb, hi⟩)), ?_⟩
  constructor <;> grind [Tool.unpromise, Position.noNeed]

end

end Sys2Proof.Machine

/-! PROOFS. Reservation, waiting, arbitration and the need test leave the cell in agreement. -/
namespace Sys2Proof.Machine

/-! ## The laws that the agreement leans on -/

/-- The orders and the waiting list are lawful. -/
def Listed (s : State) : Prop := OrderLaw s ∧ WaitingLaw s

theorem Listed.steps {C : PosIx → Prop} {s t : State} (h : Listed s) (hst : Steps C s t) : Listed t := by
  induction hst with
  | refl => exact h
  | tail _ hp ih => exact ⟨hp.orderLaw ih.1, hp.waitingLaw ih.2⟩

/-- The orders and the waiting list are lawful, and the positions agree. -/
def Whole (s : State) : Prop := Listed s ∧ ∃ f, Agrees s f

theorem Whole.steps {C : PosIx → Prop} {s t : State} (h : Whole s) (hst : Steps C s t)
    (hf : ∀ f, Agrees s f → ∃ g, Agrees t g) : Whole t :=
  ⟨h.1.steps hst, h.2.elim fun f h => hf f h⟩

theorem Whole.of_ret {s t : State} (h : Whole s) (ht : t.ret = s.ret) : Whole t :=
  ⟨⟨h.1.1.of_ret (by rw [ht]) (by rw [ht]) (by rw [ht]) (by rw [ht]), h.1.2.of_ret ht⟩,
    h.2.imp fun _ h => h.of_ret ht⟩

theorem whole_iff {s : State} : Whole s ↔ CellLaw s ∧ OrderLaw s ∧ WaitingLaw s :=
  ⟨fun ⟨⟨ho, hw⟩, _, hf⟩ => ⟨hf.cellLaw ho, ho, hw⟩, fun ⟨hc, ho, hw⟩ => ⟨⟨ho, hw⟩, _, hc.agrees ho⟩⟩

section
variable {s t : State} {f : PosIx → Option Order} {e : Ev} {x : PosIx} {i : EntryIx} {u : Tool}

theorem Agrees.of_view (h : Agrees s f) (hcore : ∀ c, HasCore t c ↔ HasCore s c) (hpos : t.pos = s.pos)
    (htool : t.tool = s.tool) (hpocket : t.pocket = s.pocket) : Agrees t f :=
  h.congr (h.stands.congr hcore) (fun x => by rw [hpos]) (fun i => by rw [htool]) hpocket

/-! ## Reservation and waiting (R101, R102) -/

theorem Agrees.reserved (h : Agrees s f)
    (hneed : (s.pos x).need = .noNeed ∧ (s.pos x).service ≠ .exchanging ∨ (s.pos x).need = .waiting)
    (hreq : (s.pos x).required.isSome = true) (hu : s.tool i = some u) (hst : u.state = .stored)
    (hcore : ∀ c, HasCore t c ↔ HasCore s c) (hpos : ∀ y, t.pos y = if x = y then (s.pos x).reserve i else s.pos y)
    (htool : ∀ j, t.tool j = if i = j then some { u with state := .reserved, promised := some x } else s.tool j)
    (hpocket : ∀ k, t.pocket k = s.pocket k) : Agrees t f := by
  have hloose := h.loose_of_state hu (.inl hst)
  have hno : ¬Claims (s.pos x) (f x) i := h.not_claims_of_loose hu hloose
  have hk : ∃ k, u.place = .pocket k := by
    obtain ⟨-, ⟨-, hk⟩ | ⟨hq, -⟩⟩ := hloose
    · exact hk
    · rw [hst] at hq
      cases hq
  have hnone := (h.shape x).sister_none (hneed.imp And.left id)
  exact h.changeRecordTool hcore hpos htool hpocket ((h.shape x).reserve hneed hreq hno)
    (fun j hj => Rest.reserve hj hnone) hu (h.owned_of_loose hu hloose) (fun _ => Iff.rfl) (Placed.reserve hno hk)

theorem Ev.agrees_reserve (h : Agrees e.st f)
    (hneed : (e.st.pos x).need = .noNeed ∧ (e.st.pos x).service ≠ .exchanging ∨ (e.st.pos x).need = .waiting)
    (hreq : (e.st.pos x).required.isSome = true) (hu : e.st.tool i = some u) (hst : u.state = .stored) :
    Agrees (e.reserve x i).st f := by
  refine h.reserved hneed hreq hu hst (fun _ => Iff.rfl) (fun y => ?_) (fun j => ?_) fun _ => rfl
  · simp [Ev.reserve]
  · simp [Ev.reserve, hu]

theorem Agrees.setUrgent (h : Agrees e.st f) (b : Bool) : Agrees (e.updPos x (·.setUrgent b)).st f :=
  h.setPos_cell rfl

theorem Agrees.joinWaiting (h : Agrees s f) : Agrees (s.joinWaiting x) f := by
  have hj : (s.joinWaiting x).ret = { s.ret with waiting := (s.joinWaiting x).ret.waiting } := by
    unfold State.joinWaiting
    dsimp only
    split <;> rfl
  refine h.of_view (fun c => HasCore.congr (by rw [hj]) (by rw [hj])) ?_ ?_ ?_
  · funext y
    rw [State.pos, hj]
    rfl
  · funext y
    rw [State.tool, hj]
    rfl
  · funext y
    rw [State.pocket, hj]
    rfl

theorem Ev.agrees_wait (h : Agrees e.st f) (hneed : (e.st.pos x).need = .noNeed)
    (hserv : (e.st.pos x).service ≠ .exchanging) (hreq : (e.st.pos x).required.isSome = true) :
    Agrees (e.wait x).st f := by
  have hnone := (h.shape x).sister_none (.inl hneed)
  have hwait : Agrees (e.st.setPos x (e.st.pos x).wait) f :=
    h.setPos (.inl rfl) (.inl rfl) (.inr rfl) hnone.symm ((h.shape x).wait hneed hserv hreq)
  exact (hwait.joinWaiting (x := x)).of_ret (State.ret_notify _ _ _)

/-! ## The need test (R93) -/

theorem Ev.whole_needTest (h : Whole e.st) (x : PosIx) : Whole (e.needTest x).st := by
  refine h.steps (C := fun _ => False) (e.steps_needTest x) fun f hf => ⟨f, ?_⟩
  unfold Ev.needTest
  split
  · next k hk =>
    obtain ⟨-, hneed, -, hserv, hreq, -⟩ := needFor_some hk
    have hserv' : (e.st.pos x).service ≠ .exchanging := by
      intro he
      rw [he] at hserv
      cases hserv
    have hreq' : (e.st.pos x).required.isSome = true := by
      rw [hreq]
      rfl
    have hpos : ((e.updPos x (·.setUrgent (e.st.mountedBroken x))).st.pos x) =
        (e.st.pos x).setUrgent (e.st.mountedBroken x) := by simp
    have hurgent := hf.setUrgent (x := x) (e.st.mountedBroken x)
    unfold Ev.raiseNeed
    dsimp only
    split
    · next i hi =>
      obtain ⟨u, hu, hst⟩ := eligible_stored (choose_eligible hi)
      exact Ev.agrees_reserve hurgent (.inl (by rw [hpos]; exact ⟨hneed, hserv'⟩)) (by rw [hpos]; exact hreq') hu hst
    · exact Ev.agrees_wait hurgent (by rw [hpos]; exact hneed) (by rw [hpos]; exact hserv') (by rw [hpos]; exact hreq')
  · exact hf

/-! ## Arbitration (R105) -/

theorem Ev.whole_reserve_candidate (h : Whole e.st) {k : TypeIx} (hx : e.st.candidate k = some x)
    (hi : e.st.choose k = some i) : Whole (e.reserve x i).st := by
  refine h.steps (C := fun _ => False) (e.steps_reserve x i) fun f hf => ⟨f, ?_⟩
  obtain ⟨u, hu, hst⟩ := eligible_stored (choose_eligible hi)
  have hwaiting := (h.1.2.2.1 x).mp (List.mem_of_find?_eq_some hx)
  have hreq : (e.st.pos x).required = some k := ((candidate_eq_some_iff _ _ _).mp hx).1.2
  exact Ev.agrees_reserve hf (.inr hwaiting) (by rw [hreq]; rfl) hu hst

theorem Ev.whole_arbitrateLoop (h : Whole e.st) (k : TypeIx) (n : Nat) : Whole (e.arbitrateLoop k n).st := by
  induction n generalizing e with
  | zero => exact h
  | succ n ih =>
    rw [Ev.arbitrateLoop]
    split
    · next hx hi => exact ih (Ev.whole_reserve_candidate h hx hi)
    · exact h

theorem Ev.whole_arbitrate (h : Whole e.st) (k : TypeIx) : Whole (e.arbitrate k).st := Ev.whole_arbitrateLoop h k _

theorem Ev.whole_offerTool (h : Whole e.st) (i : EntryIx) : Whole (e.offerTool i).st := by
  unfold Ev.offerTool
  split
  · split
    · exact Ev.whole_arbitrate h _
    · exact h
  · exact h

theorem Ev.whole_arbitrateIfWaited (h : Whole e.st) (k : TypeIx) : Whole (e.arbitrateIfWaited k).st := by
  unfold Ev.arbitrateIfWaited
  split
  · exact Ev.whole_arbitrate h k
  · exact h

theorem Ev.whole_arbitrateFor (h : Whole e.st) (x : PosIx) : Whole (e.arbitrateFor x).st := by
  unfold Ev.arbitrateFor
  split
  · split
    · exact Ev.whole_arbitrate h _
    · exact h
  · exact h

end

end Sys2Proof.Machine

/-! PROOFS. The cancellation of a need, and the withdrawal of orders, leave the cell in agreement. -/
namespace Sys2Proof.Machine

/-- The state with the required type of a position as it was before an ASSIGN. -/
def State.requiring (s : State) (x : PosIx) (r : Option TypeIx) : State := s.setPos x { s.pos x with required := r }

section
variable {s t : State} {f : PosIx → Option Order} {e : Ev} {x y : PosIx} {i : EntryIx} {u v : Tool} {r : Option TypeIx}
  {o c : Order}

theorem State.pos_requiring_self : (s.requiring x r).pos x = { s.pos x with required := r } := by
  simp [State.requiring]

theorem State.requiring_self : s.requiring x (s.pos x).required = s := State.setPos_self s x

/-! ## Withdrawal -/

theorem State.pocket_dropOrder (s : State) (n : Nat) : (s.dropOrder n).pocket = s.pocket := State.pocket_retire s n

theorem Ev.pos_withdraw (e : Ev) (o : Order) (y : PosIx) : (e.withdraw o).st.pos y =
    if o.pos = y then { e.st.pos y with rack := if o.kind.booksRackAtPosting then .bare else (e.st.pos y).rack }
    else e.st.pos y := by
  unfold Ev.withdraw
  dsimp only
  split
  · rw [Ev.st_updPos, State.pos_setPos]
    show (if o.pos = y then ((e.st.dropOrder o.number).pos o.pos).setRack .bare else (e.st.dropOrder o.number).pos y) = _
    rw [State.pos_dropOrder]
    split
    · next h => rw [← h]; rfl
    · rfl
  · show (e.st.dropOrder o.number).pos y = _
    rw [State.pos_dropOrder, ite_self]

theorem Ev.tool_withdraw (e : Ev) (o : Order) : (e.withdraw o).st.tool = e.st.tool := by
  unfold Ev.withdraw
  dsimp only
  split <;> exact State.tool_dropOrder _ _

theorem Ev.pocket_withdraw (e : Ev) (o : Order) : (e.withdraw o).st.pocket = e.st.pocket := by
  unfold Ev.withdraw
  dsimp only
  split <;> exact State.pocket_dropOrder _ _

theorem Ev.hasCore_withdraw (h : OrderLaw e.st) : HasCore (e.withdraw o).st c ↔ HasCore e.st c ∧ c.number ≠ o.number := by
  unfold Ev.withdraw
  dsimp only
  split <;> exact hasCore_dropOrder h

/-! ## The orders that the model looks up -/

/-- The STAGE or DIRECT that carries a sister is its position's order (R109). -/
theorem Agrees.carrierOf (h : Agrees s f) (hsis : (s.pos x).sister = some i) (hn : (s.pos x).need = .staging) :
    ∃ o ∈ s.standing, s.carrierOf i = some o ∧ o.pos = x ∧ o.incoming = some i ∧ (o.kind = .stage ∨ o.kind = .direct) := by
  obtain ⟨c, hc, hin, hk⟩ := (h.shape x).staging hn
  obtain ⟨q, hq, hpos, rfl⟩ := h.of_orderAt hc
  rw [hsis] at hin
  cases hf : s.carrierOf i with
  | none =>
    have hno := List.find?_eq_none.mp hf q hq
    simp only [Order.core_incoming, Order.core_kind] at hin hk
    simp [hin, hk] at hno
  | some o =>
    have hpick := List.find?_some hf
    simp only [Bool.and_eq_true, Bool.or_eq_true, decide_eq_true_eq] at hpick
    have ho : o ∈ s.standing := List.mem_of_find?_eq_some hf
    refine ⟨o, ho, rfl, ?_, hpick⟩
    exact h.claimant (h.claims_of_has (h.orderAt_of ho) (.inl hpick.1)) (.inr (.inr (.inl hsis)))

theorem Agrees.exchangeFor_some (h : s.exchangeFor x = some o) : o ∈ s.standing ∧ o.kind = .exchange ∧ o.pos = x := by
  have hpick := List.find?_some h
  simp only [Bool.and_eq_true, decide_eq_true_eq] at hpick
  exact ⟨List.mem_of_find?_eq_some h, hpick⟩

theorem Agrees.exchangeFor_none (h : Agrees s f) (hno : s.exchangeFor x = none) (hc : f x = some c) : c.kind ≠ .exchange := by
  obtain ⟨o, ho, hpos, rfl⟩ := h.of_orderAt hc
  have := List.find?_eq_none.mp hno o ho
  simpa [hpos] using this

/-! ## The cancellation of a need (R94, R108 to R110) -/

theorem Sisterless.of_busy (hc : f x = some c) (hb : c.busy = true) : Sisterless (f x) := by
  intro d hd hb'
  rw [Option.some.inj (hd.symm.trans hc), hb] at hb'
  cases hb'

/-- No order waits for the sister of a need that is WAITING or RESERVED. -/
theorem Shape.sisterless {p : Position} {o : Option Order} (h : Shape p o) (hneed : p.need = .waiting ∨ p.need = .reserved) :
    Sisterless o := by
  intro c hc hb
  obtain ⟨hstage, hdirect, hexchange, -⟩ := (h.order c hc).2.2 hb
  cases hk : c.kind with
  | remove => exact .inl rfl
  | return_ => exact .inr rfl
  | stage => simp [(hstage hk).2] at hneed
  | direct => simp [(hdirect hk).2.1] at hneed
  | exchange => simp [(hexchange hk).2.1] at hneed

/-- No order waits for the sister of a STAGED need without an EXCHANGE. -/
theorem Shape.sisterless_staged {p : Position} {o : Option Order} (h : Shape p o) (hneed : p.need = .staged)
    (hno : ∀ c, o = some c → c.kind ≠ .exchange) : Sisterless o := by
  intro c hc hb
  obtain ⟨hstage, hdirect, -⟩ := (h.order c hc).2.2 hb
  cases hk : c.kind with
  | remove => exact .inl rfl
  | return_ => exact .inr rfl
  | stage => simp [(hstage hk).2] at hneed
  | direct => simp [(hdirect hk).2.1] at hneed
  | exchange => exact absurd hk (hno c hc)

theorem Agrees.shape_requiring (h : Agrees (s.requiring x r) f) : Shape { s.pos x with required := r } (f x) := by
  rw [← State.pos_requiring_self]
  exact h.shape x

theorem State.pos_of_requiring {p : Position} (hpos : ∀ y, t.pos y = if x = y then p else s.pos y) (y : PosIx) :
    t.pos y = if x = y then p else (s.requiring x r).pos y := by
  rw [hpos]
  split
  · rfl
  · next h => simp [State.requiring, h]

/-- A need that waits is cleared. -/
theorem Agrees.cleared (h : Agrees (s.requiring x r) f) (hun : Unwanted (s.pos x) (f x))
    (hneed : (s.pos x).need = .waiting) (hcore : ∀ c, HasCore t c ↔ HasCore s c)
    (hpos : ∀ y, t.pos y = if x = y then (s.pos x).noNeed else s.pos y) (htool : ∀ j, t.tool j = s.tool j)
    (hpocket : ∀ k, t.pocket k = s.pocket k) : Agrees t f := by
  have hshape := h.shape_requiring
  refine h.changeRecord hcore (State.pos_of_requiring hpos) htool hpocket (hshape.noNeed hun (hshape.sisterless (.inl hneed)))
    fun j => ?_
  rw [State.pos_requiring_self]
  have hnone := hshape.sister_none (.inr hneed)
  refine ⟨by grind [Claims, Position.noNeed], ?_⟩
  rintro hc u ⟨a, b, c, d, e⟩
  constructor <;> grind [Position.noNeed]

/-- A need with a sister is cleared, and the sister is placed, the orders standing as they were. -/
theorem Agrees.clearedTool (h : Agrees (s.requiring x r) f) (hun : Unwanted (s.pos x) (f x)) (hless : Sisterless (f x))
    (hsis : (s.pos x).sister = some i) (hu : s.tool i = some u) (hplace : v.place = u.place)
    (hnew : Placed x (s.pos x).noNeed (f x) i v) (hcore : ∀ c, HasCore t c ↔ HasCore s c)
    (hpos : ∀ y, t.pos y = if x = y then (s.pos x).noNeed else s.pos y)
    (htool : ∀ j, t.tool j = if i = j then some v else s.tool j) (hpocket : ∀ k, t.pocket k = s.pocket k) : Agrees t f := by
  refine h.changeRecordTool hcore (State.pos_of_requiring hpos) htool hpocket (h.shape_requiring.noNeed hun hless)
    (fun j hj => ?_) hu (.inl (.inr (.inr (.inl ?_)))) (fun k => by rw [hplace]) hnew
  · rw [State.pos_requiring_self]
    exact Rest.noNeed (.inr hsis) hj
  · rwa [State.pos_requiring_self]

/-- A need is cleared with the order that waits for its sister, and the sister is placed. -/
theorem Agrees.clearedOrder (h : Agrees (s.requiring x r) f) (hc : f x = some c) (hb : c.busy = false)
    (hk : c.kind = .stage ∨ c.kind = .direct ∨ c.kind = .exchange) (hsis : (s.pos x).sister = some i)
    (hu : s.tool i = some u) (hplace : v.place = u.place)
    (hnew : Placed x { (s.pos x).noNeed with rack := if c.kind.booksRackAtPosting then .bare else (s.pos x).rack } none i v)
    (hcore : ∀ d, HasCore t d ↔ HasCore s d ∧ d.number ≠ c.number)
    (hpos : ∀ y, t.pos y = if x = y then
      { (s.pos x).noNeed with rack := if c.kind.booksRackAtPosting then .bare else (s.pos x).rack } else s.pos y)
    (htool : ∀ j, t.tool j = if i = j then some v else s.tool j) (hpocket : ∀ k, t.pocket k = s.pocket k) :
    Agrees t (Function.update f x none) := by
  have hshape := h.shape_requiring
  rw [hc] at hshape
  refine h.changeTool (h.stands.leave hc (h.number_unique hc) hcore) (State.pos_of_requiring hpos) htool hpocket .none
    (fun k n => ?_) (hshape.noNeed_withdrawn hb hk) (fun j hj => ?_) hu (.inl (.inr (.inr (.inl ?_))))
    (fun k => by rw [hplace]) hnew
  · rw [hc]
    simp [Books, Order.hasPocket, hb]
    grind
  · rw [State.pos_requiring_self, hc]
    exact Rest.noNeed_withdrawn hshape hb hsis hj
  · rwa [State.pos_requiring_self]

end

end Sys2Proof.Machine

/-! PROOFS. The cancellation of a need by an ASSIGN or a DECLARE leaves the cell in agreement (R94, R108 to R110). -/
namespace Sys2Proof.Machine

section
variable {s t : State} {f : PosIx → Option Order} {e : Ev} {x y : PosIx} {i : EntryIx} {u v : Tool} {r : Option TypeIx}
  {o c : Order} {g : Tool → Tool}

theorem Ev.pos_clearNeed (e : Ev) (x y : PosIx) :
    (e.clearNeed x).st.pos y = if x = y then (e.st.pos x).noNeed else e.st.pos y := by
  simp [Ev.clearNeed]

theorem Ev.tool_updTool_some (hu : e.st.tool i = some u) (j : EntryIx) :
    (e.updTool i g).st.tool j = if i = j then some (g u) else e.st.tool j := by
  simp [hu]

/-- The need is cleared, and the tool changes, in the state before the sister is offered again. -/
theorem Ev.agrees_clearTool (h : Agrees (e.st.requiring x r) f) (hun : Unwanted (e.st.pos x) (f x)) (hless : Sisterless (f x))
    (hsis : (e.st.pos x).sister = some i) (hu : e.st.tool i = some u) (hplace : (g u).place = u.place)
    (hnew : Placed x (e.st.pos x).noNeed (f x) i (g u)) : Agrees ((e.clearNeed x).updTool i g).st f :=
  h.clearedTool hun hless hsis hu hplace hnew (fun _ => Iff.rfl) (e.pos_clearNeed x)
    (Ev.tool_updTool_some (e := e.clearNeed x) hu) fun _ => rfl

/-- The need is cleared, its order is withdrawn, and the tool changes. -/
theorem Ev.agrees_clearOrder (hs : OrderLaw e.st) (h : Agrees (e.st.requiring x r) f) (ho : o ∈ e.st.standing)
    (hpos : o.pos = x) (hb : o.busy = false) (hk : o.kind = .stage ∨ o.kind = .direct ∨ o.kind = .exchange)
    (hsis : (e.st.pos x).sister = some i) (hu : e.st.tool i = some u) (hplace : (g u).place = u.place)
    (hnew : Placed x
      { (e.st.pos x).noNeed with rack := if o.kind.booksRackAtPosting then .bare else (e.st.pos x).rack } none i (g u)) :
    Agrees (((e.clearNeed x).withdraw o).updTool i g).st (Function.update f x none) := by
  subst hpos
  have hc : f o.pos = some o.core := h.orderAt_of ho
  have hu' : ((e.clearNeed o.pos).withdraw o).st.tool i = some u := by rw [Ev.tool_withdraw]; exact hu
  refine h.clearedOrder hc (by simpa using hb) hk hsis hu hplace hnew (fun d => ?_) (fun y => ?_) (fun j => ?_) fun k => ?_
  · exact Ev.hasCore_withdraw (e := e.clearNeed o.pos)
      (hs.of_ret (by rfl) (by rfl) (by rfl) (by rfl))
  · show ((e.clearNeed o.pos).withdraw o).st.pos y = _
    rw [Ev.pos_withdraw, Ev.pos_clearNeed]
    split <;> rfl
  · rw [Ev.tool_updTool_some hu', Ev.tool_withdraw]
    rfl
  · show ((e.clearNeed o.pos).withdraw o).st.pocket k = _
    rw [Ev.pocket_withdraw]
    rfl

/-- A need whose state goes with a sister has one. -/
theorem Shape.sister_some {p : Position} {o : Option Order} (h : Shape p o) (hneed : p.need ≠ .noNeed) (hwait : p.need ≠ .waiting) :
    ∃ i, p.sister = some i :=
  Option.isSome_iff_exists.mp (h.sister.mpr ⟨hneed, hwait⟩)

theorem Agrees.of_requiring (h : Agrees (s.requiring x r) f) (hun : Unwanted (s.pos x) (f x))
    (hneed : (s.pos x).need = .noNeed) : Agrees s f := by
  have hshape : Shape (s.pos x) (f x) := by
    obtain ⟨_, _, _, _, _, _, _, _, _, _, _⟩ := h.shape_requiring
    constructor <;> grind [Order.Out, Order.Posted, Unwanted]
  refine h.changeRecord (p := s.pos x) (fun _ => Iff.rfl) (State.pos_of_requiring fun y => ?_) (fun _ => rfl) (fun _ => rfl) hshape
    fun j => ?_
  · split
    · next h => rw [h]
    · rfl
  · rw [State.pos_requiring_self]
    exact ⟨Iff.rfl, fun _ _ ⟨a, b, c, d, e⟩ => ⟨a, b, c, d, e⟩⟩

theorem Ev.whole_clearReserved (hl : Listed e.st) (h : Agrees (e.st.requiring x r) f) (hun : Unwanted (e.st.pos x) (f x))
    (hneed : (e.st.pos x).need = .reserved) (hsis : (e.st.pos x).sister = some i) :
    Whole ((e.clearNeed x).releaseSister i).st := by
  obtain ⟨u, hu, hlies⟩ := h.claimed x i (.inr (.inr (.inl (by rwa [State.pos_requiring_self]))))
  rw [State.pos_requiring_self] at hlies
  obtain ⟨-, k, hk, -⟩ := hlies.stored hsis (.inl hneed)
  refine Ev.whole_offerTool ⟨?_, f, ?_⟩ i
  · exact (hl.steps (e.steps_clearNeed (C := fun _ => True) (x := x) trivial)).steps (C := fun _ => True)
      (Ev.steps_updTool _ (keepsAccount_promise _ _ _))
  · exact Ev.agrees_clearTool h hun (h.shape_requiring.sisterless (.inr hneed)) hsis hu rfl
      (Placed.released hlies ⟨k, hk⟩ rfl rfl (.inl rfl) (.inl rfl))

theorem Ev.whole_clearStaging (hl : Listed e.st) (h : Agrees (e.st.requiring x r) f) (hun : Unwanted (e.st.pos x) (f x))
    (hneed : (e.st.pos x).need = .staging) (hsis : (e.st.pos x).sister = some i) :
    Whole ((e.clearNeed x).cancelStaging i).st := by
  have hsis' : ((e.st.requiring x r).pos x).sister = some i := by rwa [State.pos_requiring_self]
  have hneed' : ((e.st.requiring x r).pos x).need = .staging := by rwa [State.pos_requiring_self]
  obtain ⟨o, ho, hcar, rfl, hin, hk⟩ := h.carrierOf hsis' hneed'
  obtain ⟨u, hu, hlies⟩ := h.claimed o.pos i (.inr (.inr (.inl hsis')))
  rw [State.pos_requiring_self] at hlies
  have hc : f o.pos = some o.core := h.orderAt_of ho
  have hclear := hl.steps (e.steps_clearNeed (C := fun _ => True) (x := o.pos) trivial)
  have hcar' : (e.clearNeed o.pos).st.carrierOf i = some o := hcar
  unfold Ev.cancelStaging
  rw [hcar']
  dsimp only
  cases hb : o.busy with
  | true =>
    have hb' : o.core.busy = true := by simpa using hb
    refine ⟨hclear.steps (C := fun _ => True) (Ev.steps_updTool _ (keepsAccount_unpromise _)), f, ?_⟩
    exact Ev.agrees_clearTool h hun (.of_busy hc hb') hsis hu rfl (Placed.unpromised hlies hc hb' (.inl hin))
  | false =>
    have hb' : o.core.busy = false := by simpa using hb
    obtain ⟨-, k, hk', -⟩ := hlies.stored hsis (.inr ⟨hneed, fun d hd => by rwa [← Option.some.inj (hc.symm.trans hd)]⟩)
    refine Ev.whole_offerTool ⟨?_, Function.update f o.pos none, ?_⟩ i
    · exact (hclear.steps (C := fun _ => True) (Ev.steps_withdraw _ o)).steps (C := fun _ => True)
        (Ev.steps_updTool _ (keepsAccount_promise _ _ _))
    · refine Ev.agrees_clearOrder hl.1 h ho rfl hb (hk.imp id .inl) hsis hu rfl ?_
      refine Placed.released hlies ⟨k, hk'⟩ rfl rfl ?_ (.inr rfl)
      dsimp only
      split
      · exact .inr rfl
      · exact .inl rfl

theorem Ev.whole_clearStaged (hl : Listed e.st) (h : Agrees (e.st.requiring x r) f) (hun : Unwanted (e.st.pos x) (f x))
    (hneed : (e.st.pos x).need = .staged) (hsis : (e.st.pos x).sister = some i) :
    Whole ((e.clearNeed x).cancelStaged x i).st := by
  have hsis' : ((e.st.requiring x r).pos x).sister = some i := by rwa [State.pos_requiring_self]
  obtain ⟨u, hu, hlies⟩ := h.claimed x i (.inr (.inr (.inl hsis')))
  rw [State.pos_requiring_self] at hlies
  have hshape := h.shape_requiring
  have hclear := hl.steps (e.steps_clearNeed (C := fun _ => True) (x := x) trivial)
  have hstaged := hshape.staged i hneed hsis
  have hfor : (e.clearNeed x).st.exchangeFor x = (e.st.requiring x r).exchangeFor x := rfl
  unfold Ev.cancelStaged
  rw [hfor]
  split
  · next o hex =>
    obtain ⟨ho, hk, rfl⟩ := Agrees.exchangeFor_some hex
    have hc : f o.pos = some o.core := h.orderAt_of ho
    cases hb : o.busy with
    | true =>
      have hb' : o.core.busy = true := by simpa using hb
      refine ⟨hclear.steps (C := fun _ => True) (Ev.steps_updTool _ (keepsAccount_unpromise _)), f, ?_⟩
      have hin : o.core.incoming = some i := by
        obtain hr | ⟨d, hd, -, -, hin⟩ := hstaged
        · have hrack := (hshape.rack o.number).mpr ⟨_, hc, rfl, .inr (.inr (.inr hb'))⟩
          rw [hr] at hrack
          cases hrack
        · rwa [← Option.some.inj (hc.symm.trans hd)] at hin
      exact Ev.agrees_clearTool h hun (.of_busy hc hb') hsis hu rfl (Placed.unpromised hlies hc hb' (.inl hin))
    | false =>
      have hrack : (e.st.pos o.pos).rack = .entry i := by
        refine hstaged.resolve_right fun ⟨d, hd, hb', _⟩ => ?_
        rw [← Option.some.inj (hc.symm.trans hd), Order.core_busy, hb] at hb'
        cases hb'
      refine ⟨?_, Function.update f o.pos none, ?_⟩
      · exact (hclear.steps (C := fun _ => True) (Ev.steps_withdraw _ o)).steps (C := fun _ => True)
          (Ev.steps_updTool _ (keepsAccount_promise _ _ _))
      · refine Ev.agrees_clearOrder hl.1 h ho rfl hb (.inr (.inr hk)) hsis hu rfl ?_
        refine Placed.offloaded hlies hrack rfl rfl ?_ (.inr rfl)
        rw [hk]
        rfl
  · next hno =>
    have hless := hshape.sisterless_staged hneed fun c hc => h.exchangeFor_none hno hc
    have hrack : (e.st.pos x).rack = .entry i :=
      hstaged.resolve_right fun ⟨d, hd, _, hk, _⟩ => h.exchangeFor_none hno hd hk
    refine ⟨hclear.steps (C := fun _ => True) (Ev.steps_updTool _ (keepsAccount_promise _ _ _)), f, ?_⟩
    exact Ev.agrees_clearTool h hun hless hsis hu rfl (Placed.offloaded hlies hrack rfl rfl rfl (.inl rfl))

/-- The cancellation of a need, the required type having changed or not. -/
theorem Ev.whole_cancelNeed_requiring (hl : Listed e.st) (h : Agrees (e.st.requiring x r) f)
    (hun : Unwanted (e.st.pos x) (f x)) : Whole (e.cancelNeed x).st := by
  have hshape := h.shape_requiring
  unfold Ev.cancelNeed
  dsimp only
  split
  · next hneed => exact ⟨hl, f, h.of_requiring hun hneed⟩
  · next hneed =>
    refine ⟨hl.steps (e.steps_clearNeed (C := fun _ => True) (x := x) trivial), f, ?_⟩
    exact h.cleared hun hneed (fun _ => Iff.rfl) (e.pos_clearNeed x) (fun _ => rfl) fun _ => rfl
  · next hneed hsis => exact Ev.whole_clearReserved hl h hun hneed hsis
  · next hneed hsis => exact Ev.whole_clearStaging hl h hun hneed hsis
  · next hneed hsis => exact Ev.whole_clearStaged hl h hun hneed hsis
  · next hsis hneed hwait =>
    obtain ⟨i, hi⟩ := hshape.sister_some hneed hwait
    rw [show (e.st.pos x).sister = some i from hi] at hsis
    cases hsis

theorem Ev.whole_cancelNeed (h : Whole e.st) (x : PosIx) : Whole (e.cancelNeed x).st := by
  obtain ⟨hl, f, hf⟩ := h
  refine Ev.whole_cancelNeed_requiring (r := (e.st.pos x).required) hl ?_ (hf.shape x).unwanted
  rwa [State.requiring_self]

end

end Sys2Proof.Machine

/-! PROOFS. Service states, findings and triggers, urgency, and the work that follows an event leave the cell in agreement. -/
namespace Sys2Proof.Machine

section
variable {s t : State} {f : PosIx → Option Order} {e : Ev} {x y : PosIx} {i : EntryIx} {u v : Tool} {p q : Position}
  {o : Option Order}

/-! ## Service states -/

/-- A tool is on the spindle, and the spindle is the station's. -/
def Service.atWork (v : Service) : Prop := v = .serving ∨ v = .due ∨ v = .held

/-- A spindle that is the station's takes another such service state, or is released: no order waits for it. -/
theorem Shape.changeService (h : Shape p o) {v : Service} (hp : p.service.atWork) (hv : v.atWork ∨ v = .released) :
    Shape { p with service := v } o := by
  obtain ⟨_, _, _, _, _, _, _, _, _, _, _⟩ := h
  constructor <;> grind [Service.atWork, Order.Out, Order.Posted]

/-- A spindle is taken back, where no order waits for it. -/
theorem Shape.reclaim (h : Shape p o) {v : Service} (hp : p.service = .released) (hv : v.atWork)
    (hno : ∀ c, o = some c → c.busy = false → c.kind = .stage ∨ c.kind = .return_) : Shape { p with service := v } o := by
  obtain ⟨_, _, _, _, _, _, _, _, _, _, _⟩ := h
  constructor <;> grind [Service.atWork, Order.Out, Order.Posted]

theorem cell_eq_iff : p.cell = q.cell ↔ p.service = q.service ∧ p.required = q.required ∧ p.mounted = q.mounted ∧
    p.rack = q.rack ∧ p.need = q.need ∧ p.sister = q.sister ∧ p.returnWaiting = q.returnWaiting := by
  simp [Position.cell]

theorem Agrees.setService (h : Agrees s f) (hcell : p.cell = Position.cell { s.pos x with service := p.service })
    (hshape : Shape { s.pos x with service := p.service } (f x)) : Agrees (s.setPos x p) f := by
  obtain ⟨-, -, hmounted, hrack, hneed, hsis, -⟩ := cell_eq_iff.mp hcell
  refine h.setPos (.inl hrack) (.inl hmounted) (.inl hneed) hsis ?_
  rw [← shape_cell, hcell, shape_cell]
  exact hshape

/-- A change of service state of a position at work. -/
theorem Agrees.setWork (h : Agrees s f) (hs : (s.pos x).service.atWork) (hp : p.service.atWork ∨ p.service = .released)
    (hcell : p.cell = Position.cell { s.pos x with service := p.service }) : Agrees (s.setPos x p) f :=
  h.setService hcell ((h.shape x).changeService hs hp)

/-! ## Findings and triggers (R56 to R58) -/

theorem Ev.agrees_updTool_spot (h : Agrees e.st f) {g : Tool → Tool} (hg : ∀ u, (g u).spot = u.spot) :
    Agrees (e.updTool i g).st f := by
  refine h.congr (h.stands.congr fun _ => Iff.rfl) (fun _ => rfl) (fun j => ?_) rfl
  show ((e.st.setTool i ((e.st.tool i).map g)).tool j).map Tool.spot = _
  rw [State.tool_setTool]
  split
  · next hj =>
    rw [hj, Option.map_map]
    cases e.st.tool j with
    | none => rfl
    | some u => exact congrArg some (hg u)
  · rfl

theorem Agrees.finding (h : Agrees s f) (c : DueCause) : Agrees (s.setPos x ((s.pos x).finding c)) f := by
  by_cases hwork : (s.pos x).service.atWork
  · refine h.setWork hwork ?_ ?_ <;> unfold Position.finding Service.atWork at * <;> split <;> simp_all [Position.cell]
  · refine h.setPos_cell ?_
    unfold Position.finding Service.atWork at *
    split <;> simp_all [Position.cell]

theorem Ev.agrees_finding (h : Agrees e.st f) (x : PosIx) (i : EntryIx) (c : Condition) (d : DueCause) :
    Agrees (e.finding x i c d).st f := by
  have htool : Agrees (e.updTool i fun t => { t with condition := c }).st f := Ev.agrees_updTool_spot h fun _ => rfl
  have hpos : Agrees ((e.updTool i fun t => { t with condition := c }).updPos x (·.finding d)).st f := htool.finding d
  unfold Ev.finding
  dsimp only
  split
  · exact hpos.of_ret (State.ret_notifySlot _ _ _)
  · exact hpos

theorem Ev.whole_finding (h : Whole e.st) (x : PosIx) (i : EntryIx) (c : Condition) (d : DueCause) :
    Whole (e.finding x i c d).st :=
  h.steps (C := fun _ => False) (e.steps_finding x i c d) fun f hf => ⟨f, Ev.agrees_finding hf x i c d⟩

theorem Ev.whole_evalTriggers (h : Whole e.st) (x : PosIx) : Whole (e.evalTriggers x).st := by
  unfold Ev.evalTriggers
  split
  · exact h
  · next i t _ =>
    have hfound : Whole (if e.st.partsLeft t = 0 ∧ t.condition = .sound then e.finding x i .worn .worn else e).st := by
      split
      · exact Ev.whole_finding h x i .worn .worn
      · exact h
    dsimp only
    generalize (if e.st.partsLeft t = 0 ∧ t.condition = .sound then e.finding x i .worn .worn else e) = found at hfound ⊢
    split
    · exact Ev.whole_needTest hfound x
    · exact hfound

theorem Ev.whole_foldl {α : Type} {g : Ev → α → Ev} (hg : ∀ e a, Whole e.st → Whole (g e a).st) (l : List α)
    (h : Whole e.st) : Whole (l.foldl g e).st := by
  induction l generalizing e with
  | nil => exact h
  | cons a l ih => exact ih (hg e a h)

theorem Ev.whole_reevaluate (h : Whole e.st) (k : TypeIx) (but : Option EntryIx) : Whole (e.reevaluate k but).st := by
  refine Ev.whole_foldl (fun e x h => ?_) _ h
  split
  · exact Ev.whole_evalTriggers h x
  · exact h

theorem Agrees.setType (h : Agrees s f) (k : TypeIx) (r : Option TypeRec) : Agrees (s.setType k r) f :=
  h.of_view (fun _ => Iff.rfl) rfl rfl rfl

/-! ## Urgency (R111) -/

theorem Ev.whole_makeNeedUrgent (h : Whole e.st) (x : PosIx) : Whole (e.makeNeedUrgent x).st := by
  refine h.steps (C := fun _ => False) (e.steps_makeNeedUrgent x) fun f hf => ⟨f, ?_⟩
  unfold Ev.makeNeedUrgent
  dsimp only
  split
  · exact hf
  · have hurgent := hf.setUrgent (x := x) true
    split
    · exact hurgent.joinWaiting
    · exact hurgent.of_view (fun _ => hasCore_hasten (h.1.1.of_ret rfl rfl rfl rfl) _) rfl rfl rfl
    · exact hurgent

end

end Sys2Proof.Machine

/-! PROOFS. The orders that the hand-off posts leave the cell in agreement (R116 to R119). -/
namespace Sys2Proof.Machine

/-! ## The record of a posted order -/

section
variable {x : PosIx} {p : Position} {o : Option Order} {i j : EntryIx} {u : Tool} {c d : Order} {k : PocketIx} {n : Nat}

/-- A STAGE is posted for a reserved sister. -/
theorem Shape.postStage (h : Shape p none) (hneed : p.need = .reserved) (hsis : p.sister = some i) (hrack : p.rack = .bare)
    (hf : c.Formed) (hb : c.busy = false) (hk : c.kind = .stage) (hin : c.incoming = some i) :
    Shape { p with rack := .booked c.number, need := .staging } (some c) := by
  obtain ⟨_, _, _, _, _, _, _, _, _, _, _⟩ := h
  constructor <;> grind [Order.Posted, Order.hasRack, Order.hasSpindle]

/-- A DIRECT is posted for a reserved sister. -/
theorem Shape.postDirect (h : Shape p none) (hneed : p.need = .reserved) (hsis : p.sister = some i) (hrack : p.rack = .bare)
    (hserv : p.service = .released) (hm : p.mounted = .entry j) (hf : c.Formed) (hb : c.busy = false) (hk : c.kind = .direct)
    (hin : c.incoming = some i) (hout : c.outgoing = some j) :
    Shape { p with rack := .booked c.number, need := .staging } (some c) := by
  obtain ⟨_, _, _, _, _, _, _, _, _, _, _⟩ := h
  constructor <;> grind [Order.Posted, Order.hasRack, Order.hasSpindle]

/-- A DIRECT takes the place of a STAGE. -/
theorem Shape.replaceStage (h : Shape p (some d)) (hd : d.kind = .stage) (hdb : d.busy = false) (hsis : p.sister = some i)
    (hserv : p.service = .released) (hm : p.mounted = .entry j) (hf : c.Formed) (hb : c.busy = false) (hk : c.kind = .direct)
    (hin : c.incoming = some i) (hout : c.outgoing = some j) :
    Shape { p with rack := .booked c.number } (some c) := by
  obtain ⟨_, _, _, _, _, _, _, _, _, _, _⟩ := h
  constructor <;> grind [Order.Posted, Order.hasRack, Order.hasSpindle]

/-- An EXCHANGE is posted for a staged sister. -/
theorem Shape.postExchange (h : Shape p none) (hneed : p.need = .staged) (hsis : p.sister = some i)
    (hserv : p.service = .released ∧ (∃ j, c.outgoing = some j ∧ p.mounted = .entry j) ∨
      p.service = .vacant ∧ c.outgoing = none)
    (hf : c.Formed) (hb : c.busy = false) (hk : c.kind = .exchange) (hin : c.incoming = some i) : Shape p (some c) := by
  obtain ⟨_, _, _, _, _, _, _, _, _, _, _⟩ := h
  constructor <;> grind [Order.Posted, Order.hasRack, Order.hasSpindle]

/-- A REMOVE is posted where no type is required. -/
theorem Shape.postRemove (h : Shape p none) (hreq : p.required = none) (hserv : p.service = .released)
    (hrack : p.rack = .bare) (hm : p.mounted = .entry j) (hf : c.Formed) (hb : c.busy = false) (hk : c.kind = .remove)
    (hout : c.outgoing = some j) : Shape { p with rack := .booked c.number } (some c) := by
  obtain ⟨_, _, _, _, _, _, _, _, _, _, _⟩ := h
  constructor <;> grind [Order.Posted, Order.hasRack, Order.hasSpindle]

/-- A RETURN is posted for the tool on the rack. -/
theorem Shape.postReturn (h : Shape p none) (hrack : p.rack = .entry i) (hsis : p.sister ≠ some i) (hf : c.Formed)
    (hb : c.busy = false) (hk : c.kind = .return_) (hout : c.outgoing = some i) :
    Shape { p with returnWaiting := false } (some c) := by
  obtain ⟨_, _, _, _, _, _, _, _, _, _, _⟩ := h
  constructor <;> grind [Order.Posted, Order.hasRack, Order.hasSpindle]

/-- A position waits for a pocket for the tool on its rack. -/
theorem Shape.awaitPocket (h : Shape p none) (hrack : p.rack = .entry i) (hsis : p.sister ≠ some i) :
    Shape { p with returnWaiting := true } none := by
  obtain ⟨_, _, _, _, _, _, _, _, _, _, _⟩ := h
  constructor <;> grind

/-- An order that is posted to wait leaves the tools as they are claimed, where the need and what the record names stay. -/
theorem Rest.post {q : Position} (hneed : q.need = p.need ∧ p.need ≠ .staging ∨ p.sister ≠ some i)
    (hsis : q.sister = p.sister) (hm : q.mounted = p.mounted) (hrack : q.rack = .entry i ↔ p.rack = .entry i)
    (hb : c.busy = false) : Rest x p none q (some c) i := by
  refine ⟨by grind [Claims], ?_⟩
  rintro hc u ⟨a, b, c, d, e⟩
  constructor <;> grind

/-- The sister of a posted STAGE or DIRECT stays reserved in its pocket. -/
theorem Placed.posted {q : Position} (hl : Lies x p none i u) (hneed : p.need = .reserved) (hsis : p.sister = some i)
    (hqs : q.sister = p.sister) (hm : q.mounted = p.mounted) (hrack : q.rack ≠ .entry i) (hb : c.busy = false)
    (hu : ∀ k, u.place = .pocket k → c.pocket = some k) : Placed x q (some c) i u := by
  obtain ⟨a, b, d, e, g⟩ := hl
  refine .inl ⟨.inr (.inr (.inl (hqs.trans hsis))), ?_⟩
  constructor <;> grind

/-- The tools are claimed by a position with a DIRECT as with the STAGE that it replaces. -/
theorem Rest.replaceStage (hdb : d.busy = false) (hb : c.busy = false)
    (hpocket : c.pocket = d.pocket) (hrack : ∀ i, p.rack ≠ .entry i) :
    Rest x p (some d) { p with rack := .booked n } (some c) i := by
  refine ⟨by grind [Claims], ?_⟩
  rintro hc u ⟨hpromised, -, hmounted, -, hstored⟩
  simp only [Option.some.injEq, forall_eq'] at hstored
  refine ⟨hpromised, nofun, hmounted, by grind, ?_⟩
  simp only [Option.some.injEq, forall_eq', hb, hpocket]
  simpa only [hdb] using hstored

/-- An order that waits and is no RETURN books no pocket. -/
theorem not_books_of_waiting (hb : c.busy = false) (hk : c.kind ≠ .return_) (k : PocketIx) (n : Nat) : ¬Books (some c) k n := by
  rintro ⟨d, hd, -, -, hp⟩
  obtain rfl := Option.some.inj hd
  obtain hp | ⟨hp, -⟩ := hp
  · exact hk hp
  · rw [hb] at hp
    cases hp

theorem not_books_none (k : PocketIx) (n : Nat) : ¬Books none k n := nofun

end

end Sys2Proof.Machine

/-! PROOFS. The posting hand-off and the pocket arbiter leave the cell in agreement (R95, R116 to R119). -/
namespace Sys2Proof.Machine

section
variable {s t : State} {f : PosIx → Option Order} {e : Ev} {x y : PosIx} {i j : EntryIx} {u v : Tool} {o c : Order}

/-! ## What the hand-off finds -/

theorem Agrees.fresh (h : Agrees s f) (hs : OrderLaw s) : ∀ y d, f y = some d → d.number ≠ s.nextNumber := by
  intro y d hd hn
  obtain ⟨o, ho, -, rfl⟩ := h.of_orderAt hd
  exact hs.nextNumber_fresh.1 (hn ▸ List.mem_map.mpr ⟨o, ho, rfl⟩)

theorem State.tool_enqueue (s : State) (o : Order) : (s.enqueue o).tool = s.tool := by
  unfold State.enqueue
  split <;> rfl

/-- A position's order has the rack booked, or waits for the tool on it. -/
theorem Shape.rack_cases {p : Position} (h : Shape p (some c)) : p.rack = .booked c.number ∨
    c.kind = .exchange ∧ c.busy = false ∧ p.sister = c.incoming ∧ (∃ i, c.incoming = some i ∧ p.rack = .entry i) ∨
    c.kind = .return_ ∧ c.busy = false ∧ ∃ j, c.outgoing = some j ∧ p.rack = .entry j ∧ p.sister ≠ some j := by
  by_cases hr : c.hasRack
  · exact .inl ((h.rack c.number).mpr ⟨c, rfl, rfl, hr⟩)
  have hb : c.busy = false := Bool.eq_false_iff.mpr fun hb => hr (.inr (.inr (.inr hb)))
  obtain ⟨-, -, hexchange, -, hreturn⟩ := (h.order c rfl).2.2 hb
  cases hk : c.kind with
  | stage => exact absurd (.inl hk) hr
  | direct => exact absurd (.inr (.inl hk)) hr
  | remove => exact absurd (.inr (.inr (.inl hk))) hr
  | exchange => exact .inr (.inl ⟨rfl, hb, (hexchange hk).1, (hexchange hk).2.2.1⟩)
  | return_ => exact .inr (.inr ⟨rfl, hb, hreturn hk⟩)

/-- An EMPTY rack has no order. -/
theorem Shape.order_none_of_bare {p : Position} {r : Option Order} (h : Shape p r) (hrack : p.rack = .bare) : r = none := by
  cases r with
  | none => rfl
  | some c => grind [h.rack_cases]

/-- A STAGED need that has no EXCHANGE has its sister on the rack and no order. -/
theorem Shape.staged_rack {p : Position} {r : Option Order} (h : Shape p r) (hneed : p.need = .staged)
    (hsis : p.sister = some i) (hno : ∀ c, r = some c → c.kind ≠ .exchange) : p.rack = .entry i ∧ r = none := by
  have hrack : p.rack = .entry i := (h.staged i hneed hsis).resolve_right fun ⟨c, hc, _, hk, _⟩ => hno c hc hk
  refine ⟨hrack, ?_⟩
  cases r with
  | none => rfl
  | some c => grind [h.rack_cases]

/-- The OFFLOADED tool that no order names is on the rack of a position without an order (R116). -/
theorem Agrees.callsReturn (h : Agrees s f) (hi : s.callsReturn x = some i) :
    (s.pos x).rack = .entry i ∧ (s.pos x).sister ≠ some i ∧ f x = none := by
  obtain ⟨hrack, ⟨u, hu, hst⟩, hnone⟩ := (callsReturn_eq_some_iff s x i).mp hi
  have hl := (h.lies (.inl hrack) hu).rack hrack
  have hsis : (s.pos x).sister ≠ some i := by
    intro hsis
    rw [if_pos hsis, hst] at hl
    cases hl.2
  refine ⟨hrack, hsis, ?_⟩
  cases hc : f x with
  | none => rfl
  | some c =>
    obtain ⟨o, ho, hpos, rfl⟩ := h.of_orderAt hc
    obtain ⟨hin, hout⟩ := hnone o ho
    have hshape := h.shape x
    rw [hc] at hshape
    obtain hr | ⟨-, -, -, j, hj, hr⟩ | ⟨-, -, j, hj, hr, -⟩ := hshape.rack_cases <;> rw [hrack] at hr
    · cases hr
    · exact absurd (hj.trans (congrArg some (Holding.entry.inj hr).symm)) hin
    · exact absurd (hj.trans (congrArg some (Holding.entry.inj hr).symm)) hout

/-- The mounted tool that an order takes off the spindle (R116). -/
theorem Agrees.outgoing_released (h : Agrees s f) (hserv : (s.pos x).service = .released) :
    ∃ j, (s.mountedTool x).map (·.1) = some j ∧ (s.pos x).mounted = .entry j := by
  obtain ⟨j, hj⟩ := (h.shape x).occupied (.inr (.inr (.inr hserv)))
  obtain ⟨t, ht, hst, -⟩ := h.tool_mounted hj
  refine ⟨j, ?_, hj⟩
  simp [State.mountedTool, hj, ht, hst]

theorem Agrees.outgoing_vacant (h : Agrees s f) (hserv : (s.pos x).service = .vacant) :
    (s.mountedTool x).map (·.1) = none := by
  simp [State.mountedTool, (h.shape x).vacant hserv]

/-! ## Posting (R116, R117) -/

theorem newOrder_waits (s : State) (x : PosIx) (kind : OrderKind) (b : Bool) (i j : Option EntryIx) (k : Option PocketIx) :
    (s.newOrder x kind b i j k).busy = false := rfl

/-- The new order stands for its position. -/
theorem Agrees.stands_enqueue (h : Agrees s f) {kind : OrderKind} {b : Bool} {i j : Option EntryIx} {k : Option PocketIx}
    (hnone : f x = none) (ht : ∀ d, HasCore t d ↔ HasCore (s.enqueue (s.newOrder x kind b i j k)) d) :
    Stands t (Function.update f x (some (s.newOrder x kind b i j k).core)) :=
  h.stands.post (o := s.newOrder x kind b i j k) hnone fun d => (ht d).trans (hasCore_enqueue rfl)

theorem Agrees.follow_enqueue (h : Agrees s f) (hs : OrderLaw s) {kind : OrderKind} {b : Bool} {i j : Option EntryIx}
    {k : Option PocketIx} : Follow f x (some (s.newOrder x kind b i j k).core) :=
  .fresh (h.fresh hs) (by rw [Order.core_busy, newOrder_waits])

/-- An order that waits, and is no RETURN, is posted, with a change of the record of its position. -/
theorem Agrees.posted (h : Agrees s f) (hs : OrderLaw s) {kind : OrderKind} {b : Bool} {i j : Option EntryIx}
    {k : Option PocketIx} {p : Position} (hnone : f x = none) (hkind : kind ≠ .return_)
    (ht : ∀ d, HasCore t d ↔ HasCore (s.enqueue (s.newOrder x kind b i j k)) d)
    (hpos : ∀ y, t.pos y = if x = y then p else s.pos y) (htool : ∀ i, t.tool i = s.tool i)
    (hpocket : ∀ k, t.pocket k = s.pocket k) (hshape : Shape p (some (s.newOrder x kind b i j k).core))
    (hrest : ∀ l, Rest x (s.pos x) none p (some (s.newOrder x kind b i j k).core) l) :
    Agrees t (Function.update f x (some (s.newOrder x kind b i j k).core)) := by
  refine h.change (h.stands_enqueue hnone ht) hpos htool hpocket (h.follow_enqueue hs) (fun l m => ?_) hshape ?_
  · rw [hnone]
    exact iff_of_false (not_books_of_waiting (by rw [Order.core_busy, newOrder_waits]) hkind l m) (not_books_none l m)
  · rwa [hnone]

theorem Ev.agrees_postReturn (hs : OrderLaw e.st) (h : Agrees e.st f) (hi : e.st.callsReturn x = some i)
    {k : Option PocketIx} (hk : ∀ l, k = some l → e.st.pocket l = .free) : ∃ g, Agrees (e.postReturn x i k).st g := by
  obtain ⟨hrack, hsis, hnone⟩ := h.callsReturn hi
  cases hroom : e.st.hasRoom with
  | false =>
    rw [Ev.postReturn_full hroom]
    exact ⟨f, h⟩
  | true =>
    have hx := h.shape x
    rw [hnone] at hx
    have hformed : (e.st.newOrder x .return_ false none (some i) k).core.Formed := by
      constructor <;> simp [State.newOrder]
    have hshape := hx.postReturn (c := (e.st.newOrder x .return_ false none (some i) k).core) hrack hsis hformed
      (by rw [Order.core_busy, newOrder_waits]) rfl rfl
    have hrest : ∀ l, Rest x (e.st.pos x) none { e.st.pos x with returnWaiting := false }
        (some (e.st.newOrder x .return_ false none (some i) k).core) l := fun l =>
      Rest.post (.inl ⟨rfl, fun hn => by obtain ⟨c, hc, -⟩ := hx.staging hn; cases hc⟩) rfl rfl Iff.rfl
        (by rw [Order.core_busy, newOrder_waits])
    have hpos : ∀ y, ((e.st.enqueue (e.st.newOrder x .return_ false none (some i) k)).setPos x
        { e.st.pos x with returnWaiting := false }).pos y =
        if x = y then { e.st.pos x with returnWaiting := false } else e.st.pos y := fun y => by
      rw [State.pos_setPos, State.pos_enqueue]
    cases k with
    | none =>
      rw [Ev.st_postReturn_chute hroom]
      refine ⟨_, h.change (h.stands_enqueue hnone fun _ => Iff.rfl) hpos (fun l => ?_) (fun l => ?_) (h.follow_enqueue hs)
        (fun l m => ?_) hshape (by rwa [hnone])⟩
      · exact congrFun (State.tool_enqueue _ _) l
      · exact congrFun (State.pocket_enqueue _ _) l
      · rw [hnone]
        refine iff_of_false ?_ (not_books_none l m)
        rintro ⟨c, hc, -, hk', -⟩
        obtain rfl := Option.some.inj hc
        cases hk'
    | some k =>
      have hfree := hk k rfl
      rw [Ev.st_postReturn_pocket hroom]
      have hbooks : ∀ l m, Books (some (e.st.newOrder x .return_ false none (some i) (some k)).core) l m ↔
          l = k ∧ m = e.st.nextNumber := by
        intro l m
        constructor
        · rintro ⟨c, hc, rfl, hl, -⟩
          obtain rfl := Option.some.inj hc
          exact ⟨(Option.some.inj hl).symm, rfl⟩
        · rintro ⟨rfl, rfl⟩
          exact ⟨_, rfl, rfl, rfl, .inl rfl⟩
      refine ⟨_, Patch.agrees (x := x) (o := some (e.st.newOrder x .return_ false none (some i) (some k)).core)
        (T := fun _ => False) (K := fun l => l = k) ⟨h.stands_enqueue hnone fun _ => Iff.rfl,
        fun y hy => (hpos y).trans (if_neg hy.symm), fun l _ => congrFun (State.tool_enqueue _ _) l, fun l hl => ?_, ?_, nofun,
        fun l _ => ?_, nofun, nofun, nofun, ?_, fun l m hl => ?_, ?_, ?_, (h.follow_enqueue hs).number,
        (h.follow_enqueue hs).out⟩ h⟩
      · rw [State.pocket_setPocket, if_neg (Ne.symm hl)]
        exact congrFun (State.pocket_enqueue _ _) l
      · rw [State.pos_setPocket, hpos, if_pos rfl]
        exact hshape
      · rw [State.pos_setPocket, hpos, if_pos rfl, hnone]
        exact hrest l
      · rintro l m rfl (hl | hl)
        · rw [hfree] at hl
          cases hl
        · simp at hl
      · rw [hbooks, hnone]
        exact iff_of_false (fun hlm => hl hlm.1) (not_books_none l m)
      · rintro l m rfl
        rw [hbooks, State.pocket_setPocket, if_pos rfl, Pocket.booked.injEq]
        simp [eq_comm]
      · rintro l m rfl hl
        rw [hfree] at hl
        cases hl

theorem Ev.agrees_awaitPocket (h : Agrees e.st f) (hi : e.st.callsReturn x = some i) : Agrees (e.awaitPocket x).st f := by
  obtain ⟨hrack, hsis, hnone⟩ := h.callsReturn hi
  have hx := h.shape x
  rw [hnone] at hx
  rw [Ev.st_awaitPocket]
  split
  · exact h
  · have hset : Agrees (e.st.setPos x { e.st.pos x with returnWaiting := true }) f := by
      refine h.setPos (.inl rfl) (.inl rfl) (.inl rfl) rfl ?_
      rw [hnone]
      exact hx.awaitPocket hrack hsis
    exact hset.of_ret (State.ret_notify _ _ _)

theorem Ev.agrees_callReturn (hs : OrderLaw e.st) (h : Agrees e.st f) (hi : e.st.callsReturn x = some i) :
    ∃ g, Agrees (e.callReturn x i).st g := by
  unfold Ev.callReturn
  split
  · exact Ev.agrees_postReturn hs h hi nofun
  · split
    · next k hk =>
      refine Ev.agrees_postReturn hs h hi fun l hl => ?_
      rw [← Option.some.inj hl]
      exact freePocket_free hk
    · exact ⟨f, Ev.agrees_awaitPocket h hi⟩

/-- A STAGE or DIRECT is posted for a sister that lies reserved in its pocket. -/
theorem Ev.agrees_postCarrier (hs : OrderLaw e.st) (h : Agrees e.st f) {kind : OrderKind} {b : Bool} {j : Option EntryIx}
    (hkind : kind = .stage ∨ kind = .direct) (hneed : (e.st.pos x).need = .reserved) (hrack : (e.st.pos x).rack = .bare)
    (hsis : (e.st.pos x).sister = some i) (hshape : ∀ c : Order, c.busy = false → c.kind = kind → c.incoming = some i →
      c.outgoing = j → (∃ k, c.pocket = some k) →
      Shape { e.st.pos x with rack := .booked c.number, need := .staging } (some c)) :
    ∃ g, Agrees (e.postOrder x kind b (some i) j (e.st.pocketOf i)).st g := by
  cases hroom : e.st.hasRoom with
  | false =>
    rw [Ev.postOrder_full hroom]
    exact ⟨f, h⟩
  | true =>
    have hnone := (h.shape x).order_none_of_bare hrack
    obtain ⟨u, hu, hlies⟩ := h.claimed x i (.inr (.inr (.inl hsis)))
    obtain ⟨-, k, hk, -⟩ := hlies.stored hsis (.inl hneed)
    have hpocket : e.st.pocketOf i = some k := pocketOf_eq hu hk
    have hwaits : (e.st.newOrder x kind b (some i) j (e.st.pocketOf i)).core.busy = false := by
      rw [Order.core_busy, newOrder_waits]
    rw [Ev.st_postOrder_carrier hroom hkind]
    refine ⟨_, h.changeTool (h.stands_enqueue hnone fun _ => Iff.rfl) (u := u) (v := u) (i := i)
      (p := { e.st.pos x with rack := .booked e.st.nextNumber, need := .staging }) (fun y => ?_) (fun l => ?_)
      (fun l => congrFun (State.pocket_enqueue _ _) l) (h.follow_enqueue hs) (fun l m => ?_)
      (hshape _ hwaits rfl rfl rfl ⟨k, hpocket⟩) (fun l hl => ?_) hu (.inl (.inr (.inr (.inl hsis)))) (fun _ => Iff.rfl) ?_⟩
    · show ((e.st.enqueue _).setPos x _).pos y = _
      rw [State.pos_setPos, State.pos_enqueue]
    · show (e.st.enqueue _).tool l = _
      rw [State.tool_enqueue]
      split
      · next hl => rw [← hl, hu]
      · rfl
    · rw [hnone]
      refine iff_of_false (not_books_of_waiting hwaits (fun hr => ?_) l m) (not_books_none l m)
      have hr' : kind = .return_ := hr
      rw [hr'] at hkind
      obtain h | h := hkind <;> cases h
    · rw [hnone]
      refine Rest.post (.inr fun hl' => ?_) rfl rfl (by simp [hrack]) hwaits
      exact hl (Option.some.inj (hl'.symm.trans hsis))
    · rw [hnone] at hlies
      refine Placed.posted hlies hneed hsis rfl rfl nofun hwaits fun l hl => ?_
      rw [hk] at hl
      exact hpocket.trans (congrArg some (Place.pocket.inj hl))

theorem Ev.agrees_postStage (hs : OrderLaw e.st) (h : Agrees e.st f) (hi : e.st.callsStage x = some i) (b : Bool) :
    ∃ g, Agrees (e.postOrder x .stage b (some i) none (e.st.pocketOf i)).st g := by
  unfold State.callsStage at hi
  dsimp only at hi
  split at hi
  · next hcalls =>
    obtain ⟨hneed, hrack⟩ := hcalls
    have hx := h.shape x
    rw [hx.order_none_of_bare hrack] at hx
    refine Ev.agrees_postCarrier hs h (.inl rfl) hneed hrack hi fun c hb hk hin hout hpocket => ?_
    refine hx.postStage hneed hi hrack ?_ hb hk hin
    constructor <;> simp [hk, hin, hout, hpocket, Option.isSome_iff_exists]
  · cases hi

end

end Sys2Proof.Machine

/-! PROOFS. The posting hand-off, the pocket arbiter and the end of an event keep the cell (R95, R116 to R119). -/
namespace Sys2Proof.Machine

section
variable {s t : State} {f : PosIx → Option Order} {e : Ev} {x y : PosIx} {i j : EntryIx} {u v : Tool} {o c : Order}

/-- What a DIRECT waits for (R116). -/
theorem callsDirect_cases {r : Option Order} (h : s.callsDirect x = some (i, r)) :
    (s.pos x).sister = some i ∧ (s.pos x).service = .released ∧
      (r = none ∧ (s.pos x).need = .reserved ∧ (s.pos x).rack = .bare ∨
        (s.pos x).need = .staging ∧ ∃ o, r = some o ∧ s.waitingStage x i = some o) := by
  unfold State.callsDirect at h
  dsimp only at h
  split at h
  · next l hl =>
    split at h
    · next hcond =>
      simp only [Bool.and_eq_true, decide_eq_true_eq] at hcond
      split at h
      · next hnr =>
        obtain ⟨rfl, rfl⟩ := Prod.mk.inj (Option.some.inj h)
        exact ⟨hl, hcond.1.2, .inl ⟨rfl, hnr⟩⟩
      · split at h
        · next hstaging =>
          obtain ⟨o, ho, he⟩ := Option.map_eq_some_iff.mp h
          obtain ⟨rfl, rfl⟩ := Prod.mk.inj he
          exact ⟨hl, hcond.1.2, .inr ⟨hstaging, o, rfl, ho⟩⟩
        · cases h
    · cases h
  · cases h

/-- The STAGE that a DIRECT replaces (R119). -/
theorem waitingStage_cases (h : s.waitingStage x i = some o) : o ∈ s.standing ∧ (s.pos x).rack = .booked o.number ∧
    o.kind = .stage ∧ o.incoming = some i ∧ o.busy = false := by
  unfold State.waitingStage at h
  split at h
  · next n hn =>
    have hpick := List.find?_some h
    simp only [Bool.and_eq_true, decide_eq_true_eq, Bool.not_eq_true'] at hpick
    obtain ⟨⟨⟨rfl, hk⟩, hin⟩, hb⟩ := hpick
    exact ⟨List.mem_of_find?_eq_some h, hn, hk, hin, hb⟩
  · cases h

/-- The order that has a position's rack booked is the position's. -/
theorem Agrees.pos_of_rack (h : Agrees s f) (hrack : (s.pos x).rack = .booked o.number) (ho : o ∈ s.standing) : o.pos = x := by
  obtain ⟨c, hc, hn, -⟩ := ((h.shape x).rack o.number).mp hrack
  exact (h.number_unique hc) _ _ (h.orderAt_of ho) hn.symm

theorem Ev.agrees_postDirect (hs : OrderLaw e.st) (h : Agrees e.st f) (hi : e.st.callsDirect x = some (i, none)) (b : Bool) :
    ∃ g, Agrees (e.postOrder x .direct b (some i) ((e.st.mountedTool x).map (·.1)) (e.st.pocketOf i)).st g := by
  obtain ⟨hsis, hserv, ⟨-, hneed, hrack⟩ | ⟨-, o, ho, -⟩⟩ := callsDirect_cases hi
  · have hx := h.shape x
    rw [hx.order_none_of_bare hrack] at hx
    obtain ⟨j, hj, hm⟩ := h.outgoing_released hserv
    have hij : i ≠ j := by
      rintro rfl
      obtain ⟨t, -, hl⟩ := h.claimed x i (.inr (.inl hm))
      exact (hl.mounted hm).2.2 hsis
    refine Ev.agrees_postCarrier hs h (.inr rfl) hneed hrack hsis fun c hb hk hin hout hpocket => ?_
    rw [hj] at hout
    refine hx.postDirect hneed hsis hrack hserv hm ?_ hb hk hin hout
    constructor <;> simp [hk, hin, hout, hpocket, Option.isSome_iff_exists, hij]
  · cases ho

theorem Ev.agrees_postExchange (hs : OrderLaw e.st) (h : Agrees e.st f) (hi : e.st.callsExchange x = some i) (b : Bool) :
    ∃ g, Agrees (e.postOrder x .exchange b (some i) ((e.st.mountedTool x).map (·.1)) none).st g := by
  unfold State.callsExchange at hi
  dsimp only at hi
  split at hi
  · next hcalls =>
    obtain ⟨hneed, hno, hserv⟩ := hcalls
    rw [Option.isNone_iff_eq_none] at hno
    cases hroom : e.st.hasRoom with
    | false =>
      rw [Ev.postOrder_full hroom]
      exact ⟨f, h⟩
    | true =>
      have hx := h.shape x
      obtain ⟨hrack, hnone⟩ := hx.staged_rack hneed hi fun c hc => h.exchangeFor_none hno hc
      rw [hnone] at hx
      rw [Ev.st_postOrder_exchange hroom]
      have hwaits : (e.st.newOrder x .exchange b (some i) ((e.st.mountedTool x).map (·.1)) none).core.busy = false := by
        rw [Order.core_busy, newOrder_waits]
      have hspindle : (e.st.pos x).service = .released ∧
          (∃ j, (e.st.mountedTool x).map (·.1) = some j ∧ (e.st.pos x).mounted = .entry j) ∨
          (e.st.pos x).service = .vacant ∧ (e.st.mountedTool x).map (·.1) = none :=
        hserv.imp (fun hr => ⟨hr, h.outgoing_released hr⟩) fun hv => ⟨hv, h.outgoing_vacant hv⟩
      have hdistinct : (e.st.mountedTool x).map (·.1) ≠ some i := by
        obtain ⟨-, j, hj, hm⟩ | ⟨-, hn⟩ := hspindle
        · rw [hj]
          rintro ⟨⟩
          obtain ⟨t, -, hl⟩ := h.claimed x i (.inr (.inl hm))
          exact (hl.mounted hm).2.2 hi
        · rw [hn]
          nofun
      refine ⟨_, h.posted (kind := .exchange) hs (p := e.st.pos x) hnone nofun (fun _ => Iff.rfl) (fun y => ?_)
        (fun l => congrFun (State.tool_enqueue _ _) l) (fun l => congrFun (State.pocket_enqueue _ _) l)
        (hx.postExchange hneed hi hspindle ?_ hwaits rfl rfl) fun l => ?_⟩
      · rw [State.pos_enqueue]
        split
        · next hy => rw [hy]
        · rfl
      · constructor <;> simp [State.newOrder, hdistinct.symm]
      · exact Rest.post (.inl ⟨rfl, by rw [hneed]; nofun⟩) rfl rfl Iff.rfl hwaits
  · cases hi

theorem Ev.agrees_postRemove (hs : OrderLaw e.st) (h : Agrees e.st f) (hi : e.st.callsRemove x = some j) (b : Bool) :
    ∃ g, Agrees (e.postOrder x .remove b none (some j) none).st g := by
  unfold State.callsRemove at hi
  dsimp only at hi
  split at hi
  · next hcalls =>
    obtain ⟨hreq, hserv, hrack⟩ := hcalls
    cases hroom : e.st.hasRoom with
    | false =>
      rw [Ev.postOrder_full hroom]
      exact ⟨f, h⟩
    | true =>
      have hx := h.shape x
      have hnone := hx.order_none_of_bare hrack
      rw [hnone] at hx
      obtain ⟨l, hl, hm⟩ := h.outgoing_released hserv
      obtain rfl : l = j := Option.some.inj (hl.symm.trans hi)
      rw [Ev.st_postOrder_remove hroom]
      have hwaits : (e.st.newOrder x .remove b none (some l) none).core.busy = false := by
        rw [Order.core_busy, newOrder_waits]
      have hstaging : (e.st.pos x).need ≠ .staging := fun hn => by
        obtain ⟨c, hc, -⟩ := hx.staging hn
        cases hc
      refine ⟨_, h.posted (kind := .remove) hs hnone nofun (fun _ => Iff.rfl) (fun y => ?_) (fun l => congrFun (State.tool_enqueue _ _) l)
        (fun l => congrFun (State.pocket_enqueue _ _) l)
        (hx.postRemove (c := (e.st.newOrder x .remove b none (some l) none).core) hreq hserv hrack hm ?_ hwaits rfl rfl)
        fun l => ?_⟩
      · rw [State.pos_setPos, State.pos_enqueue]
        rfl
      · constructor <;> simp [State.newOrder]
      · exact Rest.post (.inl ⟨rfl, hstaging⟩) rfl rfl (by simp [hrack]) hwaits
  · cases hi

theorem State.view_replaceOrder (s : State) (n : Nat) (o : Order) : (s.replaceOrder n o).pos = s.pos ∧
    (s.replaceOrder n o).tool = s.tool ∧ (s.replaceOrder n o).pocket = s.pocket := by
  unfold State.replaceOrder
  split <;> exact ⟨rfl, rfl, rfl⟩

theorem Ev.agrees_replaceStage (hs : OrderLaw e.st) (h : Agrees e.st f) (hi : e.st.callsDirect x = some (i, some o)) :
    ∃ g, Agrees (e.replaceStage x i o ((e.st.mountedTool x).map (·.1))).st g := by
  obtain ⟨hsis, hserv, ⟨hno, -⟩ | ⟨hneed, q, hq, hstage⟩⟩ := callsDirect_cases hi
  · cases hno
  obtain rfl := Option.some.inj hq
  obtain ⟨ho, hrack, hk, hin, hb⟩ := waitingStage_cases hstage
  obtain rfl := h.pos_of_rack hrack ho
  have hc := h.orderAt_of ho
  have hb' : o.core.busy = false := by simpa using hb
  obtain ⟨k, hk', t, ht, -, hplace⟩ := h.tool_staging hc hb' hsis hneed
  have hpocket : e.st.pocketOf i = o.core.pocket := (pocketOf_eq ht hplace).trans hk'.symm
  obtain ⟨j, hj, hm⟩ := h.outgoing_released hserv
  have hij : i ≠ j := by
    rintro rfl
    obtain ⟨t, -, hl⟩ := h.claimed o.pos i (.inr (.inl hm))
    exact (hl.mounted hm).2.2 hsis
  generalize (e.st.mountedTool o.pos).map (·.1) = out at hj ⊢
  rw [Ev.replaceStage_eq]
  obtain ⟨hvpos, hvtool, hvpocket⟩ := e.st.view_replaceOrder o.number (e.st.replacing o.pos i o out)
  have hwaits : (e.st.replacing o.pos i o out).core.busy = false := by
    rw [Order.core_busy]
    refine Order.not_busy ?_
    unfold State.replacing
    dsimp only
    split
    · exact .inl rfl
    · exact .inr rfl
  have hx := h.shape o.pos
  rw [hc] at hx
  refine ⟨_, h.change (x := o.pos) (r := some (e.st.replacing o.pos i o out).core)
    (p := { e.st.pos o.pos with rack := .booked e.st.nextNumber }) ?_ (fun y => ?_)
    (fun l => congrFun hvtool l) (fun l => congrFun hvpocket l) (.fresh (h.fresh hs) hwaits) (fun l m => ?_)
    (hx.replaceStage (c := (e.st.replacing o.pos i o out).core) hk hb' hsis hserv hm ?_
      hwaits rfl rfl hj) fun l => ?_⟩
  · exact h.stands.change (o := e.st.replacing o.pos i o out) hc
      (h.number_unique hc) fun d => hasCore_replaceOrder hs
  · rw [Ev.st_updPos, State.pos_setPos]
    show (if o.pos = y then ((e.st.replaceOrder _ _).pos o.pos).setRack _ else (e.st.replaceOrder _ _).pos y) = _
    rw [hvpos]
    rfl
  · rw [hc]
    exact iff_of_false (not_books_of_waiting hwaits nofun l m) (not_books_of_waiting hb' (by simp [hk]) l m)
  · have hsome : o.pocket = some k := hk'
    constructor <;> simp [State.replacing, hj, hpocket, hsome, hij]
  · rw [hc]
    exact Rest.replaceStage hb' hwaits hpocket fun l hl => by rw [hrack] at hl; cases hl

/-! ## The hand-off and the end of an event -/

theorem Ev.whole_handOff (h : Whole e.st) (x : PosIx) : Whole (e.handOff x).st := by
  refine h.steps (C := fun _ => False) (e.steps_handOff x) fun f hf => ?_
  have hs := h.1.1
  unfold Ev.handOff
  dsimp only
  split
  · next i hc =>
    obtain ⟨-, ⟨_, he, hi⟩ | ⟨_, he, -⟩ | ⟨_, he, -⟩ | ⟨_, he, -⟩ | ⟨_, he, -⟩⟩ := callFor_cases hc <;> cases he
    exact Ev.agrees_callReturn hs hf hi
  · next i hc =>
    obtain ⟨-, ⟨_, he, -⟩ | ⟨⟨l, r⟩, he, hi⟩ | ⟨_, he, -⟩ | ⟨_, he, -⟩ | ⟨_, he, -⟩⟩ := callFor_cases hc <;> cases he
    exact Ev.agrees_postDirect hs hf hi true
  · next i o hc =>
    obtain ⟨-, ⟨_, he, -⟩ | ⟨⟨l, r⟩, he, hi⟩ | ⟨_, he, -⟩ | ⟨_, he, -⟩ | ⟨_, he, -⟩⟩ := callFor_cases hc <;> cases he
    exact Ev.agrees_replaceStage hs hf hi
  · next i hc =>
    obtain ⟨-, ⟨_, he, -⟩ | ⟨_, he, -⟩ | ⟨_, he, hi⟩ | ⟨_, he, -⟩ | ⟨_, he, -⟩⟩ := callFor_cases hc <;> cases he
    exact Ev.agrees_postStage hs hf hi _
  · next i hc =>
    obtain ⟨-, ⟨_, he, -⟩ | ⟨_, he, -⟩ | ⟨_, he, -⟩ | ⟨_, he, hi⟩ | ⟨_, he, -⟩⟩ := callFor_cases hc <;> cases he
    exact Ev.agrees_postExchange hs hf hi _
  · next j hc =>
    obtain ⟨-, ⟨_, he, -⟩ | ⟨_, he, -⟩ | ⟨_, he, -⟩ | ⟨_, he, -⟩ | ⟨_, he, hi⟩⟩ := callFor_cases hc <;> cases he
    exact Ev.agrees_postRemove hs hf hi _
  · exact ⟨f, hf⟩

theorem Ev.whole_handOffs (h : Whole e.st) : Whole e.handOffs.st :=
  Ev.whole_foldl (fun _ x h => Ev.whole_handOff h x) _ h

theorem Ev.whole_offerPocket (h : Whole e.st) (k : PocketIx) : Whole (e.offerPocket k).st := by
  refine h.steps (C := fun _ => False) (e.steps_offerPocket k) fun f hf => ?_
  unfold Ev.offerPocket
  split
  · next hfree =>
    split
    · split
      · next hi =>
        refine Ev.agrees_postReturn h.1.1 hf hi fun l hl => ?_
        rw [← Option.some.inj hl]
        exact hfree
      · exact ⟨f, hf⟩
    · exact ⟨f, hf⟩
  · exact ⟨f, hf⟩

/-- The end of an event keeps the cell. -/
theorem whole_finish (before : State) (h : Whole e.st) : Whole (finish before e) := by
  refine Whole.of_ret (s := (e.handOffs.offerPockets before).st) ?_ (ret_finish before e)
  exact Ev.whole_foldl (fun _ k h => Ev.whole_offerPocket h k) _ (Ev.whole_handOffs h)

end

end Sys2Proof.Machine

/-! PROOFS. The events that change settings, service states and accounts leave the cell in agreement. -/
namespace Sys2Proof.Machine

section
variable {s t : State} {f : PosIx → Option Order} {e : Ev} {x y : PosIx} {i j : EntryIx} {k : PocketIx} {u v : Tool}
  {p : Position}

/-! ## Changes that leave the orders and the waiting list -/

/-- The orders and the waiting list are lawful where neither they nor the needs change. -/
theorem Listed.of_same (h : Listed s) (hq : t.ret.queue = s.ret.queue) (hb : t.ret.backlog = s.ret.backlog)
    (hx : t.ret.expired = s.ret.expired) (hc : t.ret.counter = s.ret.counter) (hw : t.ret.waiting = s.ret.waiting)
    (hneed : ∀ x, (t.pos x).need = (s.pos x).need ∧ (t.pos x).urgent = (s.pos x).urgent) : Listed t :=
  ⟨h.1.of_ret hq hb hx hc, h.2.congr hw (fun x => (hneed x).1) fun x _ => (hneed x).2⟩

theorem Listed.setTool (h : Listed s) (i : EntryIx) (u : Option Tool) : Listed (s.setTool i u) :=
  h.of_same rfl rfl rfl rfl rfl fun _ => ⟨rfl, rfl⟩

theorem Listed.setPocket (h : Listed s) (k : PocketIx) (v : Pocket) : Listed (s.setPocket k v) :=
  h.of_same rfl rfl rfl rfl rfl fun _ => ⟨rfl, rfl⟩

theorem Listed.setPos (h : Listed s) (hneed : p.need = (s.pos x).need) (hurgent : p.urgent = (s.pos x).urgent) :
    Listed (s.setPos x p) := by
  refine h.of_same rfl rfl rfl rfl rfl fun y => ?_
  rw [State.pos_setPos]
  split
  · next hy => exact hy ▸ ⟨hneed, hurgent⟩
  · exact ⟨rfl, rfl⟩

theorem Whole.setPos_cell (h : Whole s) (hcell : p.cell = (s.pos x).cell) (hurgent : p.urgent = (s.pos x).urgent) :
    Whole (s.setPos x p) :=
  ⟨h.1.setPos (cell_eq_iff.mp hcell).2.2.2.2.1 hurgent, h.2.imp fun _ h => h.setPos_cell hcell⟩

theorem Whole.setWork (h : Whole s) (hs : (s.pos x).service.atWork) (hp : p.service.atWork ∨ p.service = .released)
    (hcell : p.cell = Position.cell { s.pos x with service := p.service }) (hurgent : p.urgent = (s.pos x).urgent) :
    Whole (s.setPos x p) :=
  ⟨h.1.setPos (cell_eq_iff.mp hcell).2.2.2.2.1 hurgent, h.2.imp fun _ h => h.setWork hs hp hcell⟩

theorem Whole.setType (h : Whole s) (k : TypeIx) (r : Option TypeRec) : Whole (s.setType k r) :=
  ⟨h.1.of_same rfl rfl rfl rfl rfl fun _ => ⟨rfl, rfl⟩, h.2.imp fun _ h => h.setType k r⟩

theorem Ev.whole_updTool_spot (h : Whole e.st) {g : Tool → Tool} (hg : ∀ u, (g u).spot = u.spot) (i : EntryIx) :
    Whole (e.updTool i g).st :=
  ⟨h.1.setTool i _, h.2.imp fun _ h => Ev.agrees_updTool_spot h hg⟩

theorem Ev.whole_updPos_cell (h : Whole e.st) {g : Position → Position} (hcell : (g (e.st.pos x)).cell = (e.st.pos x).cell)
    (hurgent : (g (e.st.pos x)).urgent = (e.st.pos x).urgent) : Whole (e.updPos x g).st := h.setPos_cell hcell hurgent

theorem Ev.whole_notifySlot (h : Whole e.st) (x : PosIx) (n : Slot → Notice) : Whole (e.notifySlot x n).st :=
  h.of_ret (State.ret_notifySlot _ _ _)

theorem Ev.whole_notify (h : Whole e.st) (q : Port) (n : Notice) : Whole (e.notify q n).st := h.of_ret (State.ret_notify _ _ _)

theorem Ev.whole_setChan (h : Whole e.st) (x : PosIx) (c : State → Channel) :
    Whole (e.upd fun s => s.setChan x (c s)).st := h.of_ret rfl

/-! ## Consumption and gauges (R50 to R64) -/

theorem Ev.whole_chargeMounted (h : Whole e.st) (x : PosIx) (a : TypeRec → Nat) {count : Tool → Tool}
    (hcount : ∀ u, (count u).spot = u.spot) : Whole (e.chargeMounted x a count).st := by
  unfold Ev.chargeMounted
  split
  · exact h
  · exact Ev.whole_updTool_spot h (by intro u; exact hcount _) _

theorem Ev.whole_gaugeTool (h : Whole e.st) (x : PosIx) (i : EntryIx) (u : Tool) (d : Nat) : Whole (e.gaugeTool x i u d).st := by
  have hdoubt := Ev.whole_updTool_spot h (g := Tool.doubtGauge) (fun _ => rfl) i
  unfold Ev.gaugeTool
  split
  · split
    · exact Ev.whole_needTest (Ev.whole_evalTriggers (Ev.whole_finding hdoubt _ _ _ _) x) x
    · exact Ev.whole_evalTriggers hdoubt x
  · exact Ev.whole_evalTriggers (Ev.whole_updTool_spot h (by intro _; rfl) i) x

/-! ## The monitor (R157 to R163) -/

theorem Ev.whole_hold (h : Whole e.st) (x : PosIx) (c : HoldCause) : Whole (e.hold x c).st := by
  refine Ev.whole_needTest (Ev.whole_notifySlot (e := e.updPos x (·.hold c)) ?_ x _) x
  rw [Ev.st_updPos]
  unfold Position.hold
  split
  · next hs => exact h.setWork (.inl hs) (.inl (.inr (.inr rfl))) rfl rfl
  · next hs => exact h.setWork (.inr (.inl hs)) (.inl (.inr (.inr rfl))) rfl rfl
  · exact h.setPos_cell rfl rfl

theorem Ev.whole_tripByMode (h : Whole e.st) (x : PosIx) : Whole (e.tripByMode x).st := by
  unfold Ev.tripByMode
  dsimp only
  split
  · exact h
  · exact h
  · exact Ev.whole_hold h x _
  · split
    · exact Ev.whole_hold (Ev.whole_setChan (Ev.whole_updPos_cell h (by rfl) (by rfl)) x _) x _
    · exact Ev.whole_hold h x _

theorem Ev.whole_trip (h : Whole e.st) (x : PosIx) (i : EntryIx) : Whole (e.trip x i).st :=
  Ev.whole_tripByMode
    (Ev.whole_notify (Ev.whole_notifySlot (Ev.whole_updTool_spot (Ev.whole_setChan h x _) (by intro _; rfl) i) x _) _ _) x

theorem Ev.whole_evaluate (h : Whole e.st) (words : Vector SampleWord 16) (x : PosIx) : Whole (e.evaluate words x).st := by
  unfold Ev.evaluate
  split
  · exact h
  · next i u _ =>
    have hpeaks : Whole ((e.updTool i fun t => { t with
        peakAE := peakAfter (e.st.sampleFor words x .ae) t.peakAE
        peakPower := peakAfter (e.st.sampleFor words x .power) t.peakPower }).st) :=
      Ev.whole_updTool_spot h (by intro _; rfl) i
    dsimp only
    split
    · exact Ev.whole_trip (Ev.whole_setChan hpeaks x fun _ => _) x i
    · exact Ev.whole_setChan hpeaks x fun _ => _

theorem Ev.whole_deliverTo (words : Vector SampleWord 16) (h : Whole e.st) (x : PosIx) :
    Whole (e.deliverTo words x).st := by
  unfold Ev.deliverTo
  split
  · split
    · exact h
    · exact h
    · exact Ev.whole_setChan h x _
    · exact Ev.whole_evaluate h words x
  · exact h

theorem Whole.endHold (h : Whole s) (hheld : (s.pos x).service = .held) : Whole (s.setPos x (s.pos x).endHold) := by
  refine h.setWork (.inr (.inr hheld)) (.inl ?_) rfl rfl
  unfold Position.endHold Service.atWork
  dsimp only
  split
  · exact .inr (.inl rfl)
  · exact .inl rfl

theorem Ev.whole_noticeDue (h : Whole e.st) (x : PosIx) : Whole (e.noticeDue x).st := by
  unfold Ev.noticeDue
  split
  · exact Ev.whole_notifySlot h x _
  · exact h

theorem Ev.whole_verdictChannel (h : Whole e.st) (x : PosIx) : Whole (e.verdictChannel x).st :=
  h.of_ret (State.ret_restartChannel _ x)

theorem Ev.whole_breakTool (h : Whole e.st) (x : PosIx) : Whole (e.breakTool x).st := by
  unfold Ev.breakTool
  split
  · exact h
  · exact Ev.whole_updTool_spot h (by intro _; rfl) _

theorem Ev.pos_breakTool (e : Ev) (x : PosIx) : (e.breakTool x).st.pos = e.st.pos := by
  unfold Ev.breakTool
  split <;> rfl

theorem Ev.whole_verdictBroken (h : Whole e.st) (hserv : (e.st.pos x).service.atWork) :
    Whole ((((((e.breakTool x).updPos x Position.broken).notifySlot x .due).makeNeedUrgent x).needTest x).verdictChannel
      x).st := by
  refine Ev.whole_verdictChannel (Ev.whole_needTest (Ev.whole_makeNeedUrgent (Ev.whole_notifySlot ?_ x _) x) x) x
  refine (Ev.whole_breakTool h x).setWork ?_ (.inl (.inr (.inl rfl))) rfl rfl
  rwa [Ev.pos_breakTool]

/-! ## A pocket that is declared FREE (R39) -/

/-- An UNKNOWN pocket has neither a tool nor an order, and may be FREE. -/
theorem Agrees.freeUnknown (h : Agrees s f) (hk : s.pocket k = .unknown) : Agrees (s.setPocket k .free) f := by
  refine ⟨h.stands.congr fun _ => Iff.rfl, h.shape, h.claimed, h.loose, fun l i => ?_, fun l n => ?_, h.numbers, h.oneOut⟩
  · refine Iff.trans ?_ (h.stored l i)
    rw [State.pocket_setPocket]
    split
    · next hl => rw [← hl, hk]; exact iff_of_false nofun nofun
    · exact Iff.rfl
  · refine Iff.trans ?_ (h.booked l n)
    rw [State.pocket_setPocket]
    split
    · next hl => rw [← hl, hk]; exact iff_of_false nofun nofun
    · exact Iff.rfl

end

end Sys2Proof.Machine

/-! PROOFS. Orders that are withdrawn by an ASSIGN or a RECLAIM leave the cell in agreement (R85, R89, R132). -/
namespace Sys2Proof.Machine

section
variable {s t : State} {f : PosIx → Option Order} {e : Ev} {x y : PosIx} {i j : EntryIx} {u v : Tool} {p q : Position}
  {o c : Order} {r : Option Order} {req : Option TypeIx}

/-! ## The record of a withdrawn order -/

theorem Shape.withdrawSpindle (h : Shape p (some c)) (hb : c.busy = false) (hk : c.kind = .exchange ∨ c.kind = .remove) :
    Shape { p with rack := if c.kind.booksRackAtPosting then .bare else p.rack } none := by
  obtain ⟨_, _, _, _, _, _, _, _, _, _, _⟩ := h
  constructor <;> grind [Order.Posted, Order.hasRack, Order.hasSpindle, OrderKind.booksRackAtPosting]

theorem Shape.withdrawDirect (h : Shape p (some c)) (hb : c.busy = false) (hk : c.kind = .direct) :
    Shape { p with rack := .bare, need := .reserved } none := by
  obtain ⟨_, _, _, _, _, _, _, _, _, _, _⟩ := h
  constructor <;> grind [Order.Posted, Order.hasRack, Order.hasSpindle]

/-- With a REMOVE there is no need, and a type may be required again. -/
theorem Shape.withdrawRemove (h : Shape p (some c)) (hb : c.busy = false) (hk : c.kind = .remove) :
    Shape { p with rack := .bare, required := req } none := by
  obtain ⟨_, _, _, _, _, _, _, _, _, _, _⟩ := h
  constructor <;> grind [Order.Posted, Order.hasRack, Order.hasSpindle]

/-- Another type is required, where no REMOVE waits. -/
theorem Shape.require (h : Shape p r) (hreq : req.isSome = true)
    (hno : ∀ c, r = some c → c.busy = false → c.kind ≠ .remove) : Shape { p with required := req } r := by
  obtain ⟨_, _, _, _, _, _, _, _, _, _, _⟩ := h
  constructor <;> grind [Order.Posted, Order.Out]

/-- Without its order, which has not been taken, the position claims the same tools. -/
theorem Rest.withdrawn (hb : c.busy = false) (hsis : q.sister = p.sister) (hm : q.mounted = p.mounted)
    (hrack : q.rack = .entry i ↔ p.rack = .entry i)
    (hneed : q.need = .reserved ∨ q.need = .staging → p.need = .reserved ∨ p.need = .staging)  :
    Rest x p (some c) q none i := by
  refine ⟨by grind [Claims], ?_⟩
  rintro hc u ⟨hpromised, hr, hmounted, -, hstored⟩
  simp only [Option.some.injEq, forall_eq', hb] at hstored
  refine ⟨by grind, by grind, by grind, by grind, ?_⟩
  grind

/-- The order of a position is withdrawn. -/
theorem Agrees.withdrawn (h : Agrees s f) (hc : f x = some c) (hb : c.busy = false) (hk : c.kind ≠ .return_)
    (hcore : ∀ d, HasCore t d ↔ HasCore s d ∧ d.number ≠ c.number) (hpos : ∀ y, t.pos y = if x = y then p else s.pos y)
    (htool : ∀ i, t.tool i = s.tool i) (hpocket : ∀ k, t.pocket k = s.pocket k) (hshape : Shape p none)
    (hrest : ∀ i, Rest x (s.pos x) (some c) p none i) : Agrees t (Function.update f x none) := by
  refine h.change (h.stands.leave hc (h.number_unique hc) hcore) hpos htool hpocket .none (fun k n => ?_) hshape ?_
  · rw [hc]
    exact iff_of_false (not_books_none k n) (not_books_of_waiting hb hk k n)
  · rwa [hc]

theorem Shape.rack_withdrawn (h : Shape p (some c)) :
    (if c.kind.booksRackAtPosting then .bare else p.rack) = .entry i ↔ p.rack = .entry i := by
  split
  · next hk =>
    have hrack : p.rack = .booked c.number := by
      refine (h.rack c.number).mpr ⟨c, rfl, rfl, ?_⟩
      revert hk
      cases hk' : c.kind <;> simp [OrderKind.booksRackAtPosting, Order.hasRack, hk']
    rw [hrack]
    exact iff_of_false nofun nofun
  · exact Iff.rfl

theorem Ev.pos_withdraw_own (e : Ev) (o : Order) (y : PosIx) : (e.withdraw o).st.pos y = if o.pos = y then
    { e.st.pos o.pos with rack := if o.kind.booksRackAtPosting then .bare else (e.st.pos o.pos).rack } else e.st.pos y := by
  rw [Ev.pos_withdraw]
  split
  · next h => rw [h]
  · rfl

/-! ## RECLAIM (R85) -/

/-- No order that has not been taken waits for the spindle. -/
def SpindleFree (r : Option Order) : Prop := ∀ c, r = some c → c.busy = false → c.kind = .stage ∨ c.kind = .return_

theorem Agrees.waitingSpindleOrder_none (h : Agrees s f) (hno : s.waitingSpindleOrder x = none) : SpindleFree (f x) := by
  intro c hc hb
  obtain ⟨o, ho, hpos, rfl⟩ := h.of_orderAt hc
  have := List.find?_eq_none.mp hno o ho
  rw [Order.core_busy] at hb
  rw [Order.core_kind]
  cases hk : o.kind <;> simp_all [OrderKind.spindle]

theorem Ev.agrees_reclaimOrder (hs : OrderLaw e.st) (h : Agrees e.st f) (x : PosIx) :
    ∃ g, Agrees (e.reclaimOrder x).st g ∧ SpindleFree (g x) := by
  unfold Ev.reclaimOrder
  split
  · next hno => exact ⟨f, h, h.waitingSpindleOrder_none hno⟩
  · next o hfind =>
    have hpick := List.find?_some hfind
    simp only [Bool.and_eq_true, decide_eq_true_eq, Bool.not_eq_true'] at hpick
    obtain ⟨⟨hspindle, rfl⟩, hb⟩ := hpick
    have hc : f o.pos = some o.core := h.orderAt_of (List.mem_of_find?_eq_some hfind)
    have hb' : o.core.busy = false := by simpa using hb
    have hx := h.shape o.pos
    rw [hc] at hx
    refine ⟨Function.update f o.pos none, ?_, by rw [Function.update_self]; nofun⟩
    dsimp only
    have hcore : ∀ d, HasCore (e.withdraw o).st d ↔ HasCore e.st d ∧ d.number ≠ o.core.number := fun d =>
      Ev.hasCore_withdraw hs
    split
    · next hk =>
      refine h.withdrawn hc hb' (by simp [hk]) (fun d => hcore d) (fun y => ?_) (congrFun (e.tool_withdraw o))
        (congrFun (e.pocket_withdraw o)) (hx.withdrawDirect hb' hk) fun l => ?_
      · show ((e.withdraw o).st.setPos o.pos (((e.withdraw o).st.pos o.pos).progress .reserved)).pos y = _
        rw [State.pos_setPos, Ev.pos_withdraw_own, Ev.pos_withdraw_own, if_pos rfl, hk]
        split <;> rfl
      · have hrack := hx.rack_withdrawn (i := l)
        have hneed := ((hx.order _ rfl).2.2 hb').2.1 hk
        rw [Order.core_kind, hk] at hrack
        exact Rest.withdrawn hb' rfl rfl hrack fun _ => .inr hneed.2.1
    · next hk =>
      have hk' : o.kind = .exchange ∨ o.kind = .remove := by
        cases hk' : o.kind <;> simp_all [OrderKind.spindle]
      exact h.withdrawn hc hb' (by rw [Order.core_kind]; rintro he; simp [he] at hk') hcore (e.pos_withdraw_own o)
        (congrFun (e.tool_withdraw o)) (congrFun (e.pocket_withdraw o)) (hx.withdrawSpindle hb' hk') fun l =>
        Rest.withdrawn hb' rfl rfl hx.rack_withdrawn id

theorem Ev.whole_reclaim (h : Whole e.st) (hserv : (e.st.pos x).service = .released) :
    Whole ((e.reclaimOrder x).updPos x Position.reclaim).st := by
  obtain ⟨hl, f, hf⟩ := h
  obtain ⟨g, hg, hfree⟩ := Ev.agrees_reclaimOrder hl.1 hf x
  have hserv' : ((e.reclaimOrder x).st.pos x).service = .released := by rw [Ev.service_reclaimOrder, hserv]
  refine ⟨(hl.steps (e.steps_reclaimOrder (C := fun _ => False) x)).setPos rfl rfl, g, hg.setService rfl ?_⟩
  refine (hg.shape x).reclaim hserv' ?_ hfree
  unfold Position.reclaim Service.atWork
  dsimp only
  split
  · exact .inr (.inl rfl)
  · exact .inl rfl

/-! ## ASSIGN (R89) -/

theorem Agrees.waitingRemove_none (h : Agrees s f) (hno : s.waitingRemove x = none) :
    ∀ c, f x = some c → c.busy = false → c.kind ≠ .remove := by
  intro c hc hb
  obtain ⟨o, ho, hpos, rfl⟩ := h.of_orderAt hc
  have := List.find?_eq_none.mp hno o ho
  rw [Order.core_busy] at hb
  rw [Order.core_kind]
  simpa [hpos, hb] using this

/-- Another type is required, and the REMOVE that waits is withdrawn. -/
theorem Ev.whole_require (h : Whole e.st) (x : PosIx) (hreq : req.isSome = true) :
    Whole ((e.updPos x fun p => { p with required := req }).withdrawRemove x).st := by
  obtain ⟨hl, f, hf⟩ := h
  have hl' : Listed (e.updPos x fun p => { p with required := req }).st := hl.setPos rfl rfl
  refine ⟨hl'.steps (Ev.steps_withdrawRemove (C := fun _ => False) _ x), ?_⟩
  have hpos : ∀ y, (e.updPos x fun p => { p with required := req }).st.pos y =
      if x = y then { e.st.pos x with required := req } else e.st.pos y := fun y => by
    rw [Ev.st_updPos, State.pos_setPos]
  unfold Ev.withdrawRemove
  split
  · next o hfind =>
    have hpick := List.find?_some hfind
    simp only [Bool.and_eq_true, decide_eq_true_eq, Bool.not_eq_true'] at hpick
    obtain ⟨⟨hk, rfl⟩, hb⟩ := hpick
    have hc : f o.pos = some o.core := hf.orderAt_of (List.mem_of_find?_eq_some hfind)
    have hb' : o.core.busy = false := by simpa using hb
    have hx := hf.shape o.pos
    rw [hc] at hx
    refine ⟨_, hf.withdrawn hc hb' (by simp [hk]) (fun d => Ev.hasCore_withdraw hl'.1) (fun y => ?_)
      (fun l => congrFun (Ev.tool_withdraw _ o) l) (fun l => congrFun (Ev.pocket_withdraw _ o) l)
      (hx.withdrawRemove (req := req) hb' hk) fun l => ?_⟩
    · rw [Ev.pos_withdraw_own, hpos, hpos, if_pos rfl, hk]
      split <;> rfl
    · have hrack := hx.rack_withdrawn (i := l)
      rw [Order.core_kind, hk] at hrack
      exact Rest.withdrawn hb' rfl rfl hrack id
  · next hno =>
    refine ⟨f, hf.setPos (.inl rfl) (.inl rfl) (.inl rfl) rfl ((hf.shape x).require hreq ?_)⟩
    exact hf.waitingRemove_none hno

theorem Ev.whole_assign (h : Whole e.st) (x : PosIx) (req : Option TypeIx) :
    Whole ((if req.isSome then (e.updPos x fun p => { p with required := req }).withdrawRemove x
      else e.updPos x fun p => { p with required := req }).cancelNeed x).st := by
  split
  · next hreq => exact Ev.whole_cancelNeed (Ev.whole_require h x hreq) x
  · next hreq =>
    obtain ⟨hl, f, hf⟩ := h
    have hback : (e.updPos x fun p => { p with required := req }).st.requiring x (e.st.pos x).required = e.st := by
      rw [Ev.st_updPos, State.requiring, State.pos_setPos, if_pos rfl, State.setPos_setPos]
      exact State.setPos_self _ x
    refine Ev.whole_cancelNeed_requiring (r := (e.st.pos x).required) (hl.setPos rfl rfl) (f := f) ?_ fun c hc hb hk => ?_
    · rwa [hback]
    · rw [Ev.st_updPos, State.pos_setPos, if_pos rfl]
      simpa using hreq

end

end Sys2Proof.Machine

/-! PROOFS. The declaration of a position leaves the cell in agreement (R91). -/
namespace Sys2Proof.Machine

section
variable {s t : State} {f : PosIx → Option Order} {e : Ev} {x y : PosIx} {i j : EntryIx} {u v : Tool} {p q : Position}
  {o c : Order} {r : Option Order} {d : Option Condition}

theorem Ev.service_cancelNeed (e : Ev) (x y : PosIx) : ((e.cancelNeed x).st.pos y).service = (e.st.pos y).service := by
  show ((e.cancelNeed x).st.pos y).settled.service = (e.st.pos y).settled.service
  rw [(Ev.follows_cancelNeed x e).positions y, settled_needCancelled]

/-! ## UNKNOWN places (R91, step 2) -/

theorem Shape.clearUnknown (h : Shape p r) : Shape p.clearUnknown r := by
  obtain ⟨_, _, _, _, _, _, _, _, _, _, _⟩ := h
  constructor <;> simp only [Position.clearUnknown] <;> grind [Order.Posted, Order.Out]

theorem Agrees.clearUnknown (h : Agrees s f) (x : PosIx) : Agrees (s.setPos x (s.pos x).clearUnknown) f := by
  have hclear : ∀ v : Holding, (if v = .unknown then .bare else v) = v ∨
      (∀ i, (if v = .unknown then Holding.bare else v) ≠ .entry i) ∧ ∀ i, v ≠ .entry i := fun v => by
    split
    · next hv => exact .inr ⟨nofun, by rw [hv]; nofun⟩
    · exact .inl rfl
  exact h.setPos (hclear _) (hclear _) (.inl rfl) rfl (h.shape x).clearUnknown

/-! ## The judgement of an UNCERTAIN position (table of R91) -/

theorem Position.cell_judge (p : Position) (d : Option Condition) :
    (p.judge d).cell = Position.cell { p with service := (p.judge d).service } := by
  unfold Position.judge
  split <;> rfl

theorem Position.service_judge (p : Position) (d : Option Condition) :
    d = none ∧ (p.judge d).service = .vacant ∨ d ≠ none ∧ (p.judge d).service.atWork := by
  unfold Position.judge Service.atWork
  split
  · exact .inl ⟨rfl, rfl⟩
  · exact .inr ⟨nofun, .inl rfl⟩
  · exact .inr ⟨nofun, .inr (.inl rfl)⟩

/-- A position that was UNCERTAIN is VACANT, or works with its mounted tool. -/
theorem Shape.judge (h : Shape p r) (hserv : p.service = .uncertain) {w : Service}
    (hw : w = .vacant ∧ p.mounted = .bare ∨ w.atWork ∧ ∃ i, p.mounted = .entry i) : Shape { p with service := w } r := by
  obtain ⟨_, _, _, _, _, _, _, _, _, _, _⟩ := h
  constructor <;> grind [Service.atWork, Order.Posted, Order.Out]

/-- What an UNCERTAIN position without UNKNOWN places is judged from. -/
theorem Agrees.judged (h : Agrees s f) (hserv : (s.pos x).service = .uncertain) (hknown : (s.pos x).mounted ≠ .unknown) :
    s.judgedCondition x = none ∧ (s.pos x).mounted = .bare ∨
      s.judgedCondition x ≠ none ∧ ∃ i, (s.pos x).mounted = .entry i := by
  cases hm : (s.pos x).mounted with
  | bare =>
    refine .inl ⟨?_, rfl⟩
    simp [State.judgedCondition, State.mountedTool, hm]
  | unknown => exact absurd hm hknown
  | booked n =>
    have hno := (h.shape x).exchanging.mpr (((h.shape x).mounted n).mp hm |>.imp fun c hc => ⟨hc.1, hc.2.2⟩)
    rw [hserv] at hno
    cases hno
  | entry i =>
    obtain ⟨t, ht, hst, -⟩ := h.tool_mounted hm
    refine .inr ⟨?_, i, rfl⟩
    simp [State.judgedCondition, State.mountedTool, hm, ht, hst]

theorem Agrees.judge (h : Agrees s f) (hserv : (s.pos x).service = .uncertain) (hknown : (s.pos x).mounted ≠ .unknown) :
    Agrees (s.setPos x ((s.pos x).judge (s.judgedCondition x))) f := by
  refine h.setService (Position.cell_judge _ _) ((h.shape x).judge hserv ?_)
  obtain ⟨hd, hm⟩ | ⟨hd, hm⟩ := h.judged hserv hknown <;>
    obtain ⟨hd', hv⟩ | ⟨hd', hv⟩ := (s.pos x).service_judge (s.judgedCondition x)
  · exact .inl ⟨hv, hm⟩
  · exact absurd hd hd'
  · exact absurd hd' hd
  · exact .inr ⟨hv, hm⟩

theorem Ev.whole_judge (h : Whole e.st) (hserv : (e.st.pos x).service = .uncertain)
    (hknown : (e.st.pos x).mounted ≠ .unknown) : Whole (e.judge x).st := by
  have hpos : Whole (e.updPos x (·.judge (e.st.judgedCondition x))).st := by
    refine ⟨h.1.setPos ?_ ?_, h.2.imp fun _ h => h.judge hserv hknown⟩ <;>
    · unfold Position.judge
      split <;> rfl
  unfold Ev.judge
  dsimp only
  split
  · exact hpos
  · exact Ev.whole_evalTriggers hpos x
  · exact Ev.whole_evalTriggers (Ev.whole_notifySlot hpos x _) x

theorem Ev.whole_clearUnknown (h : Whole e.st) (x : PosIx) : Whole (e.updPos x Position.clearUnknown).st :=
  ⟨h.1.setPos rfl rfl, h.2.imp fun _ h => h.clearUnknown x⟩

theorem Ev.whole_declared (h : Whole e.st) (x : PosIx) :
    Whole (if (e.st.pos x).service = .uncertain then ((e.cancelNeed x).updPos x Position.clearUnknown).judge x
      else (e.cancelNeed x).updPos x Position.clearUnknown).st := by
  have hclear := Ev.whole_clearUnknown (Ev.whole_cancelNeed h x) x
  split
  · next hserv =>
    have hpos : ((e.cancelNeed x).updPos x Position.clearUnknown).st.pos x = ((e.cancelNeed x).st.pos x).clearUnknown := by
      rw [Ev.st_updPos, State.pos_setPos, if_pos rfl]
    refine Ev.whole_judge hclear ?_ ?_ <;> rw [hpos]
    · exact (e.service_cancelNeed x x).trans hserv
    · unfold Position.clearUnknown
      dsimp only
      split
      · nofun
      · next hm => exact hm
  · exact hclear

end

end Sys2Proof.Machine

/-! PROOFS. The handing out of an order leaves the cell in agreement (R124). -/
namespace Sys2Proof.Machine

/-! ## The record and the tools of an order that is handed out -/

section
variable {x : PosIx} {p : Position} {i : EntryIx} {u : Tool} {c : Order} {k : PocketIx} {n : Nat}

/-- What the record of a position and the order that it has say of each other. -/
structure With (p : Position) (c : Order) : Prop where
  occupied : p.service = .serving ∨ p.service = .due ∨ p.service = .held ∨ p.service = .released →
    ∃ i, p.mounted = .entry i
  vacant : p.service = .vacant → p.mounted = .bare
  exchanging : p.service = .exchanging ↔ c.hasSpindle
  mounted : ∀ n, p.mounted = .booked n ↔ c.number = n ∧ c.hasSpindle
  rack : ∀ n, p.rack = .booked n ↔ c.number = n ∧ c.hasRack
  sister : p.sister.isSome = true ↔ p.need ≠ .noNeed ∧ p.need ≠ .waiting
  required : p.need ≠ .noNeed → p.required.isSome = true
  staging : p.need = .staging → c.incoming = p.sister ∧ (c.kind = .stage ∨ c.kind = .direct)
  staged : ∀ i, p.need = .staged → p.sister = some i →
    p.rack = .entry i ∨ c.busy = true ∧ c.kind = .exchange ∧ c.incoming = some i
  flag : p.returnWaiting = false
  formed : c.Formed
  out : c.busy = true → c.Out p
  posted : c.busy = false → c.Posted p

theorem shape_some_iff : Shape p (some c) ↔ With p c := by
  constructor
  · rintro ⟨h1, h2, h3, h4, h5, h6, h7, h8, h9, h10, h11⟩
    simp only [Option.some.injEq, exists_eq_left', forall_eq', reduceCtorEq, false_and, imp_false,
      Bool.not_eq_true] at h3 h4 h5 h8 h9 h10 h11
    exact ⟨h1, h2, h3, h4, h5, h6, h7, h8, h9, h10, h11.1, h11.2.1, h11.2.2⟩
  · rintro ⟨h1, h2, h3, h4, h5, h6, h7, h8, h9, h10, h11, h12, h13⟩
    refine ⟨h1, h2, ?_, ?_, ?_, h6, h7, ?_, ?_, ?_, ?_⟩ <;> simp only [Option.some.injEq, exists_eq_left', forall_eq',
      reduceCtorEq, false_and, imp_false, Bool.not_eq_true]
    exacts [h3, h4, h5, h8, h9, h10, ⟨h11, h12, h13⟩]

/-- A STAGE or RETURN is out. -/
theorem Shape.taken_rack (h : Shape p (some c)) (hb : c.busy = false) (hk : c.kind = .stage ∨ c.kind = .return_) :
    Shape { p with rack := .booked c.number } (some { c with state := .taken }) := by
  rw [shape_some_iff] at h ⊢
  obtain ⟨_, _, _, _, _, _, _, _, _, _, hf, _, hp⟩ := h
  obtain ⟨hstage, -, -, -, hreturn⟩ := hp hb
  have hdistinct := hf.distinct
  have hf' : Order.Formed { c with state := .taken } := ⟨hf.1, hf.2, hf.3, hf.4, hf.5, hf.6⟩
  constructor <;> grind [Order.Out, Order.hasRack, Order.hasSpindle, Order.busy]

/-- An EXCHANGE, DIRECT or REMOVE is out. -/
theorem Shape.taken_spindle (h : Shape p (some c)) (hb : c.busy = false)
    (hk : c.kind = .exchange ∨ c.kind = .direct ∨ c.kind = .remove) :
    Shape { p with rack := .booked c.number, mounted := .booked c.number, service := .exchanging, holdCause := none, resume := none }
      (some { c with state := .taken }) := by
  have hno : p.required = none → p.need = .noNeed ∧ p.sister = none := fun hr => by
    have hneed : p.need = .noNeed := by_contra fun hn => by simpa [hr] using h.required hn
    exact ⟨hneed, h.sister_none (.inl hneed)⟩
  rw [shape_some_iff] at h ⊢
  obtain ⟨_, _, _, _, _, _, _, _, _, _, hf, _, hp⟩ := h
  obtain ⟨-, hdirect, hexchange, hremove, -⟩ := hp hb
  have hdistinct := hf.distinct
  have hin := hf.incoming
  have hf' : Order.Formed { c with state := .taken } := ⟨hf.1, hf.2, hf.3, hf.4, hf.5, hf.6⟩
  constructor <;> grind [Order.Out, Order.hasRack, Order.hasSpindle, Order.busy]

/-- The rack that an order booked at its posting is booked still. -/
theorem Shape.rack_posted (h : Shape p (some c)) (hk : c.kind = .stage ∨ c.kind = .direct ∨ c.kind = .remove) :
    p = { p with rack := .booked c.number } := by
  have hbooked : p.rack = .booked c.number := (h.rack c.number).mpr ⟨c, rfl, rfl, hk.imp_right (·.imp_right .inl)⟩
  rw [← hbooked]

theorem Position.taken_of_rack (h : Shape p (some c)) (hk : c.kind = .stage ∨ c.kind = .return_) :
    p.taken c = { p with rack := .booked c.number } := by
  unfold Position.taken
  obtain hk | hk := hk <;> rw [hk]
  exact h.rack_posted (.inl hk)

theorem Position.taken_of_spindle (h : Shape p (some c)) (hk : c.kind = .exchange ∨ c.kind = .direct ∨ c.kind = .remove) :
    p.taken c = { p with rack := .booked c.number, mounted := .booked c.number, service := .exchanging, holdCause := none, resume := none } := by
  unfold Position.taken
  obtain hk | hk := hk
  · rw [hk]
  · conv_lhs => rw [h.rack_posted (.inr hk)]
    obtain hk | hk := hk <;> rw [hk]

theorem Shape.taken (h : Shape p (some c)) (hb : c.busy = false) : Shape (p.taken c) (some { c with state := .taken }) := by
  have hk : (c.kind = .stage ∨ c.kind = .return_) ∨ c.kind = .exchange ∨ c.kind = .direct ∨ c.kind = .remove := by
    cases c.kind <;> simp
  obtain hk | hk := hk
  · rw [Position.taken_of_rack h hk]
    exact h.taken_rack hb hk
  · rw [Position.taken_of_spindle h hk]
    exact h.taken_spindle hb hk

theorem Position.sister_taken : (p.taken c).sister = p.sister ∧ (p.taken c).need = p.need := by
  unfold Position.taken
  split <;> exact ⟨rfl, rfl⟩

/-- The places of a position that name a tool which the order does not name stay; those of its tools are booked. -/
theorem Position.places_taken (h : Shape p (some c)) (hb : c.busy = false) (hi : ¬c.Has i) :
    ((p.taken c).rack = .entry i ↔ p.rack = .entry i) ∧ ((p.taken c).mounted = .entry i ↔ p.mounted = .entry i) := by
  obtain ⟨-, -, hp⟩ := h.order c rfl
  have hposted := hp hb
  have hvacant := h.vacant
  unfold Order.Posted at hposted
  unfold Position.taken
  unfold Order.Has at hi
  cases hk : c.kind <;> simp only [hk, reduceCtorEq, false_imp_iff, forall_const, true_and, and_true] at hposted ⊢ <;> grind

theorem Rest.taken (h : Shape p (some c)) (hb : c.busy = false) (hi : ¬c.Has i) :
    Rest x p (some c) (p.taken c) (some { c with state := .taken }) i := by
  obtain ⟨hrack, hmounted⟩ := Position.places_taken h hb hi
  obtain ⟨hsis, hneed⟩ := p.sister_taken (c := c)
  have hhas : ¬Order.Has { c with state := .taken } i := hi
  have hstaging := h.staging
  simp only [Option.some.injEq, ↓existsAndEq, true_and] at hstaging
  refine ⟨?_, ?_⟩
  · unfold Claims
    rw [hrack, hmounted, hsis]
    grind
  · rintro hc u ⟨hpromised, hr, hm, hmoving, hstored⟩
    rw [← hsis] at hpromised hr hm hstored
    refine ⟨hpromised, fun h => hr (hrack.mp h), fun h => hm (hmounted.mp h), ?_, fun hs hn => ?_⟩
    · grind
    · grind [Order.Has]

/-- No place of the position names a tool of the order any more. -/
theorem Position.places_booked (hl : Lies x p (some c) i u) (h : Shape p (some c)) (hb : c.busy = false) (hi : c.Has i) :
    (p.taken c).rack ≠ .entry i ∧ (p.taken c).mounted ≠ .entry i := by
  obtain ⟨hf, -, hp⟩ := h.order c rfl
  have hposted := hp hb
  have hbooked := h.rack
  simp only [Option.some.injEq, ↓existsAndEq, true_and] at hbooked
  have hbookedc := hbooked c.number
  obtain ⟨hpromised, hr, hm, hmoving, hstored⟩ := hl
  unfold Order.Posted at hposted
  unfold Position.taken
  unfold Order.Has at hi
  cases hk : c.kind <;> simp only [hk, reduceCtorEq, false_imp_iff, forall_const, true_and, and_true] at hposted ⊢ <;>
    grind [Order.hasRack, Order.Formed]

theorem Lies.taken (hl : Lies x p (some c) i u) (h : Shape p (some c)) (hb : c.busy = false) (hi : c.Has i) :
    Lies x (p.taken c) (some { c with state := .taken }) i (u.put .moving .gripper) := by
  obtain ⟨hrack, hmounted⟩ := Position.places_booked hl h hb hi
  obtain ⟨hsis, hneed⟩ := p.sister_taken (c := c)
  refine ⟨?_, fun h => absurd h hrack, fun h => absurd h hmounted, fun _ _ _ _ => ⟨rfl, rfl⟩, fun hs hn => ?_⟩
  · rw [hsis]
    exact hl.promised
  · rw [hsis] at hs
    rw [hneed] at hn
    obtain hn | ⟨-, hno⟩ := hn
    · obtain ⟨hf, -, hp⟩ := h.order c rfl
      have hposted := hp hb
      have hm := hl.mounted
      unfold Order.Posted at hposted
      unfold Order.Has at hi
      have hin := hf.incoming
      cases hk : c.kind <;> simp only [hk, reduceCtorEq, false_imp_iff, forall_const, true_and, and_true] at hposted hin <;>
        grind
    · cases hno _ rfl

/-- The pocket that an order books when it is handed out. -/
def Order.Fetches (c : Order) (k : PocketIx) : Prop := (c.kind = .stage ∨ c.kind = .direct) ∧ c.pocket = some k

/-- A tool of an order that lies in the store lies in the pocket that the order books. -/
theorem Lies.pocket_fetched (hl : Lies x p (some c) i u) (h : Shape p (some c)) (hb : c.busy = false) (hi : c.Has i)
    (hk : u.place = .pocket k) : c.Fetches k := by
  obtain ⟨hf, -, hp⟩ := h.order c rfl
  have hposted := hp hb
  obtain ⟨hpromised, hr, hm, hmoving, hstored⟩ := hl
  simp only [Option.some.injEq, forall_eq'] at hstored
  have hin := hf.incoming
  unfold Order.Posted at hposted
  unfold Order.Has at hi
  unfold Order.Fetches
  cases hkind : c.kind <;> simp only [hkind, reduceCtorEq, false_imp_iff, forall_const, true_and, and_true] at hposted hin ⊢ <;>
    grind [Order.Formed]

end

/-! ## The state -/

section
variable {s t : State} {f : PosIx → Option Order} {x : PosIx} {i : EntryIx} {u : Tool} {o c : Order} {k : PocketIx}

/-- The pocket that an order books holds its incoming tool. -/
theorem Agrees.pocket_fetches (h : Agrees s f) (hc : f x = some c) (hb : c.busy = false) (hk : c.Fetches k) :
    ∃ i, c.incoming = some i ∧ s.pocket k = .holds i := by
  obtain ⟨hkind, hpocket⟩ := hk
  obtain ⟨hf, -, hp⟩ := (h.shape x).order c hc
  obtain ⟨hstage, hdirect, -⟩ := hp hb
  have hposted : (s.pos x).sister = c.incoming ∧ (s.pos x).need = .staging :=
    hkind.elim hstage fun hk => ⟨(hdirect hk).1, (hdirect hk).2.1⟩
  obtain ⟨i, hi⟩ := Option.isSome_iff_exists.mp (hf.incoming.mp (hkind.imp id .inr))
  obtain ⟨l, hl, t, ht, -, hplace⟩ := h.tool_staging hc hb (hposted.1.trans hi) hposted.2
  obtain rfl : l = k := Option.some.inj (hl.symm.trans hpocket)
  exact ⟨i, hi, (h.stored l i).mpr ⟨t, ht, hplace⟩⟩

theorem State.tool_gripped (s : State) (i : Option EntryIx) (j : EntryIx) :
    (s.gripped i).tool j = if i = some j then (s.tool j).map (·.put .moving .gripper) else s.tool j := by
  cases i with
  | none => rfl
  | some i =>
    show (s.setTool i ((s.tool i).map (·.put .moving .gripper))).tool j = _
    rw [State.tool_setTool]
    simp only [Option.some.injEq]
    split
    · next h => rw [h]
    · rfl

theorem State.pocket_gripped (s : State) (i : Option EntryIx) : (s.gripped i).pocket = s.pocket := by cases i <;> rfl

theorem State.tool_pocketBooked (s : State) (o : Order) : (s.pocketBooked o).tool = s.tool := by
  unfold State.pocketBooked
  split
  · cases o.pocket <;> rfl
  · rfl

theorem State.pocket_pocketBooked (s : State) (o : Order) (k : PocketIx) :
    o.Fetches k ∧ (s.pocketBooked o).pocket k = .booked o.number ∨
      ¬o.Fetches k ∧ (s.pocketBooked o).pocket k = s.pocket k := by
  unfold State.pocketBooked Order.Fetches
  split
  · next hk =>
    cases hp : o.pocket with
    | none => exact .inr ⟨nofun, rfl⟩
    | some l =>
      show _ ∧ (s.setPocket l _).pocket k = _ ∨ _ ∧ (s.setPocket l _).pocket k = _
      rw [State.pocket_setPocket]
      split
      · next hl => exact .inl ⟨⟨hk, by rw [hl]⟩, rfl⟩
      · next hl => exact .inr ⟨fun h => hl (Option.some.inj h.2), rfl⟩
  · next hk => exact .inr ⟨fun h => hk h.1, rfl⟩

theorem State.hasCore_pocketBooked (s : State) (o : Order) (c : Order) : HasCore (s.pocketBooked o) c ↔ HasCore s c := by
  unfold State.pocketBooked
  split
  · cases o.pocket <;> exact Iff.rfl
  · exact Iff.rfl

theorem State.hasCore_gripped (s : State) (i : Option EntryIx) (c : Order) : HasCore (s.gripped i) c ↔ HasCore s c := by
  cases i <;> exact Iff.rfl

theorem books_some_iff {n : Nat} : Books (some c) k n ↔ c.number = n ∧ c.pocket = some k ∧ c.hasPocket := by
  simp [Books]

theorem Agrees.not_busy (h : Agrees s f) (hs : OrderLaw s) (hidle : s.busyOrder = none) (hc : f x = some c) : c.busy = false := by
  obtain ⟨o, ho, -, rfl⟩ := h.of_orderAt hc
  rw [Order.core_busy]
  exact (List.mem_append.mp ho).elim (busyOrder_none hidle o) fun hb => busy_of_backlog (hs.backlog o hb)

/-- The order of a position is handed out: its tools are in the gripper, its places are booked. -/
theorem Agrees.taken (h : Agrees s f) (hc : f x = some c) (hb : c.busy = false) (hidle : ∀ y d, f y = some d → d.busy = false)
    (hcore : ∀ d, HasCore t d ↔ { c with state := .taken } = d ∨ HasCore s d ∧ d.number ≠ c.number)
    (hpos : ∀ y, t.pos y = if x = y then (s.pos x).taken c else s.pos y)
    (hmoved : ∀ j, c.Has j → t.tool j = (s.tool j).map (·.put .moving .gripper))
    (hkept : ∀ j, ¬c.Has j → t.tool j = s.tool j)
    (hpocket : ∀ k, c.Fetches k ∧ t.pocket k = .booked c.number ∨ ¬c.Fetches k ∧ t.pocket k = s.pocket k) :
    Agrees t (Function.update f x (some { c with state := .taken })) := by
  have hx := h.shape x
  rw [hc] at hx
  have hself : t.pos x = (s.pos x).taken c := by rw [hpos, if_pos rfl]
  have hclaims : ∀ j, c.Has j → Claims (s.pos x) (f x) j := fun j hj => h.claims_of_has hc hj
  have hlies : ∀ j, c.Has j → ∃ u, s.tool j = some u ∧ Lies x (s.pos x) (some c) j u := fun j hj => by
    have := h.claimed x j (hclaims j hj)
    rwa [hc] at this
  have hfetched : ∀ k, c.Fetches k → t.pocket k = .booked c.number := fun k hk =>
    ((hpocket k).resolve_right fun hn => hn.1 hk).2
  have hother : ∀ k, ¬c.Fetches k → t.pocket k = s.pocket k := fun k hk =>
    ((hpocket k).resolve_left fun hn => hk hn.1).2
  refine Patch.agrees (T := c.Has) (K := c.Fetches) ⟨?_, fun y hy => (hpos y).trans (if_neg hy.symm), hkept, hother, ?_,
    fun j hj => .inl (hclaims j hj), fun j hj => ?_, fun j hj _ => ?_, fun j w hj _ => .inl (.inr (.inr (.inr ⟨_, rfl, rfl, hj⟩))),
    fun j k hj => ?_, fun k j hk => ?_, fun k n hk => ?_, fun k n hk => ?_, fun k n hk hn => ?_,
    fun d hd => .inl ⟨c, hc, by rw [← Option.some.inj hd]⟩, fun _ _ _ => .inr hidle⟩ h
  · obtain ⟨o, -, rfl, rfl⟩ := h.of_orderAt hc
    exact h.stands.change (o := { o.core with state := .taken }) hc (h.number_unique hc) hcore
  · rw [hself]
    exact hx.taken hb
  · rw [hself, hc]
    exact Rest.taken hx hb hj
  · obtain ⟨u, hu, hl⟩ := hlies j hj
    rw [hself, hmoved j hj, hu]
    exact ⟨_, rfl, hl.taken hx hb hj⟩
  · obtain ⟨u, hu, hl⟩ := hlies j hj
    rw [hmoved j hj, hu]
    refine iff_of_false (fun hk => ?_) (by rintro ⟨w, hw, hk⟩; rw [← Option.some.inj hw] at hk; cases hk)
    have hno : ¬c.Fetches k := fun hf => by
      rw [hfetched k hf] at hk
      cases hk
    rw [hother k hno, h.stored k j, hu] at hk
    obtain ⟨w, hw, hk⟩ := hk
    rw [← Option.some.inj hw] at hk
    exact hno (hl.pocket_fetched hx hb hj hk)
  · obtain ⟨i, hi, hholds⟩ := h.pocket_fetches hc hb hk
    rw [hholds, hfetched k hk]
    rintro (he | he)
    · obtain rfl := Pocket.holds.inj he
      exact .inl hi
    · cases he
  · rw [hc, books_some_iff, books_some_iff]
    unfold Order.Fetches at hk
    unfold Order.hasPocket
    grind
  · rw [hfetched k hk, books_some_iff, Pocket.booked.injEq]
    refine ⟨fun hn => ⟨hn, hk.2, .inr ⟨rfl, hk.1⟩⟩, And.left⟩
  · obtain ⟨i, -, hholds⟩ := h.pocket_fetches hc hb hk
    rw [hholds] at hn
    cases hn

/-- An order of the queue is handed out where none is out. -/
theorem Agrees.take (hs : OrderLaw s) (h : Agrees s f) (hidle : s.busyOrder = none) (ho : o ∈ s.ret.queue) :
    ∃ g, Agrees (State.setPos (((((s.headTaken o).gripped o.incoming).gripped o.outgoing).pocketBooked o)) o.pos
      ((s.pos o.pos).taken o)) g := by
  have hmem : o ∈ s.standing := List.mem_append_left _ ho
  have hc : f o.pos = some o.core := h.orderAt_of hmem
  have hb : o.core.busy = false := by
    rw [Order.core_busy]
    exact busyOrder_none hidle o ho
  have hx := h.shape o.pos
  rw [hc] at hx
  have htaken : (s.pos o.pos).taken o = (s.pos o.pos).taken o.core := rfl
  have hfetches : ∀ k, o.Fetches k ↔ o.core.Fetches k := fun _ => Iff.rfl
  rw [htaken]
  generalize ht : State.setPos (((((s.headTaken o).gripped o.incoming).gripped o.outgoing).pocketBooked o)) o.pos
    ((s.pos o.pos).taken o.core) = t
  have hpos : ∀ y, t.pos y = if o.pos = y then (s.pos o.pos).taken o.core else s.pos y := fun y => by
    rw [← ht, State.pos_setPos, pos_pocketBooked, pos_gripped, pos_gripped]
    rfl
  have hself : t.pos o.pos = (s.pos o.pos).taken o.core := by rw [hpos, if_pos rfl]
  have hmoved : ∀ j, o.core.Has j → t.tool j = (s.tool j).map (·.put .moving .gripper) := fun j hj => by
    rw [← ht, State.tool_setPos, State.tool_pocketBooked, State.tool_gripped, State.tool_gripped]
    have hj : o.incoming = some j ∨ o.outgoing = some j := hj
    have htool : (((s.headTaken o)).tool j) = s.tool j := rfl
    rw [htool]
    split <;> split
    · rw [Option.map_map]
      rfl
    · rfl
    · rfl
    · next h h' => exact absurd hj (not_or.mpr ⟨h', h⟩)
  have hkept : ∀ j, ¬o.core.Has j → t.tool j = s.tool j := fun j hj => by
    rw [← ht, State.tool_setPos, State.tool_pocketBooked, State.tool_gripped, State.tool_gripped,
      if_neg (show ¬o.outgoing = some j from fun h => hj (.inr h)),
      if_neg (show ¬o.incoming = some j from fun h => hj (.inl h))]
    rfl
  have hpocket : ∀ k, o.core.Fetches k ∧ t.pocket k = .booked o.number ∨ ¬o.core.Fetches k ∧ t.pocket k = s.pocket k := fun k => by
    rw [← ht, State.pocket_setPos]
    have := State.pocket_pocketBooked (((s.headTaken o).gripped o.incoming).gripped o.outgoing) o k
    rwa [State.pocket_gripped, State.pocket_gripped] at this
  have hcore : ∀ d, HasCore t d ↔ Order.core { o with state := .taken } = d ∨ HasCore s d ∧ d.number ≠ o.core.number := fun d => by
    rw [← ht]
    exact ((State.hasCore_pocketBooked _ o d).trans ((State.hasCore_gripped _ _ d).trans (State.hasCore_gripped _ _ d))).trans
      (hasCore_headTaken hs ho)
  exact ⟨_, h.taken hc hb (fun y d hd => h.not_busy hs hidle hd) hcore hpos hmoved hkept hpocket⟩

end

end Sys2Proof.Machine

/-! PROOFS. An order that was out is retired: its tools land, its places are given up, and the cell agrees. -/
namespace Sys2Proof.Machine

section
variable {s t : State} {f : PosIx → Option Order} {x : PosIx} {p q : Position} {i j : EntryIx} {u v : Tool} {c : Order}
  {k : PocketIx} {n : Nat}

/-! ## The order that is out -/

/-- An order that is out has its pocket booked. -/
theorem Agrees.pocket_booked (h : Agrees s f) (hc : f x = some c) (hb : c.busy = true) (hk : c.pocket = some k) :
    s.pocket k = .booked c.number := by
  obtain ⟨hf, -⟩ := (h.shape x).order c hc
  refine (h.booked k c.number).mpr ⟨x, c, hc, rfl, hk, ?_⟩
  unfold Order.hasPocket
  cases hkind : c.kind with
  | return_ => exact .inl rfl
  | stage => exact .inr ⟨hb, .inl rfl⟩
  | direct => exact .inr ⟨hb, .inr rfl⟩
  | exchange => rw [hf.noPocket (.inl hkind)] at hk; cases hk
  | remove => rw [hf.noPocket (.inr hkind)] at hk; cases hk

/-- The tools of an order that is out are in the gripper, with the promise that the position has. -/
theorem Agrees.tool_out (h : Agrees s f) (hc : f x = some c) (hb : c.busy = true) (hj : c.Has j) :
    ∃ u, s.tool j = some u ∧ u.place = .gripper ∧ u.state = .moving ∧
      u.promised = if (s.pos x).sister = some j then some x else none := by
  obtain ⟨u, hu, hl⟩ := h.claimed x j (h.claims_of_has hc hj)
  obtain ⟨hplace, hstate⟩ := hl.moving c hc hb hj
  exact ⟨u, hu, hplace, hstate, hl.promised⟩

/-- The need of a position whose order is out: the order carries its sister, or has nothing to do with the need. -/
theorem Agrees.need_out (h : Agrees s f) (hc : f x = some c) (hb : c.busy = true) :
    (∃ i, c.incoming = some i ∧ (s.pos x).sister = some i ∧ ((s.pos x).need = .staging ∧ (c.kind = .stage ∨ c.kind = .direct) ∨
      (s.pos x).need = .staged ∧ c.kind = .exchange)) ∨
    (s.pos x).need ≠ .staging ∧ (s.pos x).need ≠ .staged ∧ ∀ i, c.incoming = some i → (s.pos x).sister ≠ some i := by
  have hx := h.shape x
  by_cases hsis : ∃ i, c.incoming = some i ∧ (s.pos x).sister = some i
  · obtain ⟨i, hi, hsis⟩ := hsis
    obtain ⟨u, hu, hl⟩ := h.claimed x i (h.claims_of_has hc (.inl hi))
    obtain ⟨hplace, hstate⟩ := hl.moving c hc hb (.inl hi)
    have hstored := hl.stored hsis
    have hrack := hl.rack
    rw [hc, shape_some_iff] at hx
    obtain ⟨_, _, _, _, _, hsister, _, hstaging, hstaged, _, _, _, _⟩ := hx
    refine .inl ⟨i, hi, hsis, ?_⟩
    cases hneed : (s.pos x).need <;> grind
  · rw [hc, shape_some_iff] at hx
    obtain ⟨_, _, _, _, hrack, hsister, _, hstaging, hstaged, _, hf, _, _⟩ := hx
    have hbooked : (s.pos x).rack = .booked c.number := (hrack _).mpr ⟨rfl, .inr (.inr (.inr hb))⟩
    have hsome : (s.pos x).need = .staging ∨ (s.pos x).need = .staged → ∃ i, (s.pos x).sister = some i := fun hn =>
      Option.isSome_iff_exists.mp (hsister.mpr (by obtain hn | hn := hn <;> rw [hn] <;> exact ⟨nofun, nofun⟩))
    refine .inr ⟨fun hn => ?_, fun hn => ?_, fun i hi hs => hsis ⟨i, hi, hs⟩⟩
    · obtain ⟨i, hi⟩ := hsome (.inl hn)
      exact hsis ⟨i, (hstaging hn).1.trans hi, hi⟩
    · obtain ⟨i, hi⟩ := hsome (.inr hn)
      obtain hr | ⟨-, -, hin⟩ := hstaged i hn hi
      · rw [hbooked] at hr
        cases hr
      · exact hsis ⟨i, hin, hi⟩

/-! ## The record after the order -/

/-- The record of a position whose order was out, when nothing of its places is booked any more. -/
theorem Shape.retired (h : Shape p (some c)) (hreq : q.required = p.required) (hflag : q.returnWaiting = p.returnWaiting)
    (hserv : q.service.atWork ∧ (∃ i, q.mounted = .entry i) ∨ q.service = .released ∧ (∃ i, q.mounted = .entry i) ∨
      q.service = .vacant ∧ q.mounted = .bare ∨ q.service = .uncertain ∧ q.mounted = .unknown ∨
      q.service = p.service ∧ q.mounted = p.mounted ∧ ¬c.hasSpindle)
    (hrack : ∀ n, q.rack ≠ .booked n)
    (hneed : q.need = .noNeed ∧ q.sister = none ∨ q.sister = p.sister ∧ q.need = p.need ∧ q.need ≠ .staging ∧ q.need ≠ .staged ∨
      (∃ i, p.sister = some i ∧ q.sister = some i ∧ (q.need = .reserved ∨ q.need = .staged ∧ q.rack = .entry i))) :
    Shape q none := by
  rw [shape_some_iff] at h
  obtain ⟨_, _, _, _, _, _, _, _, _, _, _, _, _⟩ := h
  constructor <;> grind [Service.atWork]

/-- The tools that the order does not name are claimed as before. -/
theorem Rest.retired (h : Shape p (some c)) (hj : ¬c.Has j) (hb : c.busy = true) (hrack : q.rack ≠ .entry j)
    (hm : q.mounted = .entry j ↔ p.mounted = .entry j) (hsis : q.sister = some j ↔ p.sister = some j)
    (hneed : p.sister = some j → q.need = .reserved ∨ q.need = .staging → p.need = .reserved) :
    Rest x p (some c) q none j := by
  have hbooked : p.rack = .booked c.number := (h.rack _).mpr ⟨c, rfl, rfl, .inr (.inr (.inr hb))⟩
  refine ⟨by grind [Claims], ?_⟩
  rintro hc u ⟨hpromised, -, hmounted, -, hstored⟩
  refine ⟨?_, fun hr => absurd hr hrack, fun hq => ?_, nofun, fun hq hn => ?_⟩
  · grind
  · grind
  · grind

/-! ## Where a tool lands -/

/-- A tool of a retired order has landed where nothing or the position claims it, or its entry is free. -/
def Landed (x : PosIx) (c : Order) (q : Position) (t : State) (j : EntryIx) : Prop :=
  t.tool j = none ∧ ¬Claims q none j ∨
    ∃ u, t.tool j = some u ∧ Placed x q none j u ∧ ∀ k, u.place = .pocket k → c.pocket = some k ∧ t.pocket k = .holds j

/-- On the rack. -/
theorem Placed.onRack (hrack : q.rack = .entry j) (hm : q.mounted ≠ .entry j)
    (hpr : v.promised = if q.sister = some j then some x else none) (hplace : v.place = .rack x)
    (hst : v.state = if q.sister = some j then .staged else .offloaded)
    (hneed : q.sister = some j → q.need ≠ .reserved ∧ q.need ≠ .staging) : Placed x q none j v := by
  refine .inl ⟨.inl hrack, hpr, fun _ => ⟨hplace, hst⟩, fun h => absurd h hm, nofun, fun hs hn => ?_⟩
  obtain ⟨h1, h2⟩ := hneed hs
  exact (hn.elim h1 fun h => h2 h.1).elim

/-- On the spindle. -/
theorem Placed.onSpindle (hm : q.mounted = .entry j) (hrack : q.rack ≠ .entry j) (hsis : q.sister ≠ some j)
    (hpr : v.promised = none) (hplace : v.place = .spindle x) (hst : v.state = .mounted) : Placed x q none j v := by
  refine .inl ⟨.inr (.inl hm), ?_, fun h => absurd h hrack, fun _ => ⟨hplace, hst, hsis⟩, nofun, fun hs => absurd hs hsis⟩
  rw [hpr, if_neg hsis]

/-- In its pocket, for the position. -/
theorem Placed.inPocket (hsis : q.sister = some j) (hrack : q.rack ≠ .entry j) (hm : q.mounted ≠ .entry j)
    (hpr : v.promised = some x) (hplace : v.place = .pocket k) (hst : v.state = .reserved) : Placed x q none j v := by
  refine .inl ⟨.inr (.inr (.inl hsis)), ?_, fun h => absurd h hrack, fun h => absurd h hm, nofun, fun _ _ => ⟨hst, k, hplace, nofun⟩⟩
  rw [hpr, if_pos hsis]

/-- Where no position claims it. -/
theorem Placed.unclaimed (hrack : q.rack ≠ .entry j) (hm : q.mounted ≠ .entry j) (hsis : q.sister ≠ some j) (hl : v.Loose) :
    Placed x q none j v :=
  .inr ⟨not_or.mpr ⟨hrack, not_or.mpr ⟨hm, not_or.mpr ⟨hsis, fun ⟨_, h, _⟩ => nomatch h⟩⟩⟩, hl⟩

/-- An order that was out is retired, and its tools have landed. -/
theorem Agrees.retired (h : Agrees s f) (hc : f x = some c) (hb : c.busy = true)
    (hcore : ∀ d, HasCore t d ↔ HasCore s d ∧ d.number ≠ c.number) (hpos : ∀ y, t.pos y = if x = y then q else s.pos y)
    (hkept : ∀ j, ¬c.Has j → t.tool j = s.tool j) (hother : ∀ k, c.pocket ≠ some k → t.pocket k = s.pocket k)
    (hshape : Shape q none) (hrest : ∀ j, ¬c.Has j → Rest x (s.pos x) (some c) q none j)
    (hlanded : ∀ j, c.Has j → Landed x c q t j)
    (hpocket : ∀ k, c.pocket = some k → (∀ n, t.pocket k ≠ .booked n) ∧
      ∀ j, t.pocket k = .holds j → c.Has j ∧ ∃ u, t.tool j = some u ∧ u.place = .pocket k) :
    Agrees t (Function.update f x none) := by
  have hself : t.pos x = q := by rw [hpos, if_pos rfl]
  refine Patch.agrees (T := c.Has) (K := fun k => c.pocket = some k) ⟨h.stands.leave hc (h.number_unique hc) hcore,
    fun y hy => (hpos y).trans (if_neg hy.symm), hkept, hother, by rwa [hself], fun j hj => .inl (h.claims_of_has hc hj),
    fun j hj => ?_, fun j hj hq => ?_, fun j w hj hw => ?_, fun j k hj => ?_, fun k j hk => ?_, fun k n hk => ?_,
    fun k n hk => ?_, fun k n hk hn => ?_, nofun, nofun⟩ h
  · rw [hself, hc]
    exact hrest j hj
  · rw [hself] at hq ⊢
    obtain ⟨-, hno⟩ | ⟨u, hu, hplaced, -⟩ := hlanded j hj
    · exact absurd hq hno
    · exact ⟨u, hu, (hplaced.resolve_right fun hl => hl.1 hq).2⟩
  · rw [hself]
    obtain ⟨hnone, -⟩ | ⟨u, hu, hplaced, -⟩ := hlanded j hj
    · rw [hnone] at hw
      cases hw
    · obtain rfl := Option.some.inj (hu.symm.trans hw)
      exact hplaced.imp And.left And.right
  · constructor
    · intro hk
      by_cases hp : c.pocket = some k
      · exact ((hpocket k hp).2 j hk).2
      · rw [hother k hp, h.stored k j] at hk
        obtain ⟨u, hu, hplace, -⟩ := h.tool_out hc hb hj
        obtain ⟨w, hw, hk⟩ := hk
        rw [← Option.some.inj (hu.symm.trans hw), hplace] at hk
        cases hk
    · rintro ⟨u, hu, hplace⟩
      obtain ⟨hnone, -⟩ | ⟨w, hw, -, hin⟩ := hlanded j hj
      · rw [hnone] at hu
        cases hu
      · obtain rfl := Option.some.inj (hw.symm.trans hu)
        exact (hin k hplace).2
  · rw [h.pocket_booked hc hb hk]
    exact Or.rec nofun fun ht => ((hpocket k hk).2 j ht).1
  · rw [hc, books_some_iff]
    exact iff_of_false (not_books_none k n) fun hbook => hk hbook.2.1
  · exact iff_of_false ((hpocket k hk).1 n) (not_books_none k n)
  · have hbooked := h.pocket_booked hc hb hk
    obtain rfl := Pocket.booked.inj (hbooked.symm.trans hn)
    obtain ⟨y, hy⟩ := (h.booked k c.number).mp hn
    obtain ⟨d, hd, hnum, -⟩ := id hy
    rwa [h.number_unique hc y d hd hnum] at hy

end

end Sys2Proof.Machine

/-! PROOFS. DONE leaves the cell in agreement (R126 to R128). -/
namespace Sys2Proof.Machine

section
variable {s t : State} {f : PosIx → Option Order} {e : Ev} {x : PosIx} {p q : Position} {i j : EntryIx} {u v w : Tool} {o c : Order}
  {k : PocketIx} {n : Nat}

/-! ## The retirement -/

theorem Agrees.unlist (h : Agrees s f) (x : PosIx) : Agrees (s.unlist x) f := h.of_view (fun _ => Iff.rfl) rfl rfl rfl

theorem hasCore_of_standing (h : t.standing = s.standing) (c : Order) : HasCore t c ↔ HasCore s c := by
  rw [HasCore, HasCore, h]

theorem hasCore_retire (hs : OrderLaw s) (h : t.standing = (s.retire o.number).standing) (d : Order) :
    HasCore t d ↔ HasCore s d ∧ d.number ≠ o.core.number :=
  (hasCore_of_standing h d).trans (hasCore_dropOrder hs)

/-- The order that is out, as its position has it. -/
theorem Agrees.out (h : Agrees s f) (hbusy : s.busyOrder = some o) : f o.pos = some o.core ∧ o.core.busy = true := by
  refine ⟨h.orderAt_of (List.mem_append_left _ (List.mem_of_find?_eq_some hbusy)), ?_⟩
  rw [Order.core_busy]
  exact List.find?_some hbusy

/-- A record whose order is out names no tool on its rack, nor on its spindle if the order works there. -/
theorem Shape.places_out (h : Shape p (some c)) (hb : c.busy = true) : p.rack = .booked c.number ∧
    (c.kind = .exchange ∨ c.kind = .direct ∨ c.kind = .remove → p.mounted = .booked c.number) :=
  ⟨(h.rack _).mpr ⟨c, rfl, rfl, .inr (.inr (.inr hb))⟩, fun hk => (h.mounted _).mpr ⟨c, rfl, rfl, hb, hk⟩⟩

/-- A tool of an order that is out is not on the spindle. -/
theorem Agrees.not_mounted (h : Agrees s f) (hc : f x = some c) (hb : c.busy = true) (hj : c.Has j) :
    (s.pos x).mounted ≠ .entry j := by
  intro hm
  obtain ⟨u, hu, hplace, -⟩ := h.tool_out hc hb hj
  obtain ⟨v, hv, -, hp⟩ := h.tool_mounted hm
  rw [← Option.some.inj (hu.symm.trans hv), hplace] at hp
  cases hp

/-! ## DONE of a STAGE (R126) -/

theorem Agrees.stageDone (hs : OrderLaw s) (h : Agrees s f) (hbusy : s.busyOrder = some o) (hkind : o.kind = .stage)
    (hi : o.incoming = some i) (hj : o.outgoing = none) (hk : o.pocket = some k) (hw : s.tool i = some w) :
    ∃ g, Agrees (s.stageDone o i k w) g := by
  obtain ⟨hc, hb⟩ := h.out hbusy
  have hx := h.shape o.pos
  rw [hc] at hx
  obtain ⟨hrack, -⟩ := hx.places_out hb
  have hhas : ∀ l, o.core.Has l ↔ l = i := fun l => by
    simp [Order.Has, hi, hj, eq_comm]
  obtain ⟨w', hw', hplace, hstate, hpromised⟩ := h.tool_out hc hb ((hhas i).mpr rfl)
  obtain rfl := Option.some.inj (hw.symm.trans hw')
  have hp : w.promised = some o.pos ↔ (s.pos o.pos).sister = some i := h.promised_iff hw o.pos
  have hidle : w.promised ≠ some o.pos → (s.pos o.pos).need ≠ .staging ∧ (s.pos o.pos).need ≠ .staged := fun hno => by
    obtain ⟨l, hl, hsis, -⟩ | ⟨hstaging, hstaged, -⟩ := h.need_out hc hb
    · obtain rfl := (hhas l).mp (.inl hl)
      exact absurd (hp.mpr hsis) hno
    · exact ⟨hstaging, hstaged⟩
  have hm := h.not_mounted hc hb ((hhas i).mpr rfl)
  have hpos : ∀ y, (s.stageDone o i k w).pos y = if o.pos = y then (s.stageDone o i k w).pos o.pos else s.pos y := fun y => by
    split
    · next h => rw [h]
    · next h => unfold State.stageDone; split <;> simp [h, State.pos_retire]
  have htool : ∀ l, l ≠ i → (s.stageDone o i k w).tool l = s.tool l := fun l hl => by
    unfold State.stageDone
    split <;> simp [Ne.symm hl, State.tool_retire]
  have hpocket : ∀ l, (s.stageDone o i k w).pocket l = if k = l then .free else s.pocket l := fun l => by
    unfold State.stageDone
    split <;> simp [State.pocket_retire]
  refine ⟨_, h.retired hc hb (hasCore_retire hs (standing_stageDone s o i k w)) hpos (fun l hl => htool l (mt (hhas l).mpr hl))
    (fun l hl => ?_) ?_ (fun l hl => ?_) (fun l hl => ?_) fun l hl => ?_⟩
  · rw [hpocket, if_neg fun h => hl (hk.trans (congrArg some h))]
  · rw [pos_stageDone]
    have hspindle : ¬o.core.hasSpindle := by simp [Order.hasSpindle, hkind]
    split
    · next hpr =>
      exact hx.retired rfl rfl (.inr (.inr (.inr (.inr ⟨rfl, rfl, hspindle⟩)))) (by nofun)
        (.inr (.inr ⟨i, hp.mp hpr, hp.mp hpr, .inr ⟨rfl, rfl⟩⟩))
    · next hpr =>
      obtain ⟨hstaging, hstaged⟩ := hidle hpr
      exact hx.retired rfl rfl (.inr (.inr (.inr (.inr ⟨rfl, rfl, hspindle⟩)))) (by nofun)
        (.inr (.inl ⟨rfl, rfl, hstaging, hstaged⟩))
  · have hli : ¬i = l := fun he => hl ((hhas l).mpr he.symm)
    rw [pos_stageDone]
    split
    · exact Rest.retired hx hl hb (by simp [hli]) Iff.rfl Iff.rfl fun _ => by simp
    · next hpr => exact Rest.retired hx hl hb (by simp [hli]) Iff.rfl Iff.rfl fun _ hn => hn.resolve_right (hidle hpr).1
  · obtain rfl := (hhas l).mp hl
    refine .inr ⟨_, tool_stageDone s o l k w, ?_, nofun⟩
    rw [pos_stageDone]
    split
    · next hpr => exact Placed.onRack rfl hm hpromised rfl (by rw [if_pos (hp.mp hpr)]) fun _ => ⟨nofun, nofun⟩
    · next hpr =>
      have hsis := mt hp.mpr hpr
      exact Placed.onRack rfl hm hpromised rfl (by rw [if_neg hsis]) fun h => absurd h hsis
  · have hkl : k = l := Option.some.inj (hk.symm.trans hl)
    rw [hpocket, if_pos hkl]
    exact ⟨nofun, nofun⟩

/-! ## DONE of a RETURN (R128) -/

/-- The outgoing tool of an order that is out is not the sister. -/
theorem Shape.sister_ne_outgoing (h : Shape p (some c)) (hb : c.busy = true) (hj : c.outgoing = some j) : p.sister ≠ some j := by
  obtain ⟨-, hout, -⟩ := h.order c rfl
  obtain ⟨hno | hne, -⟩ := hout hb
  · rw [hj] at hno
    cases hno
  · rwa [hj] at hne

/-- The RETURN of a tool is over: its rack is EMPTY, and the tool has landed. -/
theorem Agrees.returned (hs : OrderLaw s) (h : Agrees s f) (hbusy : s.busyOrder = some o) (hkind : o.kind = .return_)
    (hj : o.outgoing = some j) {m : Nat} (hstanding : t.standing = (s.retire o.number).standing)
    (hpos : ∀ y, t.pos y = if o.pos = y then { s.pos o.pos with rack := .bare, failed := m } else s.pos y)
    (htool : ∀ l, l ≠ j → t.tool l = s.tool l) (hother : ∀ k, o.pocket ≠ some k → t.pocket k = s.pocket k)
    (hlanded : t.tool j = none ∧ o.pocket = none ∨ ∃ k v st, o.pocket = some k ∧ t.pocket k = .holds j ∧ s.tool j = some v ∧
      t.tool j = some { v with state := st, place := .pocket k } ∧ (st = .stored ∨ st = .quarantined)) :
    ∃ g, Agrees t g := by
  obtain ⟨hc, hb⟩ := h.out hbusy
  have hx := h.shape o.pos
  rw [hc] at hx
  have hin : o.incoming = none := by
    have hf := (hx.order _ rfl).1.incoming
    simpa [hkind] using hf
  have hhas : ∀ l, o.core.Has l ↔ l = j := fun l => by simp [Order.Has, hin, hj, eq_comm]
  have hm := h.not_mounted hc hb ((hhas j).mpr rfl)
  have hsis := hx.sister_ne_outgoing hb hj
  obtain ⟨hstaging, hstaged⟩ : (s.pos o.pos).need ≠ .staging ∧ (s.pos o.pos).need ≠ .staged := by
    obtain ⟨l, hl, -⟩ | ⟨hstaging, hstaged, -⟩ := h.need_out hc hb
    · exact nomatch hin.symm.trans hl
    · exact ⟨hstaging, hstaged⟩
  refine ⟨_, h.retired hc hb (hasCore_retire hs hstanding) hpos (fun l hl => htool l (mt (hhas l).mpr hl)) hother ?_
    (fun l hl => Rest.retired hx hl hb nofun Iff.rfl Iff.rfl fun _ hn => hn.resolve_right hstaging) (fun l hl => ?_)
    fun k hk => ?_⟩
  · exact hx.retired rfl rfl (.inr (.inr (.inr (.inr ⟨rfl, rfl, by simp [Order.hasSpindle, hkind]⟩)))) (by nofun)
      (.inr (.inl ⟨rfl, rfl, hstaging, hstaged⟩))
  · obtain rfl := (hhas l).mp hl
    obtain ⟨hnone, -⟩ | ⟨k, v, st, hk, hholds, hv, hland, hst⟩ := hlanded
    · exact .inl ⟨hnone, not_or.mpr ⟨nofun, not_or.mpr ⟨hm, not_or.mpr ⟨hsis, fun ⟨_, h, _⟩ => nomatch h⟩⟩⟩⟩
    · obtain ⟨w, hw, -, -, hpromised⟩ := h.tool_out hc hb hl
      obtain rfl := Option.some.inj (hv.symm.trans hw)
      rw [if_neg hsis] at hpromised
      refine .inr ⟨_, hland, Placed.unclaimed nofun hm hsis ⟨hpromised, ?_⟩, fun l hl => ?_⟩
      · exact hst.imp (fun h => ⟨h, k, rfl⟩) fun h => ⟨h, .inl ⟨k, rfl⟩⟩
      · obtain rfl := Place.pocket.inj hl
        exact ⟨hk, hholds⟩
  · obtain ⟨-, hno⟩ | ⟨l, v, st, hl, hholds, -, hland, -⟩ := hlanded
    · exact nomatch hno.symm.trans hk
    · obtain rfl : l = k := Option.some.inj (hl.symm.trans hk)
      rw [hholds]
      refine ⟨nofun, fun a ha => ?_⟩
      obtain rfl := Pocket.holds.inj ha
      exact ⟨(hhas j).mpr rfl, _, hland, rfl⟩

/-! ## DONE of an EXCHANGE, a DIRECT and a REMOVE (R127) -/

/-- The sister of a position whose spindle an order works on is the one that the order brings, or none. -/
theorem Shape.sister_spindle (h : Shape p (some c)) (hb : c.busy = true)
    (hk : c.kind = .exchange ∨ c.kind = .direct ∨ c.kind = .remove) :
    p.need = .noNeed ∧ p.sister = none ∨ p.sister.isSome = true ∧ p.sister = c.incoming :=
  ((h.order c rfl).2.1 hb).2 ⟨hb, hk⟩

theorem pocket_exchanged (s : State) (o : Order) (i : EntryIx) (w : Tool) (l : PocketIx) : (s.exchangeDone o i w).pocket l =
    if o.pocket = some l then .free else s.pocket l := by
  unfold State.exchangeDone
  cases o.outgoing <;> cases o.pocket <;> simp [State.pocket_retire]

theorem tool_exchanged (s : State) (o : Order) (i : EntryIx) (w : Tool) (l : EntryIx) :
    (s.exchangeDone o i w).tool l = if o.outgoing = some l then
        (s.tool l).map fun v => { v with state := .offloaded, place := .rack o.pos }
      else if i = l then some { w with
        state := .mounted, place := .spindle o.pos, promised := none, peakAE := 0, peakPower := 0 }
      else s.tool l := by
  unfold State.exchangeDone
  cases hj : o.outgoing with
  | none => cases o.pocket <;> simp [State.tool_retire]
  | some j =>
    by_cases hl : j = l
    · subst hl
      cases o.pocket <;> simp
    · cases o.pocket <;> simp [State.tool_retire, hl]

theorem Agrees.exchangeDone (hs : OrderLaw s) (h : Agrees s f) (hbusy : s.busyOrder = some o)
    (hkind : o.kind = .exchange ∨ o.kind = .direct) (hi : o.incoming = some i) (w : Tool) :
    ∃ g, Agrees (s.exchangeDone o i w) g := by
  obtain ⟨hc, hb⟩ := h.out hbusy
  have hx := h.shape o.pos
  rw [hc] at hx
  obtain ⟨hrack, hmounted⟩ := hx.places_out hb
  have hspindle : o.core.kind = .exchange ∨ o.core.kind = .direct ∨ o.core.kind = .remove := hkind.imp_right .inl
  have hne : ∀ j, o.outgoing = some j → i ≠ j := fun j hj hij => by
    have hd := (hx.order _ rfl).1.distinct
    simp [hi, hj, hij] at hd
  have hpos := pos_exchangeDone s o i w
  have hpocket := pocket_exchanged s o i w
  have htool := tool_exchanged s o i w
  have hsis : ∀ l, ¬o.core.Has l → (s.pos o.pos).sister ≠ some l := fun l hl hsis => by
    obtain ⟨-, hno⟩ | ⟨-, hin⟩ := hx.sister_spindle hb hspindle
    · exact nomatch hno.symm.trans hsis
    · exact hl (.inl (hin.symm.trans hsis))
  refine ⟨_, h.retired hc hb (hasCore_retire hs (lists_exchangeDone s o i w).2.1) hpos (fun l hl => ?_)
    (fun l hl => by rw [hpocket]; exact if_neg hl) ?_ (fun l hl => ?_) (fun l hl => ?_) fun l hl => ?_⟩
  · rw [htool, if_neg (show ¬o.outgoing = some l from fun h => hl (.inr h)),
      if_neg (show ¬i = l from fun h => hl (.inl (hi.trans (congrArg some h))))]
  · refine hx.retired rfl rfl (.inl ⟨.inl rfl, i, rfl⟩) (fun n => ?_) (.inl ⟨rfl, rfl⟩)
    cases o.outgoing <;> nofun
  · refine Rest.retired hx hl hb ?_ ?_ (iff_of_false nofun (hsis l hl)) fun hs => absurd hs (hsis l hl)
    · dsimp only
      intro hr
      refine hl (.inr ?_)
      show o.outgoing = some l
      cases hj : o.outgoing with
      | none => rw [hj] at hr; cases hr
      | some j => rw [hj] at hr; rw [Holding.entry.inj hr]
    · rw [hmounted hspindle]
      exact iff_of_false (fun hm => hl (.inl (hi.trans (congrArg some (Holding.entry.inj hm))))) nofun
  · by_cases hj : o.outgoing = some l
    · obtain ⟨v, hv, -, -, hpromised⟩ := h.tool_out hc hb hl
      rw [if_neg (hx.sister_ne_outgoing hb hj)] at hpromised
      refine .inr ⟨{ v with state := .offloaded, place := .rack o.pos }, by rw [htool, if_pos hj, hv]; rfl, ?_, nofun⟩
      refine Placed.onRack (by rw [hj]; rfl) (fun hm => ?_) hpromised rfl rfl (by intro h; cases h)
      exact hne l hj (Holding.entry.inj hm)
    · obtain rfl : i = l := Option.some.inj (hi.symm.trans (hl.resolve_right hj))
      refine .inr ⟨_, by rw [htool, if_neg hj, if_pos rfl], ?_, by nofun⟩
      refine Placed.onSpindle rfl (fun hr => ?_) (by nofun) rfl rfl rfl
      dsimp only at hr
      cases hj' : o.outgoing with
      | none => rw [hj'] at hr; cases hr
      | some j => rw [hj'] at hr; exact hne j hj' (Holding.entry.inj hr).symm
  · rw [hpocket, if_pos (show o.pocket = some l from hl)]
    exact ⟨nofun, nofun⟩

theorem Agrees.removeDone (hs : OrderLaw s) (h : Agrees s f) (hbusy : s.busyOrder = some o) (hkind : o.kind = .remove)
    (hj : o.outgoing = some j) (hv : s.tool j = some v) : ∃ g, Agrees (s.removeDone o j v) g := by
  obtain ⟨hc, hb⟩ := h.out hbusy
  have hx := h.shape o.pos
  rw [hc] at hx
  obtain ⟨hrack, hmounted⟩ := hx.places_out hb
  have hspindle : o.core.kind = .exchange ∨ o.core.kind = .direct ∨ o.core.kind = .remove := .inr (.inr hkind)
  have hin : o.incoming = none := by
    have hf := (hx.order _ rfl).1.incoming
    simpa [hkind] using hf
  have hpocketNone : o.pocket = none := (hx.order _ rfl).1.noPocket (.inr hkind)
  have hhas : ∀ l, o.core.Has l ↔ l = j := fun l => by simp [Order.Has, hin, hj, eq_comm]
  obtain ⟨hneed, hsis⟩ : (s.pos o.pos).need = .noNeed ∧ (s.pos o.pos).sister = none := by
    refine (hx.sister_spindle hb hspindle).resolve_right fun ⟨hsome, he⟩ => ?_
    rw [he, Order.core_incoming, hin] at hsome
    cases hsome
  refine ⟨_, h.retired hc hb (hasCore_retire hs rfl) (q := (s.removeDone o j v).pos o.pos) (fun y => ?_) (fun l hl => ?_)
    (fun l hl => congrFun (State.pocket_retire s o.number) l) ?_ (fun l hl => ?_) (fun l hl => ?_) fun l hl => ?_⟩
  · split
    · next h => rw [h]
    · next h => simp [State.removeDone, h, State.pos_retire]
  · have hjl : ¬j = l := fun he => hl ((hhas l).mpr he.symm)
    simp [State.removeDone, hjl, State.tool_retire]
  · rw [State.removeDone, State.pos_setPos, if_pos rfl]
    exact hx.retired rfl rfl (.inr (.inr (.inl ⟨rfl, rfl⟩))) (by nofun) (.inl ⟨hneed, hsis⟩)
  · have hjl : ¬j = l := fun he => hl ((hhas l).mpr he.symm)
    rw [State.removeDone, State.pos_setPos, if_pos rfl]
    refine Rest.retired hx hl hb (by simp [hjl]) ?_ Iff.rfl (by rw [hsis]; nofun)
    rw [hmounted hspindle]
    exact iff_of_false nofun nofun
  · obtain rfl := (hhas l).mp hl
    obtain ⟨v', hv', -, -, hpromised⟩ := h.tool_out hc hb hl
    obtain rfl := Option.some.inj (hv.symm.trans hv')
    refine .inr ⟨{ v with state := .offloaded, place := .rack o.pos }, by simp [State.removeDone], ?_, nofun⟩
    rw [State.removeDone, State.pos_setPos, if_pos rfl]
    exact Placed.onRack rfl nofun hpromised rfl (by rw [if_neg (by rw [hsis]; nofun)]) (by rw [hsis]; nofun)
  · exact nomatch hpocketNone.symm.trans hl

end

end Sys2Proof.Machine

/-! PROOFS. A DONE, with the work that follows it, keeps the cell (R79, R126 to R128). -/
namespace Sys2Proof.Machine

section
variable {s t : State} {f : PosIx → Option Order} {e : Ev} {x : PosIx} {i j : EntryIx} {v w : Tool} {o : Order} {k : PocketIx}

theorem Ev.whole_learnFrom (h : Whole e.st) (j but : Option EntryIx) : Whole (e.learnFrom j but).st := by
  unfold Ev.learnFrom
  split
  · unfold Ev.learn
    split
    · exact h
    · split
      · exact h
      · split
        · exact Ev.whole_notify (Ev.whole_arbitrateIfWaited (Ev.whole_reevaluate (h.setType _ _) _ _) _) _ _
        · exact h
  · exact h

theorem Ev.whole_clearFailed (h : Whole e.st) (x : PosIx) : Whole (e.clearFailed x).st := Ev.whole_updPos_cell h rfl rfl

theorem Listed.retire (h : Listed s) (n : Nat) : Listed (s.retire n) :=
  h.steps (C := fun _ => False) (Ev.steps_retire (Ev.start s) n)

theorem Listed.exchanged (h : Listed s) (o : Order) (i : EntryIx) : Listed (Ev.exchanged o i s).st := by
  have hpos : ∀ e : Ev, Steps (fun _ => True) e.st (e.updPos o.pos fun p => (p.serve i).clearCounts).st := fun e =>
    e.steps_updPos_places fun _ => ⟨fun l => (l.serve i).clearCounts, rfl, rfl⟩
  refine (h.retire o.number).steps (C := fun _ => True) (.trans (.trans (.trans (.trans (.trans
    (Ev.steps_updTool ((Ev.start s).upd (·.retire o.number)) (keepsAccount_mount _ _)) (Ev.steps_offloadOutgoing _ o))
    (Ev.steps_freePocket _ _)) (hpos _)) (Ev.steps_clearNeed _ trivial)) (Ev.steps_notifySlot _ _ _))

theorem Listed.removed (h : Listed s) (o : Order) : Listed (Ev.removed o s).st :=
  (h.retire o.number).steps (C := fun _ => True) (.trans (Ev.steps_offloadOutgoing ((Ev.start s).upd (·.retire o.number)) o)
    (Ev.steps_updPos_places _ fun _ => ⟨fun l => l.vacate.clearCounts, rfl, rfl⟩))

theorem Listed.done (h : Listed s) (o : Order) : Listed (((Ev.start s).upd (·.retire o.number)).done o).st :=
  (h.retire o.number).steps (C := fun _ => True) (Ev.steps_done ((Ev.start s).upd (·.retire o.number)) fun _ => trivial)

/-! ## The kinds -/

theorem whole_doneStage (h : Whole s) (hbusy : s.busyOrder = some o) (hkind : o.kind = .stage) :
    Whole (((Ev.start s).upd (·.retire o.number)).done o).st := by
  refine ⟨h.1.done o, ?_⟩
  obtain ⟨hl, f, hf⟩ := h
  obtain ⟨hc, -⟩ := hf.out hbusy
  obtain ⟨hformed, -⟩ := (hf.shape o.pos).order _ hc
  obtain ⟨i, hi⟩ := Option.isSome_iff_exists.mp (hformed.incoming.mp (.inl hkind))
  obtain ⟨k, hk⟩ := Option.isSome_iff_exists.mp (hformed.pocket (.inl hkind))
  obtain ⟨w, hw, -⟩ := hf.claimed o.pos i (hf.claims_of_has hc (.inl hi))
  obtain ⟨g, hg⟩ := hf.stageDone hl.1 hbusy hkind hi (hformed.staged hkind) hk hw
  rw [Ev.st_doneStage hkind hi hk hw]
  split
  · exact ⟨g, hg.unlist _⟩
  · exact ⟨g, hg⟩

theorem whole_doneExchange (h : Whole s) (hbusy : s.busyOrder = some o) (hkind : o.kind = .exchange ∨ o.kind = .direct) :
    Whole (((Ev.start s).upd (·.retire o.number)).done o).st := by
  obtain ⟨hl, f, hf⟩ := h
  obtain ⟨hc, -⟩ := hf.out hbusy
  obtain ⟨hformed, -⟩ := (hf.shape o.pos).order _ hc
  obtain ⟨i, hi⟩ := Option.isSome_iff_exists.mp (hformed.incoming.mp (.inr hkind))
  obtain ⟨w, hw, -⟩ := hf.claimed o.pos i (hf.claims_of_has hc (.inl hi))
  have hne : ∀ j, o.outgoing = some j → i ≠ j := fun j hj hij => by
    have hd := hformed.distinct
    simp [show o.incoming = some j from hi.trans (congrArg some hij), hj] at hd
  obtain ⟨g, hg⟩ := hf.exchangeDone hl.1 hbusy hkind hi w
  rw [Ev.done_exchange hkind hi]
  refine Ev.whole_needTest (Ev.whole_evalTriggers (Ev.whole_learnFrom ⟨hl.exchanged o i, g, ?_⟩ _ _) _) _
  rw [Ev.st_exchanged hw hne]
  exact hg.unlist _

theorem whole_doneRemove (h : Whole s) (hbusy : s.busyOrder = some o) (hkind : o.kind = .remove) :
    Whole (((Ev.start s).upd (·.retire o.number)).done o).st := by
  obtain ⟨hl, f, hf⟩ := h
  obtain ⟨hc, -⟩ := hf.out hbusy
  obtain ⟨hformed, -⟩ := (hf.shape o.pos).order _ hc
  obtain ⟨j, hj⟩ := Option.isSome_iff_exists.mp (hformed.outgoing (.inr (.inl hkind)))
  obtain ⟨v, hv, -⟩ := hf.claimed o.pos j (hf.claims_of_has hc (.inr hj))
  obtain ⟨g, hg⟩ := hf.removeDone hl.1 hbusy hkind hj hv
  rw [Ev.done_remove hkind]
  refine Ev.whole_needTest (Ev.whole_learnFrom ⟨hl.removed o, g, ?_⟩ _ _) _
  rwa [Ev.st_removed (o := o) hj hv]

theorem whole_doneReturn (h : Whole s) (hbusy : s.busyOrder = some o) (hkind : o.kind = .return_) :
    Whole (((Ev.start s).upd (·.retire o.number)).done o).st := by
  have hdone := h.1.done o
  obtain ⟨hl, f, hf⟩ := h
  obtain ⟨hc, -⟩ := hf.out hbusy
  obtain ⟨hformed, -⟩ := (hf.shape o.pos).order _ hc
  obtain ⟨j, hj⟩ := Option.isSome_iff_exists.mp (hformed.outgoing (.inr (.inr hkind)))
  obtain ⟨v, hv, -⟩ := hf.claimed o.pos j (hf.claims_of_has hc (.inr hj))
  have hleft : ∀ y, (s.returnLeft o).pos y = if o.pos = y then { s.pos o.pos with rack := .bare, failed := 0 } else s.pos y :=
    fun y => by rw [State.returnLeft, State.pos_setPos, State.pos_retire]
  cases hk : o.pocket with
  | none =>
    refine ⟨hdone, ?_⟩
    rw [Ev.st_doneChute hkind hj hk]
    refine hf.returned hl.1 hbusy hkind hj (m := 0) rfl hleft (fun l hlj => ?_) (fun k _ => ?_) (.inl ⟨?_, hk⟩)
    · simp [Ne.symm hlj, State.returnLeft, State.tool_retire]
    · exact congrFun (State.pocket_retire s o.number) k
    · simp
  | some k =>
    by_cases hdoubtful : v.condition = .doubtful
    · refine ⟨hdone, ?_⟩
      rw [Ev.done_pocket hkind hj hk, Ev.st_doneQuarantined hv hdoubtful]
      have hreturned : ∃ g, Agrees (((s.returnLeft o).setPocket k (.holds j)).setTool j
          (some { v with state := .quarantined, place := .pocket k })) g := by
        refine hf.returned hl.1 hbusy hkind hj (m := 0) rfl hleft (fun l hlj => ?_) (fun l hlk => ?_)
          (.inr ⟨k, v, .quarantined, hk, by simp, hv, by simp, .inr rfl⟩)
        · simp [Ne.symm hlj, State.returnLeft, State.tool_retire]
        · have hkl : ¬k = l := fun he => hlk (hk.trans (congrArg some he))
          simp [hkl, State.returnLeft, State.pocket_retire]
      exact hreturned.imp fun _ hg => hg.of_ret (State.ret_notify _ _ _)
    · rw [Ev.done_pocket hkind hj hk, Ev.storeReturned_stored hv hdoubtful]
      refine Ev.whole_clearFailed (Ev.whole_offerTool ⟨?_, ?_⟩ j) _
      · exact (((hl.retire o.number).setPos (by rfl) (by rfl)).setPocket k _).setTool j _
      · rw [Ev.st_returned hv]
        refine hf.returned hl.1 hbusy hkind hj (m := (s.pos o.pos).failed) rfl (fun y => ?_) (fun l hlj => ?_) (fun l hlk => ?_)
          (.inr ⟨k, v, .stored, hk, by simp, hv, by simp, .inl rfl⟩)
        · rw [State.pos_setPos]
          exact if_congr Iff.rfl rfl (congrFun (State.pos_retire s o.number) y)
        · simp [Ne.symm hlj, State.tool_retire]
        · have hkl : ¬k = l := fun he => hlk (hk.trans (congrArg some he))
          simp [hkl, State.pocket_retire]

theorem whole_done (h : Whole s) (hbusy : s.busyOrder = some o) : Whole (((Ev.start s).upd (·.retire o.number)).done o).st := by
  cases hkind : o.kind with
  | stage => exact whole_doneStage h hbusy hkind
  | exchange => exact whole_doneExchange h hbusy (.inl hkind)
  | direct => exact whole_doneExchange h hbusy (.inr hkind)
  | remove => exact whole_doneRemove h hbusy hkind
  | return_ => exact whole_doneReturn h hbusy hkind

end

end Sys2Proof.Machine

/-! PROOFS. FAIL leaves the cell in agreement (R129 to R131). -/
namespace Sys2Proof.Machine

/-! ## The record and the tools of an order that has failed -/

/-- The FAIL loses the sister. -/
def LosesSister (c : Order) (missing : Option EntryIx) (p : Position) : Prop :=
  ∃ i, c.incoming = some i ∧ missing = some i ∧ p.sister = some i

/-- The record `q` of the position after the FAIL of its order, but for its counts; the need for a lost sister is cancelled. -/
structure Restored (c : Order) (missing : Option EntryIx) (p q : Position) : Prop where
  required : q.required = p.required
  flag : q.returnWaiting = p.returnWaiting
  rack : q.rack = .bare ∨ (c.kind = .exchange ∧ ∃ i, c.incoming = some i ∧ missing ≠ some i ∧ q.rack = .entry i) ∨
    c.kind = .return_ ∧ ∃ j, c.outgoing = some j ∧ missing ≠ some j ∧ q.rack = .entry j
  racked : ∀ i, (c.kind = .exchange ∧ c.incoming = some i ∨ c.kind = .return_ ∧ c.outgoing = some i) → missing ≠ some i →
    q.rack = .entry i
  away : c.kind = .stage ∨ c.kind = .return_ → q.service = p.service ∧ q.mounted = p.mounted
  spindle : c.kind = .exchange ∨ c.kind = .direct ∨ c.kind = .remove →
    q.service = .vacant ∧ q.mounted = .bare ∧ (∀ j, c.outgoing = some j → missing = some j) ∨
    q.service = .released ∧ ∃ j, c.outgoing = some j ∧ missing ≠ some j ∧ q.mounted = .entry j
  need : LosesSister c missing p ∧ q.need = .noNeed ∧ q.sister = none ∨
    ¬LosesSister c missing p ∧ q.sister = p.sister ∧
      q.need = if (c.kind = .stage ∨ c.kind = .direct) ∧ p.sister.isSome = true ∧ p.sister = c.incoming ∧ c.incoming ≠ missing
        then .reserved else p.need

section
variable {s t : State} {f : PosIx → Option Order} {e : Ev} {x : PosIx} {p q : Position} {i j l : EntryIx} {u v w : Tool}
  {o c : Order} {k : PocketIx} {missing : Option EntryIx}

theorem Restored.rack_names (h : Restored c missing p q) (hr : q.rack = .entry l) : c.Has l ∧ missing ≠ some l := by
  obtain hb | ⟨-, i, hi, hm, he⟩ | ⟨-, j, hj, hm, he⟩ := h.rack
  · exact nomatch hb.symm.trans hr
  · obtain rfl := Holding.entry.inj (he.symm.trans hr)
    exact ⟨.inl hi, hm⟩
  · obtain rfl := Holding.entry.inj (he.symm.trans hr)
    exact ⟨.inr hj, hm⟩

theorem Order.kind_cases (c : Order) :
    (c.kind = .stage ∨ c.kind = .return_) ∨ c.kind = .exchange ∨ c.kind = .direct ∨ c.kind = .remove := by
  cases c.kind <;> simp

/-- The spindle is as it was where the order did not work on it; else it names the tool that went back. -/
theorem Restored.mounted_cases (h : Restored c missing p q) :
    (c.kind = .stage ∨ c.kind = .return_) ∧ q.service = p.service ∧ q.mounted = p.mounted ∨
    (c.kind = .exchange ∨ c.kind = .direct ∨ c.kind = .remove) ∧
      (q.service = .vacant ∧ q.mounted = .bare ∧ (∀ j, c.outgoing = some j → missing = some j) ∨
      q.service = .released ∧ ∃ j, c.outgoing = some j ∧ missing ≠ some j ∧ q.mounted = .entry j) :=
  c.kind_cases.imp (fun hk => ⟨hk, h.away hk⟩) fun hk => ⟨hk, h.spindle hk⟩

/-- The need after a FAIL: cancelled with its sister, RESERVED for a sister that is back in its pocket, STAGED for one that is
back on the rack, or as it was with a sister that the order does not bring. -/
theorem Agrees.need_restored (h : Agrees s f) (hc : f x = some c) (hb : c.busy = true) (hq : Restored c missing (s.pos x) q) :
    LosesSister c missing (s.pos x) ∧ q.need = .noNeed ∧ q.sister = none ∨
    q.sister = (s.pos x).sister ∧ ((∃ i, c.incoming = some i ∧ missing ≠ some i ∧ q.sister = some i ∧
      ((c.kind = .stage ∨ c.kind = .direct) ∧ q.need = .reserved ∨ c.kind = .exchange ∧ q.need = .staged ∧ q.rack = .entry i)) ∨
    q.need = (s.pos x).need ∧ q.need ≠ .staging ∧ q.need ≠ .staged ∧ ∀ i, c.incoming = some i → q.sister ≠ some i) := by
  obtain hlost | ⟨hkept, hsis, hneed⟩ := hq.need
  · exact .inl hlost
  refine .inr ⟨hsis, ?_⟩
  rw [hsis]
  obtain ⟨i, hi, hs, hcase⟩ | ⟨hstaging, hstaged, hother⟩ := h.need_out hc hb
  · have hm : missing ≠ some i := fun hm => hkept ⟨i, hi, hm, hs⟩
    refine .inl ⟨i, hi, hm, hs, hcase.imp (fun ⟨_, hk⟩ => ⟨hk, ?_⟩) fun ⟨hn, hk⟩ => ⟨hk, ?_, hq.racked i (.inl ⟨hk, hi⟩) hm⟩⟩
    · rw [hneed, if_pos ⟨hk, by rw [hs]; rfl, by rw [hs, hi], by rw [hi]; exact hm.symm⟩]
    · rw [hneed, if_neg (by simp [hk]), hn]
  · have hsame : q.need = (s.pos x).need := by
      rw [hneed, if_neg]
      rintro ⟨-, hsome, he, -⟩
      obtain ⟨i, hi⟩ := Option.isSome_iff_exists.mp hsome
      exact hother i (he.symm.trans hi) hi
    rw [hsame]
    exact .inr ⟨rfl, hstaging, hstaged, hother⟩

theorem Agrees.shape_restored (h : Agrees s f) (hc : f x = some c) (hb : c.busy = true)
    (hq : Restored c missing (s.pos x) q) : Shape q none := by
  have hx := h.shape x
  rw [hc] at hx
  refine hx.retired hq.required hq.flag ?_ (fun n hn => ?_) ?_
  · obtain ⟨hk, hserv, hm⟩ | ⟨-, ⟨hserv, hm, -⟩ | ⟨hserv, j, -, -, hm⟩⟩ := hq.mounted_cases
    · refine .inr (.inr (.inr (.inr ⟨hserv, hm, fun hsp => ?_⟩)))
      obtain hk | hk := hk <;> simp [Order.hasSpindle, hk] at hsp
    · exact .inr (.inr (.inl ⟨hserv, hm⟩))
    · exact .inr (.inl ⟨hserv, j, hm⟩)
  · obtain hr | ⟨-, i, -, -, hr⟩ | ⟨-, i, -, -, hr⟩ := hq.rack <;> exact nomatch hr.symm.trans hn
  · obtain ⟨-, hn, hs⟩ | ⟨hs, ⟨i, -, -, hsi, ⟨-, hn⟩ | ⟨-, hn, hr⟩⟩ | ⟨hn, h1, h2, -⟩⟩ := h.need_restored hc hb hq
    · exact .inl ⟨hn, hs⟩
    · exact .inr (.inr ⟨i, hs.symm.trans hsi, hsi, .inl hn⟩)
    · exact .inr (.inr ⟨i, hs.symm.trans hsi, hsi, .inr ⟨hn, hr⟩⟩)
    · exact .inr (.inl ⟨hs, hn, h1, h2⟩)

theorem Agrees.rest_restored (h : Agrees s f) (hc : f x = some c) (hb : c.busy = true)
    (hq : Restored c missing (s.pos x) q) (hl : ¬c.Has l) : Rest x (s.pos x) (some c) q none l := by
  have hx := h.shape x
  rw [hc] at hx
  refine Rest.retired hx hl hb (fun hr => hl (hq.rack_names hr).1) ?_ ?_ fun hs hn => ?_
  · obtain ⟨-, -, hm⟩ | ⟨hk, hcase⟩ := hq.mounted_cases
    · rw [hm]
    · rw [(hx.places_out hb).2 hk]
      refine iff_of_false (fun hm => ?_) nofun
      obtain ⟨-, hbare, -⟩ | ⟨-, j, hj, -, hentry⟩ := hcase
      · exact nomatch hbare.symm.trans hm
      · exact hl (.inr (hj.trans (congrArg some (Holding.entry.inj (hentry.symm.trans hm)))))
  · obtain ⟨⟨i, hi, -, hs⟩, -, hnone⟩ | ⟨hsis, -⟩ := h.need_restored hc hb hq
    · rw [hnone, hs]
      exact iff_of_false nofun fun he => hl (.inl (hi.trans he))
    · rw [hsis]
  · obtain ⟨⟨i, hi, -, hs'⟩, -⟩ | ⟨hsis, ⟨i, hi, -, hs', -⟩ | ⟨hsame, hstaging, -⟩⟩ := h.need_restored hc hb hq
    · exact absurd (.inl (hi.trans (hs'.symm.trans hs))) hl
    · exact absurd (.inl (hi.trans (hs'.symm.trans (hsis.trans hs)))) hl
    · rw [← hsame]
      exact hn.resolve_right hstaging

/-- The tools and the pocket of the order after its FAIL. -/
structure PutBack (s t : State) (x : PosIx) (c : Order) (missing : Option EntryIx) : Prop where
  incoming : ∀ i u, c.incoming = some i → s.tool i = some u →
    missing = some i ∧ t.tool i = some (lost u) ∨
    missing ≠ some i ∧ c.kind = .exchange ∧
      t.tool i = some { u with state := if u.promised = some x then .staged else .offloaded, place := .rack x } ∨
    missing ≠ some i ∧ (c.kind = .stage ∨ c.kind = .direct) ∧ ∃ k, c.pocket = some k ∧ t.pocket k = .holds i ∧
      t.tool i = some { u with state := if u.promised = some x then .reserved else .stored, place := .pocket k }
  outgoing : ∀ j u, c.outgoing = some j → s.tool j = some u →
    missing = some j ∧ t.tool j = some (lost u) ∨
    missing ≠ some j ∧ c.kind = .return_ ∧ t.tool j = some { u with state := .offloaded, place := .rack x } ∨
    missing ≠ some j ∧ (c.kind = .exchange ∨ c.kind = .direct ∨ c.kind = .remove) ∧
      t.tool j = some { u with state := .mounted, place := .spindle x }
  pocket : ∀ k, c.pocket = some k → t.pocket k = .free ∨
    ∃ i, c.incoming = some i ∧ missing ≠ some i ∧ (c.kind = .stage ∨ c.kind = .direct) ∧ t.pocket k = .holds i
  kept : ∀ l, ¬c.Has l → t.tool l = s.tool l
  other : ∀ k, c.pocket ≠ some k → t.pocket k = s.pocket k

theorem lost_loose (u : Tool) : (lost u).Loose := ⟨rfl, .inr ⟨rfl, .inr rfl⟩⟩

/-- A tool of the order that is not on the spindle after the FAIL. -/
theorem Agrees.mounted_restored (h : Agrees s f) (hc : f x = some c) (hb : c.busy = true)
    (hq : Restored c missing (s.pos x) q) (hl : c.Has l) (hno : missing = some l ∨ c.outgoing ≠ some l ∨ c.kind = .return_) :
    q.mounted ≠ .entry l := by
  intro hm
  obtain ⟨-, -, hsame⟩ | ⟨hk, ⟨-, hbare, -⟩ | ⟨-, j, hj, hmj, hentry⟩⟩ := hq.mounted_cases
  · exact h.not_mounted hc hb hl (hsame.symm.trans hm)
  · exact nomatch hbare.symm.trans hm
  · obtain rfl := Holding.entry.inj (hentry.symm.trans hm)
    obtain hno | hno | hno := hno
    · exact hmj hno
    · exact hno hj
    · rw [hno] at hk
      simp at hk

/-- A tool of the order that the FAIL loses is no sister after it. -/
theorem Agrees.sister_lost (h : Agrees s f) (hc : f x = some c) (hb : c.busy = true)
    (hq : Restored c missing (s.pos x) q) (hl : c.Has l) (hm : missing = some l) : q.sister ≠ some l := by
  have hx := h.shape x
  rw [hc] at hx
  obtain ⟨-, -, hnone⟩ | ⟨hkept, hsis, -⟩ := hq.need
  · rw [hnone]
    nofun
  · rw [hsis]
    intro hs
    obtain hi | hj := hl
    · exact hkept ⟨l, hi, hm, hs⟩
    · exact hx.sister_ne_outgoing hb hj hs

theorem Agrees.landed_incoming (h : Agrees s f) (hc : f x = some c) (hb : c.busy = true)
    (hq : Restored c missing (s.pos x) q) (ht : PutBack s t x c missing) (hi : c.incoming = some i) : Landed x c q t i := by
  have hx := h.shape x
  rw [hc] at hx
  obtain ⟨u, hu, -, -, hpromised⟩ := h.tool_out hc hb (.inl hi)
  have hp : u.promised = some x ↔ (s.pos x).sister = some i := h.promised_iff hu x
  have hout : c.outgoing ≠ some i := fun hj => by
    have hd := (hx.order _ rfl).1.distinct
    simp [hi, hj] at hd
  have hm := h.mounted_restored hc hb hq (.inl hi) (.inr (.inl hout))
  obtain ⟨hmiss, hland⟩ | ⟨hmiss, hk, hland⟩ | ⟨hmiss, hk, k, hpocket, hholds, hland⟩ := ht.incoming i u hi hu
  · exact .inr ⟨_, hland, Placed.unclaimed (fun hr => (hq.rack_names hr).2 hmiss) hm (h.sister_lost hc hb hq (.inl hi) hmiss)
      (lost_loose u), by nofun⟩
  all_goals obtain ⟨⟨l, hl, hml, -⟩, -⟩ | ⟨hsis, hneed⟩ := h.need_restored hc hb hq
  · exact absurd (hml.trans (hl.symm.trans hi)) hmiss
  · refine .inr ⟨_, hland, Placed.onRack (hq.racked i (.inl ⟨hk, hi⟩) hmiss) hm (by rwa [hsis]) rfl ?_ fun hs => ?_, by nofun⟩
    · rw [hsis]
      exact if_congr hp rfl rfl
    · obtain ⟨-, -, -, -, ⟨hk', -⟩ | ⟨-, hn, -⟩⟩ | ⟨-, -, -, hno⟩ := hneed
      · simp [hk] at hk'
      · rw [hn]
        exact ⟨nofun, nofun⟩
      · exact absurd hs (hno i hi)
  · exact absurd (hml.trans (hl.symm.trans hi)) hmiss
  · have hrack : q.rack ≠ .entry i := fun hr => by
      obtain hbare | ⟨hk', -⟩ | ⟨hk', -⟩ := hq.rack
      · exact nomatch hbare.symm.trans hr
      · simp [hk'] at hk
      · simp [hk'] at hk
    refine .inr ⟨_, hland, ?_, fun l hl => ?_⟩
    · by_cases hpr : u.promised = some x
      · exact Placed.inPocket (hsis.trans (hp.mp hpr)) hrack hm hpr rfl (if_pos hpr)
      · have hno := mt hp.mpr hpr
        refine Placed.unclaimed hrack hm (by rwa [hsis]) ⟨?_, .inl ⟨if_neg hpr, k, rfl⟩⟩
        rw [if_neg hno] at hpromised
        exact hpromised
    · obtain rfl := Place.pocket.inj hl
      exact ⟨hpocket, hholds⟩

theorem Agrees.landed_outgoing (h : Agrees s f) (hc : f x = some c) (hb : c.busy = true)
    (hq : Restored c missing (s.pos x) q) (ht : PutBack s t x c missing) (hj : c.outgoing = some j) : Landed x c q t j := by
  have hx := h.shape x
  rw [hc] at hx
  obtain ⟨u, hu, -, -, hpromised⟩ := h.tool_out hc hb (.inr hj)
  have hsister := hx.sister_ne_outgoing hb hj
  rw [if_neg hsister] at hpromised
  have hsis : q.sister ≠ some j := by
    obtain ⟨-, -, hnone⟩ | ⟨hsis, -⟩ := h.need_restored hc hb hq
    · rw [hnone]
      nofun
    · rwa [hsis]
  obtain ⟨hmiss, hland⟩ | ⟨hmiss, hk, hland⟩ | ⟨hmiss, hk, hland⟩ := ht.outgoing j u hj hu
  · exact .inr ⟨_, hland, Placed.unclaimed (fun hr => (hq.rack_names hr).2 hmiss)
      (h.mounted_restored hc hb hq (.inr hj) (.inl hmiss)) hsis (lost_loose u), by nofun⟩
  · refine .inr ⟨_, hland, Placed.onRack (hq.racked j (.inr ⟨hk, hj⟩) hmiss)
      (h.mounted_restored hc hb hq (.inr hj) (.inr (.inr hk))) ?_ rfl (if_neg hsis).symm fun hs => absurd hs hsis, by nofun⟩
    rw [if_neg hsis]
    exact hpromised
  · obtain ⟨-, -, hall⟩ | ⟨-, l, hl, -, hentry⟩ := hq.spindle hk
    · exact absurd (hall j hj) hmiss
    · obtain rfl : l = j := Option.some.inj (hl.symm.trans hj)
      refine .inr ⟨_, hland, Placed.onSpindle hentry (fun hr => ?_) hsis hpromised rfl rfl, by nofun⟩
      obtain hbare | ⟨-, i, hi, -, hri⟩ | ⟨hk', -⟩ := hq.rack
      · exact nomatch hbare.symm.trans hr
      · have hd := (hx.order _ rfl).1.distinct
        simp [hi, hj, Holding.entry.inj (hri.symm.trans hr)] at hd
      · simp [hk'] at hk

/-- The tools and places of an order that was out go back, and the cell agrees. -/
theorem Agrees.putBack (h : Agrees s f) (hc : f x = some c) (hb : c.busy = true)
    (hcore : ∀ d, HasCore t d ↔ HasCore s d ∧ d.number ≠ c.number) (hpos : ∀ y, t.pos y = if x = y then q else s.pos y)
    (hq : Restored c missing (s.pos x) q) (ht : PutBack s t x c missing) : Agrees t (Function.update f x none) := by
  refine h.retired hc hb hcore hpos ht.kept ht.other (h.shape_restored hc hb hq) (fun l hl => h.rest_restored hc hb hq hl)
    (fun l hl => hl.elim (h.landed_incoming hc hb hq ht) (h.landed_outgoing hc hb hq ht)) fun k hk => ?_
  obtain hfree | ⟨i, hi, hmiss, hkind, hholds⟩ := ht.pocket k hk
  · rw [hfree]
    exact ⟨nofun, nofun⟩
  · rw [hholds]
    refine ⟨nofun, fun l hl => ?_⟩
    obtain rfl := Pocket.holds.inj hl
    obtain ⟨u, hu, -⟩ := h.tool_out hc hb (.inl hi)
    obtain ⟨hm, -⟩ | ⟨-, hk', -⟩ | ⟨-, -, k', hk', -, hland⟩ := ht.incoming i u hi hu
    · exact absurd hm hmiss
    · simp [hk'] at hkind
    · obtain rfl : k' = k := Option.some.inj (hk'.symm.trans hk)
      exact ⟨.inl hi, _, hland, rfl⟩

end

end Sys2Proof.Machine

/-! PROOFS. A FAIL, with the work that follows it, keeps the cell (R129 to R131). -/
namespace Sys2Proof.Machine

section
variable {s t : State} {f : PosIx → Option Order} {e : Ev} {x : PosIx} {p q : Position} {i j l : EntryIx} {u v w : Tool}
  {o c : Order} {k : PocketIx} {missing : Option EntryIx}

/-! ## What the FAIL leaves, as the spec says it -/

theorem names_missing_iff (missing m : Option EntryIx) :
    (missing.isSome && decide (m = missing)) = true ↔ ∃ i, m = some i ∧ missing = some i := by
  cases missing <;> cases m <;> simp [eq_comm]

theorem tool_restored_incoming (hi : o.incoming = some i) (hout : o.outgoing ≠ some i) (hu : s.tool i = some u) :
    (restored o missing s).tool i = some (if missing = some i then lost u
      else if o.kind = .exchange then { u with state := if u.promised = some o.pos then .staged else .offloaded, place := .rack o.pos }
      else o.pocket.elim u fun k =>
        { u with state := if u.promised = some o.pos then .reserved else .stored, place := .pocket k }) := by
  unfold restored
  rw [hi]
  cases hj : o.outgoing with
  | none => cases o.pocket <;> by_cases hm : missing = some i <;>
      simp [some_eq_comm missing, hm, hu, State.tool_retire]
  | some j =>
    have hji : ¬j = i := fun he => hout (hj.trans (congrArg some he))
    cases o.pocket <;> by_cases hm : missing = some i <;>
      simp [some_eq_comm missing, hm, hji, hu, State.tool_retire]

theorem tool_restored_outgoing (hj : o.outgoing = some j) (hin : o.incoming ≠ some j) (hu : s.tool j = some u) :
    (restored o missing s).tool j = some (if missing = some j then lost u
      else if o.kind = .return_ then { u with state := .offloaded, place := .rack o.pos }
      else { u with state := .mounted, place := .spindle o.pos }) := by
  unfold restored
  rw [hj]
  cases hi : o.incoming with
  | none => cases o.pocket <;> by_cases hm : missing = some j <;>
      simp [some_eq_comm missing, hm, hu, State.tool_retire]
  | some i =>
    have hij : ¬i = j := fun he => hin (hi.trans (congrArg some he))
    cases o.pocket <;> by_cases hm : missing = some j <;>
      simp [some_eq_comm missing, hm, hij, hu, State.tool_retire]

theorem tool_restored_other (hl : ¬o.Has l) : (restored o missing s).tool l = s.tool l := by
  unfold restored
  cases hi : o.incoming with
  | none =>
    cases hj : o.outgoing with
    | none => cases o.pocket <;> simp [State.tool_retire]
    | some j =>
      have hjl : ¬j = l := fun he => hl (.inr (hj.trans (congrArg some he)))
      cases o.pocket <;> simp [hjl, State.tool_retire]
  | some i =>
    have hil : ¬i = l := fun he => hl (.inl (hi.trans (congrArg some he)))
    cases hj : o.outgoing with
    | none => cases o.pocket <;> simp [hil, State.tool_retire]
    | some j =>
      have hjl : ¬j = l := fun he => hl (.inr (hj.trans (congrArg some he)))
      cases o.pocket <;> simp [hil, hjl, State.tool_retire]

theorem pocket_restored (s : State) (o : Order) (missing : Option EntryIx) (k : PocketIx) : (restored o missing s).pocket k =
    if o.pocket = some k then
      if o.kind = .return_ ∨ (missing.isSome && decide (o.incoming = missing)) = true then .free else o.incoming.elim .free .holds
    else s.pocket k := by
  unfold restored
  cases o.incoming <;> cases o.outgoing <;> cases o.pocket <;> simp [State.pocket_retire]

theorem standing_restored (s : State) (o : Order) (missing : Option EntryIx) :
    (restored o missing s).standing = (s.retire o.number).standing := by
  unfold restored
  cases o.incoming <;> cases o.outgoing <;> cases o.pocket <;> rfl

theorem pos_restored_other (s : State) (o : Order) (missing : Option EntryIx) {y : PosIx} (hy : ¬o.pos = y) :
    (restored o missing s).pos y = s.pos y := by
  unfold restored
  cases o.incoming <;> cases o.outgoing <;> cases o.pocket <;> simp [hy, State.pos_retire]

theorem Agrees.putBack_restored (h : Agrees s f) (hc : f o.pos = some o.core) (missing : Option EntryIx) :
    PutBack s (restored o missing s) o.pos o.core missing := by
  have hx := h.shape o.pos
  rw [hc] at hx
  obtain ⟨hformed, -⟩ := hx.order _ rfl
  have hkinds : ∀ i, o.incoming = some i → o.kind = .stage ∨ o.kind = .exchange ∨ o.kind = .direct := fun i hi =>
    hformed.incoming.mpr (by rw [Order.core_incoming, hi]; rfl)
  have hne : ∀ i, o.incoming = some i → o.outgoing ≠ some i := fun i hi hj => by
    have hd := hformed.distinct
    simp [hi, hj] at hd
  refine ⟨fun i u hi hu => ?_, fun j u hj hu => ?_, fun k hk => ?_, fun l hl => tool_restored_other hl, fun k hk => ?_⟩
  · have htool := tool_restored_incoming (o := o) (missing := missing) hi (hne i hi) hu
    by_cases hm : missing = some i
    · rw [if_pos hm] at htool
      exact .inl ⟨hm, htool⟩
    · rw [if_neg hm] at htool
      by_cases hk : o.kind = .exchange
      · rw [if_pos hk] at htool
        exact .inr (.inl ⟨hm, hk, htool⟩)
      · have hk' : o.kind = .stage ∨ o.kind = .direct := (hkinds i hi).imp_right fun h => h.resolve_left hk
        obtain ⟨k, hpocket⟩ := Option.isSome_iff_exists.mp (hformed.pocket hk')
        have hpocket' : o.pocket = some k := hpocket
        rw [if_neg hk, hpocket'] at htool
        refine .inr (.inr ⟨hm, hk', k, hpocket, ?_, htool⟩)
        rw [pocket_restored, if_pos hpocket', if_neg, show o.incoming = some i from hi]
        · rfl
        · rw [names_missing_iff]
          rintro (hr | ⟨l, hl, hml⟩)
          · simp [hr] at hk'
          · exact hm (hml.trans (hl.symm.trans hi))
  · have hin : o.incoming ≠ some j := fun hi => hne j hi hj
    have htool := tool_restored_outgoing (o := o) (missing := missing) hj hin hu
    by_cases hm : missing = some j
    · rw [if_pos hm] at htool
      exact .inl ⟨hm, htool⟩
    · rw [if_neg hm] at htool
      by_cases hk : o.kind = .return_
      · rw [if_pos hk] at htool
        exact .inr (.inl ⟨hm, hk, htool⟩)
      · rw [if_neg hk] at htool
        refine .inr (.inr ⟨hm, (o.core.kind_cases).resolve_left fun hk' => ?_, htool⟩)
        exact nomatch (hformed.staged (hk'.resolve_right hk)).symm.trans hj
  · rw [pocket_restored, if_pos (show o.pocket = some k from hk)]
    split
    · exact .inl rfl
    · next hno =>
      obtain ⟨hr, hm⟩ := not_or.mp hno
      rw [names_missing_iff] at hm
      cases hi : o.incoming with
      | none => exact .inl rfl
      | some i =>
        have hk' : o.kind = .stage ∨ o.kind = .direct := (hkinds i hi).imp_right fun h => h.resolve_left fun he =>
          nomatch (hformed.noPocket (.inl he)).symm.trans hk
        exact .inr ⟨i, hi, fun he => hm ⟨i, hi, he⟩, hk', rfl⟩
  · rw [pocket_restored, if_neg (show ¬o.pocket = some k from hk)]

/-- The fields of the record that the FAIL leaves. -/
theorem fields_restored (s : State) (o : Order) (missing : Option EntryIx) :
    let p := s.pos o.pos
    let q := (restored o missing s).pos o.pos
    let gone (m : Option EntryIx) : Bool := missing.isSome && decide (m = missing)
    q.required = p.required ∧ q.returnWaiting = p.returnWaiting ∧ q.sister = p.sister ∧
      q.rack = (match o.kind with
        | .exchange => if gone o.incoming then .bare else o.incoming.elim .bare .entry
        | .return_ => if gone o.outgoing then .bare else o.outgoing.elim .bare .entry
        | _ => .bare) ∧
      q.need = (if (o.kind = .stage ∨ o.kind = .direct) ∧
        (o.incoming.any fun i => (s.tool i).any fun w => decide (w.promised = some o.pos)) ∧ !gone o.incoming
        then .reserved else p.need) ∧
      (q.service, q.mounted) = if o.kind = .exchange ∨ o.kind = .direct ∨ o.kind = .remove then
        if o.outgoing = none ∨ gone o.outgoing then (.vacant, .bare) else (.released, o.outgoing.elim .bare .entry)
        else (p.service, p.mounted) := by
  intro p q gone
  have hq : q = (restored o missing s).pos o.pos := rfl
  unfold restored at hq
  dsimp only at hq
  rw [State.pos_setPos, if_pos rfl] at hq
  rw [hq]
  split
  · split <;> exact ⟨rfl, rfl, rfl, rfl, rfl, rfl⟩
  · exact ⟨rfl, rfl, rfl, rfl, rfl, rfl⟩

/-- The sister is promised, as the FAIL reads it. -/
theorem Agrees.promised_any (h : Agrees s f) (hc : f o.pos = some o.core) :
    (o.incoming.any fun i => (s.tool i).any fun w => decide (w.promised = some o.pos)) = true ↔
      (s.pos o.pos).sister.isSome = true ∧ (s.pos o.pos).sister = o.incoming := by
  cases hi : o.incoming with
  | none =>
    refine iff_of_false nofun fun ⟨hsome, hnone⟩ => ?_
    rw [hnone] at hsome
    cases hsome
  | some i =>
    obtain ⟨u, hu, -⟩ := h.claimed o.pos i (h.claims_of_has hc (.inl hi))
    rw [Option.any_some, hu, Option.any_some, decide_eq_true_eq, h.promised_iff hu]
    exact ⟨fun hs => ⟨by rw [hs]; rfl, hs⟩, And.right⟩

/-- The record that the FAIL leaves, whatever becomes of the need. -/
theorem Restored.of_fields (hreq : q.required = p.required) (hflag : q.returnWaiting = p.returnWaiting)
    (hrack : q.rack = (match o.kind with
        | .exchange => if missing.isSome && decide (o.incoming = missing) then .bare else o.incoming.elim .bare .entry
        | .return_ => if missing.isSome && decide (o.outgoing = missing) then .bare else o.outgoing.elim .bare .entry
        | _ => .bare))
    (hspindle : (q.service, q.mounted) = if o.kind = .exchange ∨ o.kind = .direct ∨ o.kind = .remove then
        if o.outgoing = none ∨ (missing.isSome && decide (o.outgoing = missing)) then (.vacant, .bare)
        else (.released, o.outgoing.elim .bare .entry)
        else (p.service, p.mounted))
    (hneed : LosesSister o.core missing p ∧ q.need = .noNeed ∧ q.sister = none ∨
    ¬LosesSister o.core missing p ∧ q.sister = p.sister ∧ q.need =
      if (o.kind = .stage ∨ o.kind = .direct) ∧ p.sister.isSome = true ∧ p.sister = o.incoming ∧ o.incoming ≠ missing
        then .reserved else p.need) :
    Restored o.core missing p q := by
  refine ⟨hreq, hflag, ?_, fun i hi hm => ?_, fun hk => ?_, fun hk => ?_, hneed⟩
  · rw [Order.core_kind, Order.core_incoming, Order.core_outgoing]
    cases hk : o.kind <;> simp only [hk] at hrack
    case exchange =>
      cases hi : o.incoming with
      | none => simp_all
      | some i => by_cases hm : missing = some i <;> simp_all [some_eq_comm missing]
    case return_ =>
      cases hj : o.outgoing with
      | none => simp_all
      | some j => by_cases hm : missing = some j <;> simp_all [some_eq_comm missing]
    all_goals exact .inl hrack
  · rw [Order.core_kind, Order.core_incoming, Order.core_outgoing] at hi
    obtain ⟨hk, hi⟩ | ⟨hk, hi⟩ := hi <;> simp_all [some_eq_comm missing]
  · rw [if_neg] at hspindle
    · exact Prod.mk.inj hspindle
    · rw [Order.core_kind] at hk
      obtain hk | hk := hk <;> simp [hk]
  · rw [if_pos (show o.kind = .exchange ∨ o.kind = .direct ∨ o.kind = .remove from hk)] at hspindle
    rw [Order.core_outgoing]
    cases hj : o.outgoing with
    | none => simp_all
    | some j => by_cases hm : missing = some j <;> simp_all [some_eq_comm missing]

theorem Agrees.record_restored (h : Agrees s f) (hc : f o.pos = some o.core) (missing : Option EntryIx) :
    (¬LosesSister o.core missing (s.pos o.pos) → Restored o.core missing (s.pos o.pos) ((restored o missing s).pos o.pos)) ∧
    (LosesSister o.core missing (s.pos o.pos) →
      Restored o.core missing (s.pos o.pos) ((restored o missing s).pos o.pos).noNeed) := by
  obtain ⟨hreq, hflag, hsis, hrack, hneed, hspindle⟩ := fields_restored s o missing
  refine ⟨fun hkept => .of_fields hreq hflag hrack hspindle (.inr ⟨hkept, hsis, ?_⟩),
    fun hlost => .of_fields hreq hflag hrack hspindle (.inl ⟨hlost, rfl, rfl⟩)⟩
  rw [hneed]
  refine if_congr (and_congr Iff.rfl ?_) rfl rfl
  rw [h.promised_any hc, and_assoc]
  refine and_congr_right fun hsome => and_congr_right fun he => ?_
  rw [Bool.not_eq_true', ← Bool.not_eq_true, names_missing_iff]
  rw [he] at hsome
  obtain ⟨i, hi⟩ := Option.isSome_iff_exists.mp hsome
  rw [hi]
  exact not_congr ⟨fun ⟨l, hl, hm⟩ => hl.trans hm.symm, fun hm => ⟨i, rfl, hm.symm⟩⟩

/-! ## The event -/

/-- The places and tools go back, the sister not being lost. -/
theorem Agrees.putBack_kept (hs : OrderLaw s) (h : Agrees s f) (hbusy : s.busyOrder = some o)
    (hkept : ¬LosesSister o.core missing (s.pos o.pos)) : ∃ g, Agrees (restored o missing s) g := by
  obtain ⟨hc, hb⟩ := h.out hbusy
  refine ⟨_, h.putBack hc hb (hasCore_retire hs (standing_restored s o missing)) (fun y => ?_)
    ((h.record_restored hc missing).1 hkept) (h.putBack_restored hc missing)⟩
  split
  · next hy => rw [hy]
  · next hy => exact pos_restored_other s o missing hy

/-- The places and the other tools go back, and the need of the lost sister is cleared. -/
theorem Agrees.putBack_lost (hs : OrderLaw s) (h : Agrees s f) (hbusy : s.busyOrder = some o)
    (hlost : LosesSister o.core missing (s.pos o.pos)) :
    ∃ g, Agrees ((restored o missing s).setPos o.pos ((restored o missing s).pos o.pos).noNeed) g := by
  obtain ⟨hc, hb⟩ := h.out hbusy
  have hput := h.putBack_restored hc missing
  refine ⟨_, h.putBack hc hb (hasCore_retire hs (standing_restored s o missing)) (fun y => ?_)
    ((h.record_restored hc missing).2 hlost) ⟨hput.incoming, hput.outgoing, hput.pocket, hput.kept, hput.other⟩⟩
  rw [State.pos_setPos]
  split
  · rfl
  · next hy => exact pos_restored_other s o missing hy

theorem Listed.putBack (h : Listed s) (o : Order) (missing : Option EntryIx) : Listed (Ev.putBack o missing s).st :=
  (h.retire o.number).steps (C := fun _ => True) (Ev.steps_failMoves ((Ev.start s).upd (·.retire o.number)) o missing)

/-- The tools and places of a FAIL, with the sister. -/
theorem whole_failSister (h : Whole s) (hbusy : s.busyOrder = some o) (missing : Option EntryIx) :
    Whole ((Ev.putBack o missing s).failSister o missing).st := by
  obtain ⟨hl, f, hf⟩ := h
  obtain ⟨hc, hb⟩ := hf.out hbusy
  have hlist := hl.putBack o missing
  have hback := (hf.shaped hl.1 (List.mem_append_left _ (List.mem_of_find?_eq_some hbusy))).putsBack missing
  have hview : (Ev.putBack o missing s).st = restored o missing s ∨
      (Ev.putBack o missing s).st = (restored o missing s).unlist o.pos := hback.imp_right And.left
  have hsis : ((Ev.putBack o missing s).st.pos o.pos).sister = (s.pos o.pos).sister := by
    obtain he | he := hview <;> rw [he]
    · exact (pos_restored o missing s).2
    · exact (pos_restored o missing s).2
  by_cases hlost : LosesSister o.core missing (s.pos o.pos)
  · obtain ⟨i, hi, hm, hs⟩ := id hlost
    have hclear : Whole ((Ev.putBack o missing s).clearNeed o.pos).st := by
      refine ⟨hlist.steps (C := fun _ => True) (Ev.steps_clearNeed _ trivial), ?_⟩
      obtain ⟨g, hg⟩ := hf.putBack_lost hl.1 hbusy hlost
      refine ⟨g, ?_⟩
      show Agrees (((Ev.putBack o missing s).st.setPos o.pos ((Ev.putBack o missing s).st.pos o.pos).noNeed).unlist o.pos) g
      obtain he | he := hview <;> rw [he]
      · exact hg.unlist _
      · exact (hg.unlist o.pos).unlist o.pos
    unfold Ev.failSister
    rw [show o.incoming = some i from hi]
    dsimp only
    rw [if_pos hm]
    unfold Ev.loseSister
    rw [if_pos (hsis.trans hs)]
    exact Ev.whole_needTest hclear _
  · have hback' : Whole (Ev.putBack o missing s).st := by
      refine ⟨hlist, ?_⟩
      obtain ⟨g, hg⟩ := hf.putBack_kept hl.1 hbusy hlost
      obtain he | he := hview <;> rw [he]
      · exact ⟨g, hg⟩
      · exact ⟨g, hg.unlist _⟩
    unfold Ev.failSister
    split
    · exact hback'
    · next i hi =>
      split
      · next hm =>
        unfold Ev.loseSister
        rw [if_neg fun hs => hlost ⟨i, hi, hm, hsis.symm.trans hs⟩]
        exact hback'
      · exact Ev.whole_offerTool hback' i

theorem Ev.whole_failReport (h : Whole e.st) (o : Order) (missing : Option EntryIx) : Whole (e.failReport o missing).st := by
  unfold Ev.failReport
  split
  · exact Ev.whole_notify h _ _
  · unfold Ev.countFailure
    dsimp only
    split
    · exact Ev.whole_notify (Ev.whole_updPos_cell h (by rfl) (by rfl)) _ _
    · exact Ev.whole_updPos_cell h (by rfl) (by rfl)

theorem whole_fail (h : Whole s) (hbusy : s.busyOrder = some o) (missing : Option EntryIx) :
    Whole ((((((Ev.start s).upd (·.retire o.number)).failMoves o missing).failSister o missing).failReport o missing).failNeed
      o).st := by
  have hreport := Ev.whole_failReport (whole_failSister h hbusy missing) o missing
  unfold Ev.failNeed
  split
  · exact Ev.whole_needTest hreport _
  · exact hreport

end

end Sys2Proof.Machine

/-! PROOFS. The expiry of the swap deadline leaves the cell in agreement (R133). -/
namespace Sys2Proof.Machine

section
variable {s t : State} {f : PosIx → Option Order} {e : Ev} {x : PosIx} {p q : Position} {i j l : EntryIx} {u v w : Tool}
  {o c : Order} {k : PocketIx}

theorem tool_toolLost (s : State) (m : Option EntryIx) (l : EntryIx) :
    (s.toolLost m).tool l = if m = some l then (s.tool l).map lost else s.tool l := by
  cases m with
  | none => rfl
  | some i =>
    show (s.setTool i ((s.tool i).map lost)).tool l = _
    rw [State.tool_setTool]
    simp only [Option.some.injEq]
    split
    · next h => rw [h]
    · rfl

theorem tool_orderLost (s : State) (o : Order) (l : EntryIx) :
    (o.Has l → (s.orderLost o).tool l = (s.tool l).map lost) ∧ (¬o.Has l → (s.orderLost o).tool l = s.tool l) := by
  have htool : (s.orderLost o).tool l = (((s.retire o.number).toolLost o.incoming).toolLost o.outgoing).tool l := by
    unfold State.orderLost
    cases o.pocket with
    | none => rfl
    | some k =>
      dsimp only [Option.elim_some]
      split <;> rfl
  rw [htool, tool_toolLost, tool_toolLost, State.tool_retire]
  constructor
  · intro hl
    split <;> split
    · rw [Option.map_map]
      rfl
    · rfl
    · rfl
    · next h h' => exact absurd hl (not_or.mpr ⟨h', h⟩)
  · intro hl
    rw [if_neg (show ¬o.outgoing = some l from fun h => hl (.inr h)),
      if_neg (show ¬o.incoming = some l from fun h => hl (.inl h))]

theorem pocket_orderLost (s : State) (o : Order) (k : PocketIx) : (s.orderLost o).pocket k =
    if o.pocket = some k ∧ s.pocket k = .booked o.number then .unknown else s.pocket k := by
  have hpocket : (((s.retire o.number).toolLost o.incoming).toolLost o.outgoing).pocket = s.pocket :=
    (toolLost_ret _ _).2.1.trans ((toolLost_ret _ _).2.1.trans (State.pocket_retire s o.number))
  unfold State.orderLost
  cases hk : o.pocket with
  | none => simp [hpocket]
  | some l =>
    dsimp only [Option.elim_some]
    by_cases hl : l = k
    · subst hl
      split
      · next hb => simp [hb]
      · next hb => simp [hb, hpocket]
    · split <;> simp [hl, hpocket]

theorem standing_orderLost (s : State) (o : Order) : (s.orderLost o).standing = (s.retire o.number).standing := by
  unfold State.orderLost
  cases o.incoming <;> cases o.outgoing <;> cases o.pocket <;> dsimp only [Option.elim_some, Option.elim_none]
  any_goals split
  all_goals rfl

/-- The record `q` of the position after the expiry of its order, the need for its sister cancelled. -/
structure Expired (c : Order) (p q : Position) : Prop where
  required : q.required = p.required
  flag : q.returnWaiting = p.returnWaiting
  rack : q.rack = .unknown
  away : c.kind = .stage ∨ c.kind = .return_ → q.service = p.service ∧ q.mounted = p.mounted
  spindle : c.kind = .exchange ∨ c.kind = .direct ∨ c.kind = .remove → q.service = .uncertain ∧ q.mounted = .unknown
  need : (∃ i, c.incoming = some i ∧ p.sister = some i) ∧ q.need = .noNeed ∧ q.sister = none ∨
    ¬(∃ i, c.incoming = some i ∧ p.sister = some i) ∧ q.sister = p.sister ∧ q.need = p.need

theorem Agrees.expired (h : Agrees s f) (hc : f x = some c) (hb : c.busy = true)
    (hcore : ∀ d, HasCore t d ↔ HasCore s d ∧ d.number ≠ c.number) (hpos : ∀ y, t.pos y = if x = y then q else s.pos y)
    (hq : Expired c (s.pos x) q) (hlost : ∀ l, c.Has l → t.tool l = (s.tool l).map lost)
    (hkept : ∀ l, ¬c.Has l → t.tool l = s.tool l) (hpocket : ∀ k, c.pocket = some k → t.pocket k = .unknown)
    (hother : ∀ k, c.pocket ≠ some k → t.pocket k = s.pocket k) : Agrees t (Function.update f x none) := by
  have hx := h.shape x
  rw [hc] at hx
  have hneed : (∃ i, c.incoming = some i ∧ (s.pos x).sister = some i) ∧ q.need = .noNeed ∧ q.sister = none ∨
      q.sister = (s.pos x).sister ∧ q.need = (s.pos x).need ∧ q.need ≠ .staging ∧ q.need ≠ .staged ∧
        ∀ i, c.incoming = some i → q.sister ≠ some i := by
    refine hq.need.imp_right fun ⟨hno, hsis, hneed⟩ => ⟨hsis, hneed, ?_⟩
    rw [hsis, hneed]
    exact (h.need_out hc hb).resolve_left fun ⟨i, hi, hs, _⟩ => hno ⟨i, hi, hs⟩
  have hsis : ∀ l, c.Has l → q.sister ≠ some l := by
    rintro l hl
    obtain ⟨-, -, hnone⟩ | ⟨hs, -, -, -, hother⟩ := hneed
    · rw [hnone]
      nofun
    · obtain hi | hj := hl
      · exact hother l hi
      · rw [hs]
        exact hx.sister_ne_outgoing hb hj
  have hmounted : q.mounted = (s.pos x).mounted ∨ q.mounted = .unknown ∧ (s.pos x).mounted = .booked c.number :=
    c.kind_cases.imp (fun hk => (hq.away hk).2) fun hk => ⟨(hq.spindle hk).2, (hx.places_out hb).2 hk⟩
  refine h.retired hc hb hcore hpos hkept hother ?_ (fun l hl => ?_) (fun l hl => ?_) fun k hk => ?_
  · refine hx.retired hq.required hq.flag ?_ (by rw [hq.rack]; nofun) ?_
    · obtain hk | hk := c.kind_cases
      · obtain ⟨hserv, hm⟩ := hq.away hk
        refine .inr (.inr (.inr (.inr ⟨hserv, hm, fun hsp => ?_⟩)))
        obtain hk | hk := hk <;> simp [Order.hasSpindle, hk] at hsp
      · exact .inr (.inr (.inr (.inl (hq.spindle hk))))
    · obtain ⟨-, hn, hs⟩ | ⟨hs, hn, h1, h2, -⟩ := hneed
      · exact .inl ⟨hn, hs⟩
      · exact .inr (.inl ⟨hs, hn, h1, h2⟩)
  · refine Rest.retired hx hl hb (by rw [hq.rack]; nofun) ?_ ?_ fun hs hn => ?_
    · obtain he | ⟨he, he'⟩ := hmounted
      · rw [he]
      · rw [he, he']
        exact iff_of_false nofun nofun
    · obtain ⟨⟨i, hi, hs⟩, -, hnone⟩ | ⟨hs, -⟩ := hneed
      · rw [hnone, hs]
        exact iff_of_false nofun fun he => hl (.inl (hi.trans he))
      · rw [hs]
    · obtain ⟨⟨i, hi, hs'⟩, -⟩ | ⟨-, hsame, hstaging, -⟩ := hneed
      · exact absurd (.inl (hi.trans (hs'.symm.trans hs))) hl
      · rw [← hsame]
        exact hn.resolve_right hstaging
  · obtain ⟨u, hu, -⟩ := h.tool_out hc hb hl
    refine .inr ⟨lost u, by rw [hlost l hl, hu]; rfl, Placed.unclaimed (by rw [hq.rack]; nofun) (fun hm => ?_) (hsis l hl)
      (lost_loose u), by nofun⟩
    obtain he | ⟨he, -⟩ := hmounted
    · exact h.not_mounted hc hb hl (he.symm.trans hm)
    · exact nomatch he.symm.trans hm
  · rw [hpocket k hk]
    exact ⟨nofun, nofun⟩

/-- The record of the expiry, as the model gives it. -/
theorem expired_record (hx : Shape p (some o.core)) (hb : o.core.busy = true) :
    (¬(∃ i, o.incoming = some i ∧ p.sister = some i) → Expired o.core p (p.expire o)) ∧
    ((∃ i, o.incoming = some i ∧ p.sister = some i) → Expired o.core p (p.expire o).noNeed) := by
  obtain ⟨hrack, hmounted⟩ := hx.places_out hb
  rw [Order.core_number] at hrack hmounted
  have hrack' : (p.afterExpiry o false).rack = .unknown := if_pos hrack
  have haway : o.core.kind = .stage ∨ o.core.kind = .return_ →
      (p.afterExpiry o false).service = p.service ∧ (p.afterExpiry o false).mounted = p.mounted := fun hk => by
    have hno : p.mounted ≠ .booked o.number := fun hm => by
      obtain ⟨c, hc, -, hsp⟩ := (hx.mounted o.number).mp hm
      obtain rfl := Option.some.inj hc
      unfold Order.hasSpindle at hsp
      obtain hk | hk := hk <;> rw [hk] at hsp <;> simp at hsp
    refine ⟨if_neg ?_, if_neg hno⟩
    rw [Order.core_kind] at hk
    obtain hk | hk := hk <;> simp [hk, OrderKind.spindle]
  have hspindle : o.core.kind = .exchange ∨ o.core.kind = .direct ∨ o.core.kind = .remove →
      (p.afterExpiry o false).service = .uncertain ∧ (p.afterExpiry o false).mounted = .unknown := fun hk => by
    refine ⟨if_pos ?_, if_pos (hmounted hk)⟩
    rw [Order.core_kind] at hk
    obtain hk | hk | hk := hk <;> simp [hk, OrderKind.spindle]
  rw [expire_eq]
  exact ⟨fun hno => ⟨rfl, rfl, hrack', haway, hspindle, .inr ⟨hno, rfl, rfl⟩⟩,
    fun hs => ⟨rfl, rfl, hrack', haway, hspindle, .inl ⟨hs, rfl, rfl⟩⟩⟩

/-- The state of the expiry with the record `q` at the position. -/
theorem Agrees.expired_orderLost (hs : OrderLaw s) (h : Agrees s f) (hbusy : s.busyOrder = some o)
    (hq : Expired o.core (s.pos o.pos) q) : ∃ g, Agrees ((s.orderLost o).setPos o.pos q) g := by
  obtain ⟨hc, hb⟩ := h.out hbusy
  refine ⟨_, h.expired hc hb (hasCore_retire hs (standing_orderLost s o)) (fun y => ?_) hq
    (fun l hl => (tool_orderLost s o l).1 hl) (fun l hl => (tool_orderLost s o l).2 hl) (fun k hk => ?_) fun k hk => ?_⟩
  · rw [State.pos_setPos, (orderLost_ret s o).1]
  · rw [State.pocket_setPos, pocket_orderLost, if_pos ⟨hk, h.pocket_booked (c := o.core) hc hb hk⟩]
  · rw [State.pocket_setPos, pocket_orderLost, if_neg fun hk' => hk hk'.1]

/-! ## The event -/

theorem Agrees.withExpired (h : Agrees s f) (l : List Nat) : Agrees (s.withExpired l) f :=
  h.of_view (fun _ => Iff.rfl) rfl rfl rfl

theorem ret_expiryNotices (s : State) (b : Bool) : (s.expiryNotices b).ret = s.ret := by
  unfold State.expiryNotices
  split <;> simp only [State.ret_notify]

theorem Listed.expired (h : Listed s) (o : Order) : Listed (Ev.expired o s).st :=
  h.steps (C := fun _ => True) ((steps_expiryMoves _ o s).trans (Ev.steps_expireNotices _ o))

theorem whole_expiry (h : Whole s) (hbusy : s.busyOrder = some o) : Whole ((Ev.expired o s).expireSister o).st := by
  obtain ⟨hl, f, hf⟩ := h
  obtain ⟨hc, hb⟩ := hf.out hbusy
  have hx := hf.shape o.pos
  rw [hc] at hx
  obtain ⟨hkept, hlost⟩ := expired_record hx hb
  have hst := Ev.st_expired o s
  have hpos : (Ev.expired o s).st.pos o.pos = (s.pos o.pos).expire o := by
    rw [hst, State.pos_expiryNotices]
    show (State.setPos _ o.pos _).pos o.pos = _
    rw [State.pos_setPos, if_pos rfl]
  have hsis : ((Ev.expired o s).st.pos o.pos).sister = (s.pos o.pos).sister := by
    rw [hpos, expire_eq]
    rfl
  by_cases hs : ∃ i, o.incoming = some i ∧ (s.pos o.pos).sister = some i
  · obtain ⟨g, hg⟩ := hf.expired_orderLost hl.1 hbusy (hlost hs)
    obtain ⟨i, hi, hs⟩ := hs
    unfold Ev.expireSister
    rw [hi]
    dsimp only
    unfold Ev.loseSister
    rw [if_pos (hsis.trans hs)]
    refine Ev.whole_needTest ⟨(hl.expired o).steps (C := fun _ => True) (Ev.steps_clearNeed _ trivial), g, ?_⟩ _
    show Agrees (((Ev.expired o s).st.setPos o.pos ((Ev.expired o s).st.pos o.pos).noNeed).unlist o.pos) g
    rw [hpos, hst, State.setPos_expiryNotices, State.setPos_withExpired, State.setPos_setPos]
    exact ((hg.withExpired _).of_ret (ret_expiryNotices _ _)).unlist _
  · obtain ⟨g, hg⟩ := hf.expired_orderLost hl.1 hbusy (hkept hs)
    have hwhole : Whole (Ev.expired o s).st := by
      refine ⟨hl.expired o, g, ?_⟩
      rw [hst]
      exact (hg.withExpired _).of_ret (ret_expiryNotices _ _)
    unfold Ev.expireSister
    split
    · next i hi =>
      unfold Ev.loseSister
      rw [if_neg fun h => hs ⟨i, hi, hsis.symm.trans h⟩]
      exact hwhole
    · exact hwhole

end

end Sys2Proof.Machine

/-! PROOFS. TAKE, and the tools that come and go by ENROL, WITHDRAW and REINSTATE, leave the cell in agreement. -/
namespace Sys2Proof.Machine

section
variable {s t : State} {f : PosIx → Option Order} {e : Ev} {x : PosIx} {p q : Position} {i j l : EntryIx} {u v w : Tool}
  {o c : Order} {k : PocketIx} {n : Nat} {r : Option Order}

theorem whole_take (h : Whole s) (hidle : s.busyOrder = none) (ho : o ∈ s.ret.queue) :
    Whole ((((((Ev.start s).upd (·.headTaken o)).grip o.incoming).grip o.outgoing).bookPocket o).bookRack o
      |>.bookSpindle o).st := by
  have hhead : Steps (fun _ => False) s (s.headTaken o) := .single (.take hidle ho)
  refine ⟨h.1.steps (.trans (.trans (.trans (.trans (.trans hhead (Ev.steps_grip ((Ev.start s).upd (·.headTaken o)) _))
    (Ev.steps_grip _ _)) (Ev.steps_bookPocket _ _)) (Ev.steps_bookRack _ _)) (Ev.steps_bookSpindle _ _)), ?_⟩
  obtain ⟨f, hf⟩ := h.2
  rw [Ev.st_take]
  exact hf.take h.1.1 hidle ho

/-! ## A tool in the store -/

/-- A tool that nobody claims changes, or goes, or comes: the positions agree as before. -/
theorem Agrees.changeLoose (h : Agrees s f) (hcore : ∀ c, HasCore t c ↔ HasCore s c) (hpos : t.pos = s.pos)
    (htool : ∀ l, l ≠ i → t.tool l = s.tool l) (hold : ∀ u, s.tool i = some u → u.Loose) (hnew : ∀ u, t.tool i = some u → u.Loose)
    (hstored : ∀ k l, l ≠ i → (t.pocket k = .holds l ↔ s.pocket k = .holds l))
    (hown : ∀ k, t.pocket k = .holds i ↔ ∃ u, t.tool i = some u ∧ u.place = .pocket k)
    (hbooked : ∀ k n, t.pocket k = .booked n ↔ s.pocket k = .booked n) : Agrees t f := by
  have hno : ∀ x, ¬Claims (s.pos x) (f x) i := fun x => by
    cases hu : s.tool i with
    | none => exact h.not_claims_of_free hu
    | some u => exact h.not_claims_of_loose hu (hold u hu)
  refine ⟨h.stands.congr hcore, by rw [hpos]; exact h.shape, fun x l hl => ?_, fun l u hu => ?_, fun k l => ?_, fun k n => ?_,
    h.numbers, h.oneOut⟩
  · rw [hpos] at hl ⊢
    have hli : l ≠ i := fun he => hno x (he ▸ hl)
    rw [htool l hli]
    exact h.claimed x l hl
  · rw [hpos]
    by_cases hli : l = i
    · subst hli
      exact .inr (hnew u hu)
    · rw [htool l hli] at hu
      exact h.loose l u hu
  · by_cases hli : l = i
    · subst hli
      exact hown k
    · rw [hstored k l hli, htool l hli]
      exact h.stored k l
  · rw [hbooked]
    exact h.booked k n

/-- A tool of the store or a lost one is taken out, and its pocket becomes FREE. -/
theorem Ev.agrees_takeOut (h : Agrees e.st f) (hu : e.st.tool i = some u) (hl : u.Loose) :
    Agrees ((e.freePlace u.place).st.setTool i none) f := by
  have hsame : ∀ k, e.st.pocket k = .holds i ↔ u.place = .pocket k := fun k => by
    rw [h.stored k i, hu]
    simp
  obtain ⟨k, hk⟩ | hunknown : (∃ k, u.place = .pocket k) ∨ u.place = .unknown := by
    obtain ⟨-, ⟨-, hk⟩ | ⟨-, hk⟩⟩ := hl
    · exact .inl hk
    · exact hk
  · have hholds := (hsame k).mpr hk
    rw [hk]
    refine h.changeLoose (i := i) (fun _ => Iff.rfl) rfl (fun l hli => ?_) (fun w hw => ?_) (fun w hw => ?_) (fun m l hli => ?_)
      (fun m => ?_) fun m n => ?_
    · rw [State.tool_setTool, if_neg (Ne.symm hli)]
      rfl
    · rwa [← Option.some.inj (hu.symm.trans hw)]
    · rw [State.tool_setTool, if_pos rfl] at hw
      cases hw
    · show (e.st.setPocket k .free).pocket m = _ ↔ _
      rw [State.pocket_setPocket]
      split
      · next hm =>
        rw [← hm, hholds]
        exact iff_of_false nofun fun he => hli (Pocket.holds.inj he).symm
      · exact Iff.rfl
    · rw [State.tool_setTool, if_pos rfl]
      refine iff_of_false (fun hm => ?_) (fun ⟨_, hw, _⟩ => nomatch hw)
      have hm' : (e.st.setPocket k .free).pocket m = .holds i := hm
      rw [State.pocket_setPocket] at hm'
      split at hm'
      · cases hm'
      · next hkm => exact hkm (Place.pocket.inj (hk.symm.trans ((hsame m).mp hm')))
    · show (e.st.setPocket k .free).pocket m = _ ↔ _
      rw [State.pocket_setPocket]
      split
      · next hm =>
        rw [← hm, hholds]
        exact iff_of_false nofun nofun
      · exact Iff.rfl
  · rw [hunknown]
    refine h.changeLoose (i := i) (fun _ => Iff.rfl) rfl (fun l hli => ?_) (fun w hw => ?_) (fun w hw => ?_) (fun m l hli => Iff.rfl)
      (fun m => ?_) fun m n => Iff.rfl
    · rw [State.tool_setTool, if_neg (Ne.symm hli)]
      rfl
    · rwa [← Option.some.inj (hu.symm.trans hw)]
    · rw [State.tool_setTool, if_pos rfl] at hw
      cases hw
    · rw [State.tool_setTool, if_pos rfl]
      refine iff_of_false (fun hm => ?_) (fun ⟨_, hw, _⟩ => nomatch hw)
      exact nomatch hunknown.symm.trans ((hsame m).mp hm)

/-- A tool comes to a FREE or UNKNOWN pocket. -/
theorem Agrees.putPocket (h : Agrees s f) (hu : s.tool i = none) (hk : s.pocket k = .free ∨ s.pocket k = .unknown) (hl : v.Loose) (hv : v.place = .pocket k) :
    Agrees ((s.setTool i (some v)).setPocket k (.holds i)) f := by
  refine h.changeLoose (i := i) (fun _ => Iff.rfl) rfl (fun l hli => ?_) (fun w hw => nomatch hu.symm.trans hw) (fun w hw => ?_)
    (fun m l hli => ?_) (fun m => ?_) fun m n => ?_
  · simp [Ne.symm hli]
  · simp at hw
    rwa [← hw]
  · rw [State.pocket_setPocket]
    split
    · next hm =>
      rw [← hm]
      obtain hk | hk := hk <;> rw [hk] <;> exact iff_of_false (fun he => hli (Pocket.holds.inj he).symm) nofun
    · exact Iff.rfl
  · have htool : ((s.setTool i (some v)).setPocket k (.holds i)).tool i = some v := by simp
    rw [htool, State.pocket_setPocket]
    split
    · next hm => exact iff_of_true rfl ⟨v, rfl, by rw [hv, hm]⟩
    · next hm =>
      refine iff_of_false (fun he => ?_) fun ⟨w, hw, hp⟩ => ?_
      · obtain ⟨w, hw, -⟩ := (h.stored m i).mp he
        exact nomatch hu.symm.trans hw
      · rw [← Option.some.inj hw, hv] at hp
        exact hm (Place.pocket.inj hp)
  · rw [State.pocket_setPocket]
    split
    · next hm =>
      rw [← hm]
      obtain hk | hk := hk <;> rw [hk] <;> exact iff_of_false nofun nofun
    · exact Iff.rfl

/-! ## A tool on a rack or a spindle -/

/-- One tool comes to a position, or leaves it, the orders standing as they were. -/
theorem Agrees.changeAt (h : Agrees s f) (hcore : ∀ c, HasCore t c ↔ HasCore s c)
    (hpos : ∀ y, t.pos y = if x = y then q else s.pos y) (htool : ∀ l, l ≠ i → t.tool l = s.tool l)
    (hpocket : ∀ k, t.pocket k = s.pocket k) (hshape : Shape q (f x)) (hrest : ∀ l, l ≠ i → Rest x (s.pos x) (f x) q (f x) l)
    (howned : Owned s f x i) (hout : ∀ k, s.pocket k ≠ .holds i)
    (hnew : (t.tool i = none ∧ ¬Claims q (f x) i) ∨
      ∃ v, t.tool i = some v ∧ Placed x q (f x) i v ∧ ∀ k, v.place ≠ .pocket k) : Agrees t f := by
  have hx : t.pos x = q := (hpos x).trans (if_pos rfl)
  have hstands : Stands t (Function.update f x (f x)) := by
    rw [Function.update_eq_self]
    exact h.stands.congr hcore
  have hagrees : Agrees t (Function.update f x (f x)) := by
    refine Patch.agrees (T := fun l => l = i) (K := fun _ => False)
      ⟨hstands, fun y hy => (hpos y).trans (if_neg hy.symm), htool, fun k _ => hpocket k, by rwa [hx], ?_,
        fun l hl => by rw [hx]; exact hrest l hl, ?_, ?_, ?_, nofun, fun _ _ _ => Iff.rfl, nofun, nofun, Follow.same.number,
        Follow.same.out⟩ h
    · rintro l rfl
      exact howned
    · rintro l rfl hc
      rw [hx] at hc ⊢
      obtain ⟨-, hno⟩ | ⟨v, hv, hplaced, -⟩ := hnew
      · exact absurd hc hno
      · exact ⟨v, hv, (hplaced.resolve_right fun hl => hl.1 hc).2⟩
    · rintro l w rfl hw
      rw [hx]
      obtain ⟨hnone, -⟩ | ⟨v, hv, hplaced, -⟩ := hnew
      · exact nomatch hnone.symm.trans hw
      · obtain rfl := Option.some.inj (hv.symm.trans hw)
        exact hplaced.imp And.left And.right
    · rintro l k rfl
      rw [hpocket]
      refine iff_of_false (hout k) fun ⟨w, hw, hp⟩ => ?_
      obtain ⟨hnone, -⟩ | ⟨v, hv, -, hno⟩ := hnew
      · exact nomatch hnone.symm.trans hw
      · obtain rfl := Option.some.inj (hv.symm.trans hw)
        exact hno k hp
  rwa [Function.update_eq_self] at hagrees

theorem Agrees.not_stored (h : Agrees s f) (hu : s.tool i = none) (k : PocketIx) : s.pocket k ≠ .holds i := fun hk => by
  obtain ⟨w, hw, -⟩ := (h.stored k i).mp hk
  exact nomatch hu.symm.trans hw

/-- A rack without a tool or an order that has it booked: the position has no order. -/
theorem Shape.order_none_of_clear (h : Shape p r) (hrack : p.rack = .bare ∨ p.rack = .unknown) : r = none := by
  cases r with
  | none => rfl
  | some c => grind [h.rack_cases]

theorem Shape.putRack (h : Shape p none) (hrack : p.rack = .bare ∨ p.rack = .unknown) :
    Shape { p with rack := .entry i } none := by
  obtain ⟨_, _, _, _, _, _, _, _, _, _, _⟩ := h
  constructor <;> grind

/-- A tool comes to a rack that is EMPTY or UNKNOWN. -/
theorem Agrees.putRack (h : Agrees s f) (hu : s.tool i = none) (hrack : (s.pos x).rack = .bare ∨ (s.pos x).rack = .unknown)
    (hpr : v.promised = none) : Agrees ((s.setTool i (some (v.put .offloaded (.rack x)))).setPos x { s.pos x with rack := .entry i }) f := by
  have hx := h.shape x
  have hnone := hx.order_none_of_clear hrack
  have hno : ¬Claims (s.pos x) (f x) i := h.not_claims_of_free hu
  have hsis : (s.pos x).sister ≠ some i := fun hs => hno (.inr (.inr (.inl hs)))
  have hm : (s.pos x).mounted ≠ .entry i := fun hm => hno (.inr (.inl hm))
  have hold : ∀ l, (s.pos x).rack ≠ .entry l := fun l => by obtain hr | hr := hrack <;> rw [hr] <;> nofun
  refine h.changeAt (x := x) (i := i) (q := { s.pos x with rack := .entry i }) (fun _ => Iff.rfl) (fun y => ?_) (fun l hl => ?_)
    (fun k => rfl) ?_ (fun l hl => ?_) (h.owned_of_free hu) (h.not_stored hu)
    (.inr ⟨v.put .offloaded (.rack x), by simp, ?_, nofun⟩)
  · rw [State.pos_setPos]
    rfl
  · simp [Ne.symm hl]
  · rw [hnone] at hx ⊢
    exact hx.putRack hrack
  · rw [hnone]
    have hil : ¬i = l := Ne.symm hl
    refine ⟨by unfold Claims; simp [hold, hil], fun _ u ⟨a, b, c, d, e⟩ => ⟨a, fun hr => ?_, c, d, e⟩⟩
    exact absurd (Holding.entry.inj hr) hil
  · rw [hnone]
    exact Placed.onRack rfl hm (by rw [if_neg hsis]; exact hpr) rfl (by rw [if_neg hsis]; rfl) fun hs => absurd hs hsis

theorem Shape.putSpindle (h : Shape p r) (hserv : p.service = .uncertain) : Shape { p with mounted := .entry i } r := by
  obtain ⟨_, _, _, _, _, _, _, _, _, _, _⟩ := h
  constructor <;> grind [Order.Posted, Order.Out]

/-- A tool comes to the spindle of an UNCERTAIN position. -/
theorem Agrees.putSpindle (h : Agrees s f) (hu : s.tool i = none) (hserv : (s.pos x).service = .uncertain)
    (hfree : ∀ l, (s.pos x).mounted ≠ .entry l) :
    Agrees ((s.setTool i (some (v.mount x))).setPos x { s.pos x with mounted := .entry i }) f := by
  have hno : ¬Claims (s.pos x) (f x) i := h.not_claims_of_free hu
  have hsis : (s.pos x).sister ≠ some i := fun hs => hno (.inr (.inr (.inl hs)))
  have hr : (s.pos x).rack ≠ .entry i := fun hr => hno (.inl hr)
  have hgone : ¬∃ c, f x = some c ∧ c.busy = true ∧ c.Has i := fun hc => hno (.inr (.inr (.inr hc)))
  refine h.changeAt (x := x) (i := i) (q := { s.pos x with mounted := .entry i }) (fun _ => Iff.rfl) (fun y => ?_) (fun l hl => ?_)
    (fun k => rfl) ((h.shape x).putSpindle hserv) (fun l hl => ?_) (h.owned_of_free hu) (h.not_stored hu)
    (.inr ⟨v.mount x, by simp, .inl ⟨.inr (.inl rfl), ?_⟩, nofun⟩)
  · rw [State.pos_setPos]
    rfl
  · simp [Ne.symm hl]
  · have hil : ¬i = l := Ne.symm hl
    refine ⟨by unfold Claims; simp [hfree, hil], fun _ u ⟨a, b, c, d, e⟩ => ⟨a, b, fun hm => ?_, d, e⟩⟩
    exact absurd (Holding.entry.inj hm) hil
  · refine ⟨by rw [if_neg hsis]; rfl, fun h => absurd h hr, fun _ => ⟨rfl, rfl, hsis⟩, fun c hc hb hi => ?_, fun hs => absurd hs hsis⟩
    exact absurd ⟨c, hc, hb, hi⟩ hgone

theorem Shape.leaveRack (h : Shape p none) (hrack : p.rack = .entry i) (hsis : p.sister ≠ some i) :
    Shape { p with rack := .bare, returnWaiting := false } none := by
  obtain ⟨_, _, _, _, _, _, _, _, _, _, _⟩ := h
  constructor <;> grind

/-- An OFFLOADED tool that no order names leaves the rack. -/
theorem Agrees.leaveRack (h : Agrees s f) (hu : s.tool i = some u) (hst : u.state = .offloaded) (hnamed : s.orderNaming i = none)
    (hplace : u.place = .rack x) :
    Agrees ((s.setPos x { s.pos x with rack := .bare, returnWaiting := false }).setTool i none) f := by
  have hrack : (s.pos x).rack = .entry i := by
    have hp := h.places.1 i u hu
    rw [hplace] at hp
    exact hp.1
  have hcalls : s.callsReturn x = some i := by
    refine (callsReturn_eq_some_iff s x i).mpr ⟨hrack, ⟨u, hu, hst⟩, fun o ho => ?_⟩
    have hno := List.find?_eq_none.mp hnamed o ho
    simpa [Order.names, not_or] using hno
  obtain ⟨-, hsis, hnone⟩ := h.callsReturn hcalls
  have hx := h.shape x
  rw [hnone] at hx
  have hlies := h.lies (.inl hrack) hu
  have hm : (s.pos x).mounted ≠ .entry i := fun hm => by
    have := (hlies.mounted hm).1
    rw [hplace] at this
    cases this
  refine h.changeAt (x := x) (i := i) (q := { s.pos x with rack := .bare, returnWaiting := false }) (fun _ => Iff.rfl) (fun y => ?_)
    (fun l hl => ?_) (fun k => rfl) ?_ (fun l hl => ?_) (.inl (.inl hrack)) (fun k hk => ?_) (.inl ⟨by simp, ?_⟩)
  · show (s.setPos x _).pos y = _
    rw [State.pos_setPos]
  · simp [Ne.symm hl]
  · rw [hnone]
    exact hx.leaveRack hrack hsis
  · rw [hnone]
    have hil : ¬i = l := Ne.symm hl
    refine ⟨by unfold Claims; simp [hrack, hil], fun _ u ⟨a, b, c, d, e⟩ => ⟨a, nofun, c, d, e⟩⟩
  · obtain ⟨w, hw, hp⟩ := (h.stored k i).mp hk
    rw [← Option.some.inj (hu.symm.trans hw), hplace] at hp
    cases hp
  · rw [hnone]
    exact not_or.mpr ⟨nofun, not_or.mpr ⟨hm, not_or.mpr ⟨hsis, fun ⟨_, h, _⟩ => nomatch h⟩⟩⟩

end

end Sys2Proof.Machine

/-! PROOFS. ENROL, WITHDRAW and REINSTATE leave the cell in agreement. -/
namespace Sys2Proof.Machine

section
variable {s : State} {f : PosIx → Option Order} {e : Ev} {i : EntryIx} {u v : Tool} {pl : PutPlace}

theorem State.setPocket_setPocket (s : State) (k : PocketIx) (p q : Pocket) :
    (s.setPocket k p).setPocket k q = s.setPocket k q := by
  simp [State.setPocket, Vector.set_set]

theorem spindleReady_iff {x : PosIx} :
    s.spindleReady x = true ↔ (s.pos x).service = .uncertain ∧ ∀ l, (s.pos x).mounted ≠ .entry l := by
  unfold State.spindleReady
  rw [Bool.and_eq_true, decide_eq_true_eq]
  refine and_congr_right fun _ => ?_
  split
  · next l hl => exact iff_of_false nofun fun h => h l hl
  · next hno => exact iff_of_true rfl hno

/-- A place that takes a new tool takes a reinstated one. -/
theorem readyForReinstate_of_enrol (h : s.readyForEnrol pl = true) : s.readyForReinstate i pl = true := by
  cases pl with
  | pocket k =>
    have hk : s.pocket k = .free := of_decide_eq_true h
    simp [State.readyForReinstate, hk]
  | rack x =>
    have hx : (s.pos x).rack = .bare := of_decide_eq_true h
    simp [State.readyForReinstate, hx]
  | spindle x => exact h

/-! ## A tool is put at its place -/

theorem Ev.agrees_putTool (h : Agrees e.st f) (hu : e.st.tool i = none) (hready : e.st.readyForReinstate i pl = true)
    (hpr : v.promised = none) : Agrees (e.putTool i v pl).st f := by
  cases pl with
  | pocket k =>
    have hk : e.st.pocket k = .free ∨ e.st.pocket k = .unknown := by
      have hno := h.not_stored hu k
      simpa [State.readyForReinstate, hno] using hready
    exact h.putPocket hu hk ⟨hpr, .inl ⟨rfl, k, rfl⟩⟩ rfl
  | rack x =>
    have hrack : (e.st.pos x).rack = .bare ∨ (e.st.pos x).rack = .unknown := by
      simpa [State.readyForReinstate] using hready
    exact h.putRack hu hrack hpr
  | spindle x =>
    obtain ⟨hserv, hfree⟩ := spindleReady_iff.mp hready
    exact h.putSpindle hu hserv hfree

theorem Ev.listed_putTool (h : Listed e.st) : Listed (e.putTool i v pl).st := by
  cases pl with
  | pocket k => exact (h.setTool i _).setPocket k _
  | rack x => exact (h.setTool i _).setPos rfl rfl
  | spindle x => exact (h.setTool i _).setPos rfl rfl

theorem Ev.whole_afterPut (h : Whole e.st) (i : EntryIx) (pl : PutPlace) : Whole (e.afterPut i pl).st := by
  cases pl with
  | pocket k => exact Ev.whole_offerTool h i
  | rack x => exact h
  | spindle x => exact h

theorem Ev.whole_enrol (h : Whole e.st) (hfree : e.st.freeEntry = some i) (hready : e.st.readyForEnrol pl = true)
    (hpr : v.promised = none) : Whole ((e.putTool i v pl).afterPut i pl).st :=
  Ev.whole_afterPut ⟨Ev.listed_putTool h.1, h.2.imp fun _ hf =>
    Ev.agrees_putTool hf (State.freeEntry_none hfree) (readyForReinstate_of_enrol hready) hpr⟩ i pl

/-! ## A tool is taken out -/

theorem Ev.listed_freePlace (h : Listed e.st) (p : Place) : Listed (e.freePlace p).st := by
  cases p with
  | pocket k => exact h.setPocket k _
  | rack x => exact h.setPos rfl rfl
  | spindle x => exact h
  | gripper => exact h
  | unknown => exact h

/-- The entry of a tool is freed, and its place. -/
theorem Ev.listed_takeOut (h : Listed e.st) (p : Place) : Listed ((e.freePlace p).st.setTool i none) :=
  (Ev.listed_freePlace h p).setTool i none

/-- An OFFLOADED tool lies on a rack. -/
theorem Agrees.place_of_offloaded (h : Agrees s f) (hu : s.tool i = some u) (hst : u.state = .offloaded) :
    ∃ x, u.place = .rack x := by
  obtain ⟨-, ⟨hst', -⟩ | ⟨hst', -⟩⟩ | ⟨x, hx, hl⟩ := h.tool_cases hu
  · cases hst.symm.trans hst'
  · cases hst.symm.trans hst'
  · obtain ⟨hplace, -⟩ | ⟨-, -, hs, -⟩ | ⟨-, hs, -⟩ | ⟨-, hs, -⟩ := hl.cases (h.shape x) hx
    · exact ⟨x, hplace⟩
    · cases hst.symm.trans hs
    · cases hst.symm.trans hs
    · cases hst.symm.trans hs

theorem Ev.whole_withdraw (h : Whole e.st) (hu : e.st.tool i = some u) (hmay : e.st.withdrawable i u = true) :
    Whole ((e.freePlace u.place).upd fun s => s.setTool i none).st := by
  refine ⟨Ev.listed_takeOut h.1 _, h.2.imp fun f hf => ?_⟩
  have hcases : (u.state = .stored ∨ u.state = .quarantined) ∨ u.state = .offloaded ∧ e.st.orderNaming i = none := by
    simpa [State.withdrawable] using hmay
  obtain hst | ⟨hst, hnamed⟩ := hcases
  · exact Ev.agrees_takeOut hf hu (hf.loose_of_state hu hst)
  · obtain ⟨x, hx⟩ := hf.place_of_offloaded hu hst
    rw [hx]
    exact hf.leaveRack hu hst hnamed hx

/-! ## REINSTATE: the tool is taken out and put at its place (R37) -/

theorem Ev.st_putTool_freed : ((e.upd fun s => s.setTool i none).putTool i v pl).st = (e.putTool i v pl).st := by
  cases pl <;> simp [Ev.putTool, State.setTool_setTool]

/-- To leave the old pocket and be put is to be taken out and put. -/
theorem Ev.st_putTool_left (hplace : (∃ k, u.place = .pocket k) ∨ u.place = .unknown) :
    ((e.leaveOldPocket u.place pl).putTool i v pl).st = ((e.freePlace u.place).putTool i v pl).st := by
  obtain ⟨k, hk⟩ | hk := hplace <;> rw [hk]
  · unfold Ev.leaveOldPocket
    dsimp only
    split
    · next hpl =>
      rw [hpl]
      exact ((e.st.setTool i _).setPocket_setPocket k _ _).symm
    · rfl
  · rfl

/-- The place is ready for the tool, and stays so when the tool is taken out. -/
theorem Ev.readyForReinstate_takeOut
    (hplace : (∃ k, u.place = .pocket k) ∨ u.place = .unknown) (hready : e.st.readyForReinstate i pl = true) :
    ((e.freePlace u.place).st.setTool i none).readyForReinstate i pl = true := by
  obtain ⟨k, hk⟩ | hk := hplace <;> rw [hk]
  · cases pl with
    | pocket m =>
      show State.readyForReinstate (e.st.setPocket k .free) i (.pocket m) = true
      unfold State.readyForReinstate at hready ⊢
      dsimp only at hready ⊢
      rw [State.pocket_setPocket]
      split
      · rfl
      · exact hready
    | rack x => exact hready
    | spindle x => exact hready
  · exact hready

theorem Ev.whole_reinstate (h : Whole e.st) (hu : e.st.tool i = some u) (hst : u.state = .quarantined)
    (hready : e.st.readyForReinstate i pl = true) (hpr : v.promised = none) :
    Whole (((e.leaveOldPocket u.place pl).putTool i v pl).afterPut i pl).st := by
  obtain ⟨hl, f, hf⟩ := h
  have hloose := hf.loose_of_state hu (.inr hst)
  have hplace : (∃ k, u.place = .pocket k) ∨ u.place = .unknown := hloose.2.elim (fun h => .inl h.2) And.right
  refine Ev.whole_afterPut ?_ i pl
  rw [Ev.st_putTool_left hplace, ← Ev.st_putTool_freed]
  have hout : Agrees ((e.freePlace u.place).upd fun s => s.setTool i none).st f := Ev.agrees_takeOut hf hu hloose
  exact ⟨Ev.listed_putTool (Ev.listed_takeOut hl _), f, Ev.agrees_putTool hout (by simp)
    (Ev.readyForReinstate_takeOut hplace hready) hpr⟩

end

end Sys2Proof.Machine

/-! PROOFS. O57: every step leaves the cell in agreement. -/
namespace Sys2Proof.Machine

section
variable {s t : State} {f : PosIx → Option Order} {e : Ev} {w : Clearing}

/-! ## Events -/

theorem Whole.deliver (h : Whole s) (words : Vector SampleWord 16) :
    Whole (((Ev.start s).upd fun s => s.keepSamples words).deliver words).st :=
  Ev.whole_foldl (fun _ x he => Ev.whole_deliverTo words he x) _ (h.of_ret (quiet_keepSamples s words).ret)

theorem Whole.setRoute (h : Whole s) (slot : HwSlot) (r : Option Target) :
    Whole (((s.setRoute slot r).clearDeglitch (s.route slot)).clearDeglitch r) := by
  have hset : Whole (s.setRoute slot r) :=
    ⟨h.1.of_same rfl rfl rfl rfl rfl fun _ => ⟨rfl, rfl⟩, h.2.imp fun _ h => h.of_view (fun _ => Iff.rfl) rfl rfl rfl⟩
  exact hset.of_ret ((Quiet.clearDeglitch _ _).trans (.clearDeglitch _ _)).ret

/-- Every event leaves the orders and the waiting list lawful and the positions in agreement. -/
theorem Own.whole (he : Own w s e) (h : Whole s) : Whole e.st := by
  have hstart : Whole (Ev.start s).st := h
  cases he with
  | typeEdit _ _ _ => exact Ev.whole_arbitrateIfWaited (Ev.whole_reevaluate (h.setType _ _) _ _) _
  | typeDefine _ _ => exact h.setType _ _
  | typeErase _ => exact h.setType _ _
  | openWindow _ => exact Ev.whole_setChan (Ev.whole_updPos_cell hstart (by rfl) (by rfl)) _ _
  | closeWindow x => exact Ev.whole_setChan (Ev.whole_updPos_cell hstart (by rfl) (by rfl)) x _
  | @monitor x m r l _ _ =>
    have hset : Whole ((Ev.start s).updPos x fun p =>
        { p with mode := m, retryTime := r, retryLimit := l, retryCount := min l p.retryCount }).st :=
      Ev.whole_updPos_cell hstart rfl rfl
    refine hset.of_ret ?_
    show (if _ then _ else _ : State).ret = _
    split
    · rfl
    · exact State.ret_changeMode _ _
  | clearRetries x => exact Ev.whole_updPos_cell hstart rfl rfl
  | assign _ _ _ _ => exact Ev.whole_needTest (Ev.whole_assign hstart _ _) _
  | declarePosition _ _ _ => exact Ev.whole_needTest (Ev.whole_declared hstart _) _
  | resume _ _ => exact Ev.whole_needTest (Ev.whole_arbitrateFor (Ev.whole_updPos_cell hstart (by rfl) (by rfl)) _) _
  | timeout n =>
    exact ⟨h.1.of_same rfl rfl rfl rfl rfl fun _ => ⟨rfl, rfl⟩, h.2.imp fun _ h => h.of_view (fun _ => Iff.rfl) rfl rfl rfl⟩
  | route _ => exact h.setRoute _ _
  | take hbusy hnext => exact whole_take h hbusy (List.mem_of_find?_eq_some hnext)
  | done _ hbusy _ => exact whole_done h hbusy
  | fail _ hbusy _ _ => exact whole_fail h hbusy _
  | expiry _ hbusy => exact whole_expiry h hbusy
  | deliver words => exact h.deliver words
  | @retry x hheld =>
    have hend : Whole ((((Ev.start s).upd (·.stopTimer x)).updPos x Position.endHold).upd (·.restartChannel x)).st :=
      ((h.of_ret (t := s.stopTimer x) rfl).endHold hheld).of_ret (State.ret_restartChannel _ _)
    exact Ev.whole_needTest hend x
  | @release x hserv =>
    have hwork : (s.pos x).service.atWork := hserv.imp id .inl
    exact Ev.whole_needTest (e := (Ev.start s).updPos x Position.release) (h.setWork hwork (.inr rfl) rfl rfl) x
  | reclaim hserv => exact Ev.whole_needTest (Ev.whole_noticeDue (Ev.whole_reclaim hstart hserv) _) _
  | @verdictOk x hheld =>
    have hend : Whole ((Ev.start s).updPos x Position.endHold).st := h.endHold hheld
    exact Ev.whole_needTest (Ev.whole_verdictChannel
      (Ev.whole_noticeDue (Ev.whole_updPos_cell hend (by rfl) (by rfl)) x) x) x
  | verdictBroken hserv => exact Ev.whole_verdictBroken hstart hserv
  | enrol _ _ _ _ hfree hready => exact Ev.whole_enrol hstart hfree hready rfl
  | withdraw htool hmay => exact Ev.whole_withdraw hstart htool hmay
  | reinstate htool hquarantined _ _ hready => exact Ev.whole_reinstate hstart htool hquarantined hready rfl
  | declarePocket hunknown => exact ⟨h.1.setPocket _ _, h.2.imp fun _ h => h.freeUnknown hunknown⟩
  | parts x n =>
    have hcount : ∀ u, (Tool.countParts n u).spot = u.spot := fun _ => rfl
    exact Ev.whole_evalTriggers (Ev.whole_chargeMounted hstart x _ hcount) x
  | dress x d n =>
    have hcount : ∀ u, (Tool.countDresses n u).spot = u.spot := fun _ => rfl
    exact Ev.whole_evalTriggers (Ev.whole_evalTriggers
      (Ev.whole_chargeMounted (Ev.whole_chargeMounted hstart x _ hcount) d _ hcount) x) d
  | gauge _ => exact Ev.whole_gaugeTool hstart _ _ _ _
  | idle => exact h

/-! ## Starts -/

theorem Agrees.warmed (h : Agrees s f) (pins : Strap) : Agrees (s.warmed pins) f := by
  refine h.congr (h.stands.congr fun _ => hasCore_warm rfl) (fun x => ?_) (fun _ => rfl) rfl
  have hx : (s.warmed pins).pos x = (s.pos x).warm := s.pos_warm x
  rw [hx]
  rfl

theorem Whole.warmed (h : Whole s) (pins : Strap) : Whole (s.warmed pins) := by
  have hl : Listed { s with ret := s.ret.warm } := h.1.steps (C := fun _ => False) (.single .warm)
  exact ⟨⟨hl.1.of_ret rfl rfl rfl rfl, hl.2.of_ret rfl⟩, h.2.imp fun _ h => h.warmed pins⟩

theorem Whole.warmStart (h : Whole s) (pins : Strap) : Whole (warmStart pins s) := by
  have harbitrated : Whole (Ev.start (s.warmed pins)).arbitrateStart.st :=
    Ev.whole_foldl (fun _ k he => Ev.whole_arbitrate he k) _ (h.warmed pins)
  exact (Ev.whole_handOffs harbitrated).of_ret (ret_warmStart pins s)

theorem whole_coldStart (pins : Strap) (s : State) : Whole (coldStart pins s) :=
  have hcold := ret_coldStart pins s
  whole_iff.mpr ⟨cellLaw_of_cold hcold, orderLaw_of_cold hcold, waitingLaw_of_cold hcold⟩

theorem Break.whole (hb : Break s t) (h : Whole s) : Whole t := by
  cases hb with
  | silenced hs => exact h.of_ret hs.ret
  | warm pins hret => exact (h.of_ret hret).warmStart pins

end

/-- Settles O57: the records, the tools, the pockets and the one order of each position agree (`Agrees`), and every change that
an event or a start makes leaves them in agreement. -/
theorem cellStaysInAgreement : Obligations.CellStaysInAgreement := by
  intro s t ⟨hcell, horders, hwaiting, _⟩ ht
  have hs : Whole s := whole_iff.mpr ⟨hcell, horders, hwaiting⟩
  have hwhole : Whole t := (step_runs ht).induct (P := Whole) hs (fun hcalm h => h.of_ret hcalm.ret)
    (fun hown h => whole_finish _ (hown.whole h)) Break.whole whole_coldStart
  exact (whole_iff.mp hwhole).1

end Sys2Proof.Machine
